-- ==== Sys2Proof/Word.lean ====
section
/-! DEFINITION. The word types of the KD5-M512 and their plainest arithmetic (R2, R29, R48). -/

namespace Sys2Proof

/-- One byte (R2). -/
abbrev Byte := BitVec 8
/-- A g-register, an address, a program counter: 64 bits (R27). -/
abbrev Word := BitVec 64
/-- One instruction word: 128 bits (R73). -/
abbrev IWord := BitVec 128
/-- One vector register: 512 bytes (R29). -/
abbrev VReg := BitVec 4096
/-- One mask: 1,024 bits (R32). -/
abbrev Mask := BitVec 1024

end Sys2Proof
end

