-- ==== Sys2Proof/Syntax.lean ====
section
/-! DEFINITION. The instruction set as syntax: the common header (R77), the six word formats (R83, R84), the record
layout (R88), and one constructor of Instr for each row of the table of operations and events. -/

namespace Sys2Proof

/-- The fields of the common header beside MAJ and FN, which the constructor stands for (R77). -/
structure Header where
  /-- bit 16, M: FIXED when true -/
  m : BitVec 1
  /-- bits [19:17], TKP -/
  tkp : BitVec 3
  /-- bits [22:20], TKS -/
  tks : BitVec 3
  /-- bits [24:23], MSRC -/
  msrc : BitVec 2
  /-- bits [28:25], SPI -/
  spi : BitVec 4
  /-- bit 29, ROT -/
  rot : BitVec 1
deriving DecidableEq, Repr

/-- The header of a plain INTERLOCK word: every field zero. -/
def Header.plain : Header := ⟨0, 0, 0, 0, 0, 0⟩

/-- Format REG (R83). -/
structure RegOps where
  dg : BitVec 6
  ag : BitVec 6
  bg : BitVec 6
  cg : BitVec 6
  cond : BitVec 4
deriving DecidableEq, Repr

/-- Format IMM (R83). -/
structure ImmOps where
  dg : BitVec 6
  ag : BitVec 6
  imm : BitVec 64
deriving DecidableEq, Repr

/-- Format JMP (R83). -/
structure JmpOps where
  dg : BitVec 6
  ag : BitVec 6
  bg : BitVec 6
  cond : BitVec 4
  disp : BitVec 32
  imm : BitVec 32
deriving DecidableEq, Repr

/-- Format MEM (R84). -/
structure MemOps where
  dg : BitVec 6
  ag : BitVec 6
  bg : BitVec 6
  cg : BitVec 6
  sco : BitVec 3
  sz : BitVec 2
  sgn : BitVec 1
  ord : BitVec 2
  off : BitVec 32
  aop : BitVec 8
deriving DecidableEq, Repr

/-- Format VEC (R84). -/
structure VecOps where
  vd : BitVec 10
  va : BitVec 10
  vb : BitVec 10
  vc : BitVec 10
  et : BitVec 4
  et2 : BitVec 4
  rmo : BitVec 3
  sat : BitVec 1
  sgn : BitVec 1
  ga : BitVec 6
  imm : BitVec 32
deriving DecidableEq, Repr

/-- Format ENG (R84). -/
structure EngOps where
  va : BitVec 10
  vb : BitVec 10
  vc : BitVec 10
  ga : BitVec 6
  gb : BitVec 6
  gc : BitVec 6
  ta : BitVec 4
  tb : BitVec 4
  tc : BitVec 4
  sga : BitVec 1
  sgb : BitVec 1
  bka : BitVec 2
  bkb : BitVec 2
  tile : BitVec 4
  sco : BitVec 3
  imm : BitVec 16
deriving DecidableEq, Repr

/-- An operand descriptor of a record (R88). -/
structure Descriptor where
  base : BitVec 6
  off : BitVec 22
  ulog : BitVec 4
  s0 : BitVec 12
  s1 : BitVec 12
  s2 : BitVec 12
  s3 : BitVec 12
deriving DecidableEq, Repr

/-- The fields of a loop-nest record beside its header and continuation marks (R88). -/
structure RecOps where
  fts : BitVec 1
  ta : BitVec 4
  tb : BitVec 4
  tc : BitVec 4
  ka : BitVec 2
  kb : BitVec 2
  kc : BitVec 2
  slot : BitVec 3
  sga : BitVec 1
  sgb : BitVec 1
  bka : BitVec 2
  bkb : BitVec 2
  stamp : BitVec 32
  xg : BitVec 6
  opx : BitVec 26
  t0 : BitVec 16
  t1 : BitVec 16
  da : Descriptor
  t2 : BitVec 16
  t3 : BitVec 16
  db : Descriptor
  dc : Descriptor
  ext : BitVec 32
deriving DecidableEq, Repr

/-- Where an ECC error lies (R371, R372). -/
inductive EccSite where
  | coreArray (core : Nat)
  | clusterTlb (cluster : Nat)
  | barrierNet (cluster : Nat)
  | l2Way (slice set way : Nat)
  | hbmFrame (frame : Nat)
  | baseUnit (unit : Nat)
  | port (port : Nat)
  | bridge (die : Nat)
deriving DecidableEq, Repr

/-- A write offer as it reaches a home's ingress port (R350 step 1, R359): home address, bytes, writer. -/
structure WriteOffer where
  addr : Nat
  data : List Byte
  fromHost : Bool
  dev : Nat
  core : Nat
  entry : Nat
deriving DecidableEq, Repr

/-- The answer of a home to a posted write (R350 step 5), or its loss on a link (R357, R374). -/
inductive HomeAnswer where
  | ok
  | unbacked
  | readOnly
  | shardFrame
  | badData
  | fenced
  /-- a register of the home's window (R347) -/
  | registers
  | undeliverable
deriving DecidableEq, Repr

/-- A host read or write arriving on a host-mode port (R359). -/
inductive HostAccess where
  | read (addr bytes : Nat)
  | write (addr : Nat) (data : List Byte)
deriving DecidableEq, Repr

/-- One constructor for each row of spec/opcode_table.json: words (header and operand fields), records, and the
indivisible steps of the part that carry no encoding (file 95). -/
inductive Instr where
  | add (h : Header) (o : RegOps)
  | sub (h : Header) (o : RegOps)
  | mul (h : Header) (o : RegOps)
  | mulh (h : Header) (o : RegOps)
  | mulhn (h : Header) (o : RegOps)
  | div (h : Header) (o : RegOps)
  | divn (h : Header) (o : RegOps)
  | rem (h : Header) (o : RegOps)
  | remn (h : Header) (o : RegOps)
  | neg (h : Header) (o : RegOps)
  | min (h : Header) (o : RegOps)
  | max (h : Header) (o : RegOps)
  | minn (h : Header) (o : RegOps)
  | maxn (h : Header) (o : RegOps)
  | and (h : Header) (o : RegOps)
  | or (h : Header) (o : RegOps)
  | xor (h : Header) (o : RegOps)
  | andn (h : Header) (o : RegOps)
  | not (h : Header) (o : RegOps)
  | shl (h : Header) (o : RegOps)
  | shr (h : Header) (o : RegOps)
  | sra (h : Header) (o : RegOps)
  | rol (h : Header) (o : RegOps)
  | clz (h : Header) (o : RegOps)
  | ctz (h : Header) (o : RegOps)
  | popc (h : Header) (o : RegOps)
  | sext (h : Header) (o : RegOps)
  | zext (h : Header) (o : RegOps)
  | andImm (h : Header) (o : ImmOps)
  | orImm (h : Header) (o : ImmOps)
  | xorImm (h : Header) (o : ImmOps)
  | andnImm (h : Header) (o : ImmOps)
  | shlImm (h : Header) (o : ImmOps)
  | shrImm (h : Header) (o : ImmOps)
  | sraImm (h : Header) (o : ImmOps)
  | rolImm (h : Header) (o : ImmOps)
  | sextImm (h : Header) (o : ImmOps)
  | zextImm (h : Header) (o : ImmOps)
  | addi (h : Header) (o : ImmOps)
  | li (h : Header) (o : ImmOps)
  | lea (h : Header) (o : ImmOps)
  | cset (h : Header) (o : RegOps)
  | sel (h : Header) (o : RegOps)
  | j (h : Header) (o : JmpOps)
  | b (h : Header) (o : JmpOps)
  | brq (h : Header) (o : JmpOps)
  | call (h : Header) (o : JmpOps)
  | loop (h : Header) (o : JmpOps)
  | jr (h : Header) (o : JmpOps)
  | callr (h : Header) (o : JmpOps)
  | ret (h : Header) (o : JmpOps)
  | msave (h : Header) (o : RegOps)
  | mrest (h : Header) (o : RegOps)
  | mand (h : Header) (o : RegOps)
  | mor (h : Header) (o : RegOps)
  | mxor (h : Header) (o : RegOps)
  | mnot (h : Header) (o : RegOps)
  | mset (h : Header) (o : RegOps)
  | mcnt (h : Header) (o : RegOps)
  | vadd (h : Header) (o : VecOps)
  | vsub (h : Header) (o : VecOps)
  | vmul (h : Header) (o : VecOps)
  | vfma (h : Header) (o : VecOps)
  | vfms (h : Header) (o : VecOps)
  | vmin (h : Header) (o : VecOps)
  | vmax (h : Header) (o : VecOps)
  | vabs (h : Header) (o : VecOps)
  | vneg (h : Header) (o : VecOps)
  | vand (h : Header) (o : VecOps)
  | vor (h : Header) (o : VecOps)
  | vxor (h : Header) (o : VecOps)
  | vnot (h : Header) (o : VecOps)
  | vshl (h : Header) (o : VecOps)
  | vshr (h : Header) (o : VecOps)
  | vsra (h : Header) (o : VecOps)
  | vcmp (h : Header) (o : VecOps)
  | vsel (h : Header) (o : VecOps)
  | vcvt (h : Header) (o : VecOps)
  | vwiden (h : Header) (o : VecOps)
  | vnarrow (h : Header) (o : VecOps)
  | vsat (h : Header) (o : VecOps)
  | vclamp (h : Header) (o : VecOps)
  | vdot4 (h : Header) (o : VecOps)
  | vred (h : Header) (o : VecOps)
  | vscan (h : Header) (o : VecOps)
  | vperm (h : Header) (o : VecOps)
  | vshuf (h : Header) (o : VecOps)
  | vbcast (h : Header) (o : VecOps)
  | vslide (h : Header) (o : VecOps)
  | viota (h : Header) (o : VecOps)
  | vcomp (h : Header) (o : VecOps)
  | vexpd (h : Header) (o : VecOps)
  | vld (h : Header) (o : VecOps)
  | vst (h : Header) (o : VecOps)
  | vldx (h : Header) (o : VecOps)
  | vstx (h : Header) (o : VecOps)
  | vgath (h : Header) (o : VecOps)
  | vscat (h : Header) (o : VecOps)
  | vqpop (h : Header) (o : VecOps)
  | vqpush (h : Header) (o : VecOps)
  | vexp2 (h : Header) (o : VecOps)
  | vlog2 (h : Header) (o : VecOps)
  | vrcp (h : Header) (o : VecOps)
  | vrsq (h : Header) (o : VecOps)
  | vtanh (h : Header) (o : VecOps)
  | vsigm (h : Header) (o : VecOps)
  | vmerge3 (h : Header) (o : VecOps)
  | vdefer (h : Header) (o : VecOps)
  | vdrain (h : Header) (o : VecOps)
  | vdqcnt (h : Header) (o : VecOps)
  | loopp (h : Header) (o : JmpOps)
  | brp (h : Header) (o : JmpOps)
  | vmov (h : Header) (o : VecOps)
  | vzero (h : Header) (o : VecOps)
  | ld (h : Header) (o : MemOps)
  | st (h : Header) (o : MemOps)
  | ldx (h : Header) (o : MemOps)
  | stx (h : Header) (o : MemOps)
  | lda (h : Header) (o : MemOps)
  | stl (h : Header) (o : MemOps)
  | amo (h : Header) (o : MemOps)
  | cas (h : Header) (o : MemOps)
  | fence (h : Header) (o : MemOps)
  | mark (h : Header) (o : MemOps)
  | tksig (h : Header) (o : MemOps)
  | tkwait (h : Header) (o : MemOps)
  | boqpush (h : Header) (o : MemOps)
  | barv (h : Header) (o : MemOps)
  | bwait (h : Header) (o : MemOps)
  | tbinit (h : Header) (o : MemOps)
  | tbarv (h : Header) (o : MemOps)
  | tbwait (h : Header) (o : MemOps)
  | leeway (h : Header) (o : MemOps)
  | remq (h : Header) (o : MemOps)
  | notify (h : Header) (o : MemOps)
  | waitev (h : Header) (o : MemOps)
  | mma (h : Header) (o : EngOps)
  | mmac (h : Header) (o : EngOps)
  | cmerge (h : Header) (o : EngOps)
  | cspill (h : Header) (o : EngOps)
  | cdrain (h : Header) (o : EngOps)
  | acfg (h : Header) (o : EngOps)
  | azero (h : Header) (o : EngOps)
  | aload (h : Header) (o : EngOps)
  | adrain (h : Header) (o : EngOps)
  | adrainp (h : Header) (o : EngOps)
  | aarm (h : Header) (o : EngOps)
  | fmtset (h : Header) (o : EngOps)
  | fmtld (h : Header) (o : EngOps)
  | mvec (h : Header) (o : EngOps)
  | mxt (h : Header) (o : EngOps)
  | xcopy (h : Header) (o : EngOps)
  | xgath (h : Header) (o : EngOps)
  | xscat (h : Header) (o : EngOps)
  | xfill (h : Header) (o : EngOps)
  | xpop (h : Header) (o : EngOps)
  | xstat (h : Header) (o : EngOps)
  | publish (h : Header) (o : EngOps)
  | ntake (h : Header) (o : EngOps)
  | ndecl (h : Header) (o : EngOps)
  | nwait (h : Header) (o : EngOps)
  | reclaim (h : Header) (o : EngOps)
  | rextend (h : Header) (o : EngOps)
  | helmset (h : Header) (o : EngOps)
  | pwin (h : Header) (o : EngOps)
  | coll (h : Header) (o : EngOps)
  | accw (h : Header) (o : EngOps)
  | rdywait (h : Header) (o : EngOps)
  | sortk (h : Header) (o : EngOps)
  | echoose (h : Header) (o : EngOps)
  | rcsnap (h : Header) (o : EngOps)
  | lattn (h : Header) (o : EngOps)
  | chnew (h : Header) (o : EngOps)
  | chfork (h : Header) (o : EngOps)
  | chflat (h : Header) (o : EngOps)
  | chappend (h : Header) (o : EngOps)
  | chlook (h : Header) (o : EngOps)
  | chtrunc (h : Header) (o : EngOps)
  | chseal (h : Header) (o : EngOps)
  | chfree (h : Header) (o : EngOps)
  | chgive (h : Header) (o : EngOps)
  | bmset (h : Header) (o : EngOps)
  | bmperm (h : Header) (o : EngOps)
  | bmlook (h : Header) (o : EngOps)
  | rkbegin (h : Header) (o : EngOps)
  | acmp (h : Header) (o : EngOps)
  | rkcommit (h : Header) (o : EngOps)
  | rkend (h : Header) (o : EngOps)
  | rkstat (h : Header) (o : EngOps)
  | csrr (h : Header) (o : ImmOps)
  | csrw (h : Header) (o : ImmOps)
  | csrx (h : Header) (o : ImmOps)
  | trap (h : Header) (o : ImmOps)
  | eret (h : Header) (o : ImmOps)
  | halt (h : Header) (o : ImmOps)
  | nop (h : Header) (o : ImmOps)
  | yield (h : Header) (o : ImmOps)
  | mmaRecord (h : Header) (r : RecOps)
  | mmacRecord (h : Header) (r : RecOps)
  | xcopyRecord (h : Header) (r : RecOps)
  | xgathRecord (h : Header) (r : RecOps)
  | xscatRecord (h : Header) (r : RecOps)
  | xfillRecord (h : Header) (r : RecOps)
  | publishRecord (h : Header) (r : RecOps)
  | collRecord (h : Header) (r : RecOps)
  | sortkRecord (h : Header) (r : RecOps)
  | lattnRecord (h : Header) (r : RecOps)
  | vectorArithRecord (fn : BitVec 8) (h : Header) (r : RecOps)
  | vectorLogicRecord (fn : BitVec 8) (h : Header) (r : RecOps)
  | vectorConvertRecord (fn : BitVec 8) (h : Header) (r : RecOps)
  | vectorDotRecord (fn : BitVec 8) (h : Header) (r : RecOps)
  | vectorMemoryRecord (fn : BitVec 8) (h : Header) (r : RecOps)
  | vectorSpecialRecord (fn : BitVec 8) (h : Header) (r : RecOps)
  | vmerge3Record (h : Header) (r : RecOps)
  | recordIssue (core : Nat) (port : Nat)
  | engineCommandStart (core : Nat) (port : Nat)
  | triggeredCommandStart (core : Nat) (port : Nat)
  | commandComplete (core : Nat) (port : Nat)
  | notifyRetire (core : Nat) (port : Nat)
  | loadAnswer (core : Nat) (id : Nat)
  | l1Eviction (core : Nat) (line : Nat)
  | pageWalkComplete (walk : Nat)
  | leewayCountUpdate (cluster : Nat)
  | tokenDeadlock (core : Nat)
  | reportedFaultDelivery (core : Nat) (seq : Nat)
  | blockExpiry (core : Nat) (slot : Nat)
  | reclaimTrapDelivery (core : Nat)
  | noticeArrival (msg : Nat)
  | heldNoticeEntry (core : Nat)
  | noticeRipe (core : Nat) (entry : Nat)
  | helmPullStart (core : Nat)
  | segmentRequest (core : Nat)
  | segmentRead (msg : Nat)
  | segmentLand (core : Nat)
  | pullCompletionArrival (msg : Nat)
  | declineArrival (msg : Nat)
  | withdrawalArrival (msg : Nat)
  | collSegmentApply (core : Nat)
  | remoteBlockServe (core : Nat)
  | tileEnd (core : Nat)
  | tileEndByFault (core : Nat)
  | packetRead (queue : Nat)
  | coreOffer (core : Nat)
  | launchComplete (queue : Nat) (lseq : Nat)
  | preemptTrigger (queue : Nat)
  | contextSave (core : Nat)
  | tileResume (core : Nat)
  | queueDrainDone (queue : Nat)
  | queueAbortDone (queue : Nat)
  | qctlEnable (queue : Nat)
  | qctlDrain (queue : Nat)
  | qctlAbort (queue : Nat)
  | qwrDoorbell (queue : Nat) (value : Nat)
  | tigoInvalidate (bytes : Nat)
  | tlbInvalidateComplete
  | wcmdIngress (entry : Nat)
  | wcmdLocal (entry : Nat)
  | wcmdRelease (entry : Nat)
  | shardBlockWrite (addr : Nat) (data : List Byte)
  | shardLocalCheckDone (entry : Nat)
  | shardPatrolPass
  | wfenceClear (index : Nat) (value : Nat)
  | fllostClear (value : Nat)
  | errorCountClear (cluster : Bool) (index : Nat) (value : Nat)
  | unfenceCore (index : Nat) (value : Nat)
  | unfenceCluster (value : Nat)
  | unfenceStack (value : Nat)
  | unfenceUnit (index : Nat) (value : Nat)
  | eccCorrected (site : EccSite)
  | eccUncorrectable (site : EccSite)
  | patrolScrub
  | ckctlSave
  | ckctlRestore
  | checkpointQuiesced
  | checkpointCopyDone
  | checkpointError
  | checkpointRestoreDone
  | tcmdLcchange
  | tcmdQuote
  | tcmdKeyinstall (asid : Nat)
  | tcmdKeyclear (asid : Nat)
  | powerOnReset
  | sfctlStartupEnd
  | sfctlBist
  | bistDone
  | clkcfgWrite (die : Nat) (value : Nat)
  | clkcfgPendingApply (die : Nat)
  | pcfgWrite (port : Nat) (value : Nat)
  | portTrained (port : Nat) (peer : Nat)
  | portTrainingTimeout (port : Nat)
  | portFence (port : Nat)
  | flitForward (msg : Nat)
  | flitReplay (port : Nat)
  | undeliverableReturn (msg : Nat)
  | writeOfferArrival (port : Nat) (offer : WriteOffer)
  | writeOfferPull (port : Nat)
  | remoteWritePerform (port : Nat)
  | remoteWriteAck (core : Nat) (entry : Nat) (answer : HomeAnswer)
  | remoteReadRequest (port : Nat) (addr : Nat) (bytes : Nat)
  | hostRegisterAccess (port : Nat) (access : HostAccess)
  | registerWrite (off : Nat) (value : Nat)
  | powerManagerCheck
  | thermalStop
  | thermalRestart
  | chronometerTick
  | pldmSensorRead (sensor : Nat)
  | storePerformed (core : Nat) (id : Nat)
  | shardIngressCheckDone (entry : Nat)
  | stackLosesTraining (stack : Nat)
  | baseDieError (stack : Nat)
  | powerLoss
deriving DecidableEq, Repr

end Sys2Proof
end

