-- ==== Sys2Proof/WellFormed.lean ====
section
/-! DEFINITION. Which operands an encoding admits: every field that the instruction's description does not name is zero
(R85), every code field holds an assigned value (R81, R82), and the field rules of each instruction and record hold.
A word or record that breaks one of them takes the illegal-instruction trap of R86, row 4. -/

namespace Sys2Proof

/-! ### Type codes (R81, R132) -/

/-- Width in bits of an element of a type code (R29, R81, R132). -/
def typeWidth (t : BitVec 4) : Nat :=
  match t.toNat with
  | 0 | 1 | 13 => 4
  | 2 | 3 | 8 | 9 | 14 | 15 => 8
  | 4 | 5 | 10 | 11 => 16
  | _ => 32

/-- Lanes of a register at a type's width (R132). -/
def lanes (t : BitVec 4) : Nat := 4096 / typeWidth t

/-- Class I: integer codes 0 to 7 (R132). -/
def isI (t : BitVec 4) : Bool := decide (t.toNat ≤ 7)
/-- Class Q: FP8 codes 8 and 9. -/
def isQ (t : BitVec 4) : Bool := t == 8 || t == 9
/-- Class F: FP16, BF16, FP32. -/
def isF (t : BitVec 4) : Bool := t == 10 || t == 11 || t == 12
/-- Class X: MXINT codes 13 to 15. -/
def isX (t : BitVec 4) : Bool := decide (13 ≤ t.toNat)

/-- Signed integer codes (S formats) among codes 0 to 7. -/
def isSigned (t : BitVec 4) : Bool := t.toNat % 2 == 0

/-- An operand naming n registers: a multiple of n within the file for n = 2 or 4; only within it for n = 3 (R133). -/
def groupOk (v : BitVec 10) (n : Nat) : Bool :=
  decide (v.toNat + n ≤ 1024) && (n == 3 || v.toNat % n == 0)

/-- Ratio of two widths as the number of registers in the wider operand's group: 1, 2 or 4, or none (R139). -/
def widthRatio (a b : Nat) : Option Nat :=
  if a = b then some 1 else if a = 2 * b || b = 2 * a then some 2 else if a = 4 * b || b = 4 * a then some 4 else none

/-- MSRC other than 3 needs SPI zero (R79). -/
def Header.wf (h : Header) : Bool := h.msrc == 3 || h.spi == 0

/-! ### Vector words (R135 to R153) -/

/-- The SB rule of R133: IMM[15] is SB, the rest of IMM zero; SB = 1 needs VB zero, SB = 0 needs GA zero. -/
def VecOps.sbOk (o : VecOps) : Bool :=
  (o.imm == 0 && o.ga == 0) || (o.imm == 0x8000 && o.vb == 0)

/-- MAJ 0x40 (R135): three says whether VC is used, one whether only VA is. -/
def VecOps.wfArith (o : VecOps) (three one : Bool) : Bool :=
  (isI o.et || isF o.et) && o.et2 == 0 && o.sgn == 0 && (three || o.vc == 0) &&
  (if one then o.imm == 0 && o.ga == 0 && o.vb == 0 else o.sbOk) &&
  (if isI o.et then o.rmo == 0 else o.sat == 0 && decide (o.rmo.toNat ≤ 4))

/-- MAJ 0x41 (R136). -/
def VecOps.wfLogic (o : VecOps) (one : Bool) : Bool :=
  isI o.et && o.et2 == 0 && o.rmo == 0 && o.sat == 0 && o.sgn == 0 && o.vc == 0 &&
  (if one then o.imm == 0 && o.ga == 0 && o.vb == 0 else o.sbOk)

/-- VCMP's IMM fields (R137). -/
def VecOps.wfCompare (o : VecOps) : Bool :=
  (isI o.et || isF o.et) && o.imm.toNat / 65536 == 0 && o.imm.toNat / 256 % 128 == 0 &&
  decide (o.imm.toNat % 16 ≤ (if isF o.et then 5 else 9)) &&
  (if o.imm.toNat / 32768 % 2 = 1 then o.vb == 0 else o.ga == 0)

/-- The groups of a conversion from source type et2 to destination type et (R139). -/
def VecOps.groupsOk (o : VecOps) : Bool :=
  match widthRatio (typeWidth o.et) (typeWidth o.et2) with
  | none => false
  | some n =>
    if typeWidth o.et2 < typeWidth o.et then groupOk o.vd n
    else if typeWidth o.et < typeWidth o.et2 then groupOk o.va n else true

/-- VCVT (R140). Of R139's ratios it takes 1, 2 and 4: a pair of MX4 and a 32-bit type, which R140's example names, has ratio 8. (DESIGN CHOICE, log 100) -/
def VecOps.wfConvert (o : VecOps) : Bool :=
  o.groupsOk && !(isX o.et && isX o.et2) && decide (o.rmo.toNat ≤ 4) && (isQ o.et || o.sat == 0) &&
  (isX o.et || isX o.et2 || (o.ga == 0 && o.sgn == 0))

/-- The exact pairs of VWIDEN, destination then source (R140). -/
def widenPairs : List (Nat × Nat) :=
  [(2, 0), (4, 0), (3, 1), (5, 1), (2, 1), (4, 1), (4, 2), (6, 2), (5, 3), (7, 3), (4, 3), (6, 3), (6, 4), (7, 5), (6, 5)] ++
  [(10, 8), (11, 8), (12, 8), (10, 9), (11, 9), (12, 9), (12, 10), (12, 11)]

def VecOps.wfWiden (o : VecOps) : Bool :=
  widenPairs.contains (o.et.toNat, o.et2.toNat) && o.groupsOk

/-- VNARROW: both integer, destination narrower (R141). -/
def VecOps.wfNarrow (o : VecOps) : Bool :=
  isI o.et && isI o.et2 && decide (typeWidth o.et < typeWidth o.et2) && o.groupsOk

/-- VSAT: both integer, the element at least as wide as the range (R141). -/
def VecOps.wfSat (o : VecOps) : Bool :=
  isI o.et && isI o.et2 && decide (typeWidth o.et ≤ typeWidth o.et2)

/-- VDOT4 (R142). -/
def VecOps.wfDot (o : VecOps) : Bool :=
  ((o.et2 == 2 || o.et2 == 3) && o.et == 6 && o.rmo == 0) ||
  (isQ o.et2 && o.et == 12 && o.sgn == 0 && o.sat == 0 && decide (o.rmo.toNat ≤ 4))

/-- VRED and VSCAN (R143): IMM[1:0] is op; SAT for integer sums, RMO for floating sums only. -/
def VecOps.wfReduce (o : VecOps) : Bool :=
  (isI o.et || isF o.et) && decide (o.imm.toNat ≤ 2) &&
  (o.sat == 0 || (isI o.et && o.imm == 0)) &&
  (o.rmo == 0 || (isF o.et && o.imm == 0 && decide (o.rmo.toNat ≤ 4)))

/-- VBCAST (R144): IMM[0] E, IMM[25:16] the index, which the form of a g-register has as zero. (DEDUCED, log 96) -/
def VecOps.wfBcast (o : VecOps) : Bool :=
  (o.imm == 0 && o.va == 0) ||
  (o.imm.toNat % 65536 == 1 && decide (o.imm.toNat / 65536 < 1024) && decide (o.imm.toNat / 65536 < lanes o.et) && o.ga == 0)

/-- VGATH and VSCAT (R146): IMM[0] is X; no 4-bit lanes; the index group of R133. -/
def VecOps.wfIndexed (o : VecOps) : Bool :=
  decide (o.imm.toNat ≤ 1) && typeWidth o.et != 4 && groupOk o.vb (32 / typeWidth o.et)

/-- VMERGE3 (R150): FP32, three groups of three. -/
def VecOps.wfMerge (o : VecOps) : Bool :=
  o.et == 12 && groupOk o.vd 3 && groupOk o.va 3 && groupOk o.vb 3

/-! ### Control and synchronisation words -/

/-- LOOPP and BRP (R155): S in IMM[7:0]; BRP's Q in IMM[15:8]. -/
def JmpOps.wfStages (o : JmpOps) (rotates : Bool) : Bool :=
  decide (1 ≤ o.imm.toNat % 256) && decide (o.imm.toNat % 256 ≤ 16) &&
  (if rotates then decide (1 ≤ o.imm.toNat / 256) && decide (o.imm.toNat / 256 ≤ 64) else o.imm.toNat / 256 == 0)

/-- TKSIG and TKWAIT (R114): OFF[5:2] = n from 1 to 15, OFF[31:6] zero. -/
def MemOps.wfTokens (o : MemOps) : Bool :=
  decide (o.off.toNat < 64) && decide (1 ≤ o.off.toNat / 4)

/-- BOQPUSH (R115): OFF[1:0] target, OFF[7:4] COND, the rest zero. -/
def MemOps.wfOutcome (o : MemOps) : Bool :=
  decide (o.off.toNat < 256) && o.off.toNat / 4 % 4 == 0 && decide (o.off.toNat / 16 ≤ 9)

/-! ### Engine words -/

/-- The type combinations of MMA (R163). -/
def productOk (ta tb : BitVec 4) : Bool :=
  (ta == 11 && tb == 11) || (ta == 10 && tb == 10) || (isQ ta && isQ tb) || (isX ta && isX tb)

/-- MMA's types and geometries (R163): BKA, BKB, SGA and SGB are for MXINT only. -/
def EngOps.wfProduct (o : EngOps) : Bool :=
  productOk o.ta o.tb && (isX o.ta || (o.bka == 0 && o.bkb == 0 && o.sga == 0 && o.sgb == 0))

/-- MMAC's types (R165): MXINT4 both, not N4 by N4 (R68). -/
def EngOps.wfCount (o : EngOps) : Bool :=
  o.ta == 13 && o.tb == 13 && !(o.sga == 1 && o.sgb == 1)

/-- The IMM and SCO rules of XCOPY, XGATH, XSCAT and XFILL (R187). -/
def EngOps.wfTransfer (o : EngOps) (fill : Bool) : Bool :=
  let kd := o.imm.toNat % 4
  let ks := o.imm.toNat / 4 % 4
  (kd == 1 || kd == 2) && (if fill then ks == 0 else ks == 1 || ks == 2) && o.imm.toNat / 2048 % 16 == 0 &&
  decide (o.sco.toNat ≤ 4) && (kd == 1 || o.sco == 0)

/-- ACCW (R202): IMM[4:0] n, IMM[6:5] op; TC S32, FP32, BF16 or FP16; max and min on 32-bit words only. -/
def EngOps.wfAccumulate (o : EngOps) : Bool :=
  decide (o.imm.toNat < 128) && (o.tc == 6 || o.tc == 12 || o.tc == 11 || o.tc == 10) &&
  (decide (o.imm.toNat / 32 ≤ 1) || o.tc == 6 || o.tc == 12)

/-- IMM of the words of MAJ 0xAB (R204): IMM[15] RS, IMM[1:0] the output kind, virtual only where allowed. -/
def EngOps.wfOutKind (o : EngOps) (virtualToo : Bool) : Bool :=
  let k := o.imm.toNat % 32768
  k == 2 || (virtualToo && k == 1)

/-- SORTK, ECHOOSE (three floating types) and LATTN (E4M3, E5M2, FP16, BF16) (R205, R206, R208). -/
def EngOps.wfMemSide (o : EngOps) (rank virtualToo : Bool) : Bool :=
  (if rank then isF o.ta else isQ o.ta || o.ta == 10 || o.ta == 11) && o.wfOutKind virtualToo

/-! ### Records (R88 to R91) -/

def Descriptor.zero : Descriptor := ⟨0, 0, 0, 0, 0, 0, 0⟩

/-- The kind rules of R89: kind 0 with a zero descriptor and SLOT bit; kind 3 with BASE 0 and ULOG 9. -/
def operandOk (k : BitVec 2) (d : Descriptor) (slot : Bool) : Bool :=
  if k == 0 then d == Descriptor.zero && !slot
  else if k == 3 then d.base == 0 && d.ulog == 9 else true

def Descriptor.noStrides (d : Descriptor) : Bool := d.s0 == 0 && d.s1 == 0 && d.s2 == 0 && d.s3 == 0

/-- Checks common to every record (R88, R91): operand kinds, and STAMP zero when M = 0. -/
def RecOps.common (r : RecOps) (h : Header) : Bool :=
  operandOk r.ka r.da (r.slot.getLsbD 0) && operandOk r.kb r.db (r.slot.getLsbD 1) &&
  operandOk r.kc r.dc (r.slot.getLsbD 2) && (h.m == 1 || r.stamp == 0)

/-- The type fields are all zero. -/
def RecOps.noTypes (r : RecOps) : Bool :=
  r.ta == 0 && r.tb == 0 && r.tc == 0 && r.fts == 0 && r.bka == 0 && r.bkb == 0 && r.sga == 0 && r.sgb == 0

/-- Matrix records (R175). -/
def RecOps.wfMatrix (r : RecOps) (counting : Bool) : Bool :=
  r.ka == 2 && r.kb == 2 && r.kc == 0 && r.tc == 0 && r.xg == 0 && r.ext == 0 && decide (r.opx.toNat ≤ 11) &&
  (!counting || r.opx == 0) &&
  (if r.fts == 1 then r.ta == 0 && r.tb == 0 && r.bka == 0 && r.bkb == 0 && r.sga == 0 && r.sgb == 0
   else if counting then r.ta == 13 && r.tb == 13 && !(r.sga == 1 && r.sgb == 1)
   else productOk r.ta r.tb && (isX r.ta || (r.bka == 0 && r.bkb == 0 && r.sga == 0 && r.sgb == 0)))

/-- A kind of memory: 1 or 2. -/
def memKind (k : BitVec 2) : Bool := k == 1 || k == 2

/-- OPX and EXT of the transfer records (R189): CR, TE, TRG, RS, SCO in OPX[10:0]; EXT is BAR when CR = 1. -/
def RecOps.transferOpx (r : RecOps) : Bool :=
  let sco := r.opx.toNat / 256
  r.noTypes && decide (sco ≤ 4) && (r.kc == 1 || sco == 0) && (r.opx.toNat % 2 == 1 || r.ext == 0)

def RecOps.wfCopy (r : RecOps) : Bool :=
  r.transferOpx && memKind r.ka && r.kb == 0 && memKind r.kc && r.da.ulog == r.dc.ulog && r.xg == 0

def RecOps.wfGather (r : RecOps) : Bool :=
  r.transferOpx && memKind r.ka && r.da.noStrides && memKind r.kb && r.db.ulog == 2 && memKind r.kc &&
  r.da.ulog == r.dc.ulog && r.xg == 0

def RecOps.wfScatter (r : RecOps) : Bool :=
  r.transferOpx && memKind r.ka && memKind r.kb && r.db.ulog == 2 && memKind r.kc && r.dc.noStrides &&
  r.da.ulog == r.dc.ulog && r.xg == 0

def RecOps.wfFill (r : RecOps) : Bool :=
  r.transferOpx && r.ka == 0 && r.kb == 0 && memKind r.kc

/-- PUBLISH records (R193): USH in OPX[6:2], RS in OPX[7]. -/
def RecOps.wfPublish (r : RecOps) : Bool :=
  let ush := r.opx.toNat / 4 % 32
  r.noTypes && memKind r.ka && decide (9 ≤ r.da.ulog.toNat) && r.kb == 2 && r.db.ulog == 6 && r.kc == 0 &&
  decide (ush ≤ 9) && decide (r.da.ulog.toNat + ush ≤ 23) && r.opx.toNat % 4 == 0 && decide (r.opx.toNat < 256) &&
  r.ext == 0 && r.xg == 0

/-- COLL records (R201): LM in OPX[12:9] at most 9, OPX[6:0] reserved. -/
def RecOps.wfColl (r : RecOps) : Bool :=
  r.noTypes && r.ka == 2 && r.kc == 2 && r.kb == 0 && r.da.ulog == r.dc.ulog && decide (9 ≤ r.da.ulog.toNat) &&
  decide (r.da.ulog.toNat ≤ 14) && r.opx.toNat % 128 == 0 && decide (r.opx.toNat / 512 % 16 ≤ 9)

/-- The memory-side record rules of R204: only RS in OPX[7]; TB, TC, FTS, geometries and EXT zero. -/
def RecOps.memSide (r : RecOps) : Bool :=
  r.tb == 0 && r.tc == 0 && r.fts == 0 && r.bka == 0 && r.bkb == 0 && r.sga == 0 && r.sgb == 0 && r.ext == 0 &&
  (r.opx == 0 || r.opx == 128)

def RecOps.wfSortk (r : RecOps) : Bool :=
  r.memSide && isF r.ta && r.ka == 1 && r.kb == 0 && memKind r.kc

def RecOps.wfLattn (r : RecOps) : Bool :=
  r.memSide && (isQ r.ta || r.ta == 10 || r.ta == 11) && r.ka == 2 && r.kb == 1 && r.db.ulog == 6 && r.kc == 2 && r.xg == 0

/-- The VEC fields that an issue of a vector record performs, with the registers left for the operands (R154). -/
def RecOps.vecOps (r : RecOps) : VecOps :=
  { vd := 0, va := 0, vb := 0, vc := 0, et := r.tc, et2 := r.ta, rmo := r.opx.extractLsb' 2 3,
    sat := r.opx.extractLsb' 5 1, sgn := r.opx.extractLsb' 6 1, ga := r.xg,
    imm := (r.opx.extractLsb' 7 16).zeroExtend 32 }

/-- The field rules common to the vector records (R154). -/
def RecOps.vector (r : RecOps) : Bool :=
  r.tb == 0 && r.fts == 0 && r.bka == 0 && r.bkb == 0 && r.sga == 0 && r.sgb == 0 && r.ext == 0 &&
  r.opx.toNat % 4 == 0 && decide (r.opx.toNat < 8388608)

/-- Kinds of operand B of a two-source vector record: none with SB or one source, a register otherwise (R154). -/
def RecOps.bKind (r : RecOps) (one : Bool) : Bool :=
  if one || r.vecOps.imm == 0x8000 then r.kb == 0 else r.kb == 3

def RecOps.wfVecArith (r : RecOps) (fn : BitVec 8) : Bool :=
  decide (fn.toNat ≤ 8) && r.vector && r.ka == 3 && r.kc == 3 && r.bKind (decide (7 ≤ fn.toNat)) &&
  r.vecOps.wfArith (fn == 3 || fn == 4) (decide (7 ≤ fn.toNat))

def RecOps.wfVecLogic (r : RecOps) (fn : BitVec 8) : Bool :=
  decide (fn.toNat ≤ 6) && r.vector && r.ka == 3 && r.kc == 3 && r.bKind (fn == 3) && r.vecOps.wfLogic (fn == 3)

def RecOps.wfVecConvert (r : RecOps) (fn : BitVec 8) : Bool :=
  let o := r.vecOps
  r.vector && r.ka == 3 && r.kc == 3 && r.kb == 0 && o.imm == 0 &&
  (match fn.toNat with
   | 0 => o.wfConvert
   | 1 => o.rmo == 0 && o.sat == 0 && o.sgn == 0 && o.ga == 0 && o.wfWiden
   | 2 => o.rmo == 0 && o.sgn == 0 && o.ga == 0 && o.wfNarrow
   | 3 => o.rmo == 0 && o.sat == 0 && o.sgn == 0 && o.ga == 0 && o.wfSat
   | _ => false)

def RecOps.wfVecDot (r : RecOps) (fn : BitVec 8) : Bool :=
  let o := r.vecOps
  r.vector && r.ka == 3 && r.kc == 3 && o.ga == 0 &&
  (match fn.toNat with
   | 0 => r.kb == 3 && o.imm == 0 && o.wfDot
   | 1 | 2 => r.kb == 0 && o.et2 == 0 && o.sgn == 0 && o.wfReduce
   | _ => false)

def RecOps.wfVecMemory (r : RecOps) (fn : BitVec 8) : Bool :=
  let vmem (k : BitVec 2) (d : Descriptor) := k == 1 && decide (6 ≤ d.ulog.toNat) && decide (d.ulog.toNat ≤ 9)
  let xmem (k : BitVec 2) (d : Descriptor) := k == 2 && d.ulog == 9
  r.vector && r.kb == 0 && r.ta == 0 && r.xg == 0 && r.opx == 0 &&
  (match fn.toNat with
   | 0 => vmem r.ka r.da && r.kc == 3
   | 1 => r.ka == 3 && vmem r.kc r.dc
   | 2 => xmem r.ka r.da && r.kc == 3
   | 3 => r.ka == 3 && xmem r.kc r.dc
   | _ => false)

def RecOps.wfVecSpecial (r : RecOps) (fn : BitVec 8) : Bool :=
  let o := r.vecOps
  decide (fn.toNat ≤ 5) && r.vector && r.ka == 3 && r.kc == 3 && r.kb == 0 && isF o.et && o.et2 == 0 &&
  decide (o.rmo.toNat ≤ 4) && o.sat == 0 && o.sgn == 0 && o.ga == 0 && o.imm == 0

def RecOps.wfVecMerge (r : RecOps) : Bool :=
  r.vector && r.ka == 3 && r.kb == 3 && r.kc == 3 && r.tc == 12 && r.ta == 0 && r.xg == 0 && r.opx == 0

/-- Well-formed instructions: exactly those that pass row 4 of R86. Events carry no encoding. (DEDUCED, log 37) -/
def Instr.wf : Instr → Bool
  | .add h o => h.wf && o.cg == 0 && o.cond == 0
  | .sub h o => h.wf && o.cg == 0 && o.cond == 0
  | .mul h o => h.wf && o.cg == 0 && o.cond == 0
  | .mulh h o => h.wf && o.cg == 0 && o.cond == 0
  | .mulhn h o => h.wf && o.cg == 0 && o.cond == 0
  | .div h o => h.wf && o.cg == 0 && o.cond == 0
  | .divn h o => h.wf && o.cg == 0 && o.cond == 0
  | .rem h o => h.wf && o.cg == 0 && o.cond == 0
  | .remn h o => h.wf && o.cg == 0 && o.cond == 0
  | .neg h o => h.wf && o.cg == 0 && o.cond == 0 && o.bg == 0
  | .min h o => h.wf && o.cg == 0 && o.cond == 0
  | .max h o => h.wf && o.cg == 0 && o.cond == 0
  | .minn h o => h.wf && o.cg == 0 && o.cond == 0
  | .maxn h o => h.wf && o.cg == 0 && o.cond == 0
  | .and h o => h.wf && o.cg == 0 && o.cond == 0
  | .or h o => h.wf && o.cg == 0 && o.cond == 0
  | .xor h o => h.wf && o.cg == 0 && o.cond == 0
  | .andn h o => h.wf && o.cg == 0 && o.cond == 0
  | .not h o => h.wf && o.cg == 0 && o.cond == 0 && o.bg == 0
  | .shl h o => h.wf && o.cg == 0 && o.cond == 0
  | .shr h o => h.wf && o.cg == 0 && o.cond == 0
  | .sra h o => h.wf && o.cg == 0 && o.cond == 0
  | .rol h o => h.wf && o.cg == 0 && o.cond == 0
  | .clz h o => h.wf && o.cg == 0 && o.cond == 0 && o.bg == 0
  | .ctz h o => h.wf && o.cg == 0 && o.cond == 0 && o.bg == 0
  | .popc h o => h.wf && o.cg == 0 && o.cond == 0 && o.bg == 0
  | .sext h o => h.wf && o.cg == 0 && o.cond == 0
  | .zext h o => h.wf && o.cg == 0 && o.cond == 0
  | .andImm h _ => h.wf
  | .orImm h _ => h.wf
  | .xorImm h _ => h.wf
  | .andnImm h _ => h.wf
  | .shlImm h _ => h.wf
  | .shrImm h _ => h.wf
  | .sraImm h _ => h.wf
  | .rolImm h _ => h.wf
  | .sextImm h _ => h.wf
  | .zextImm h _ => h.wf
  | .addi h _ => h.wf
  | .li h o => h.wf && o.ag == 0
  | .lea h o => h.wf && o.ag == 0
  | .cset h o => h.wf && o.cg == 0 && decide (o.cond.toNat ≤ 9)
  | .sel h o => h.wf && o.cond == 0
  | .j h o => h.wf && o.dg == 0 && o.ag == 0 && o.bg == 0 && o.cond == 0 && o.imm == 0
  | .b h o => h.wf && o.dg == 0 && o.imm == 0 && decide (o.cond.toNat ≤ 9)
  | .brq h o => h.wf && o.dg == 0 && o.ag == 0 && o.bg == 0 && o.imm == 0 && decide (o.cond.toNat ≤ 1)
  | .call h o => h.wf && o.ag == 0 && o.bg == 0 && o.cond == 0 && o.imm == 0
  | .loop h o => h.wf && o.ag == 0 && o.bg == 0 && o.cond == 0 && o.imm == 0
  | .jr h o => h.wf && o.dg == 0 && o.bg == 0 && o.cond == 0 && o.imm == 0 && o.disp == 0
  | .callr h o => h.wf && o.bg == 0 && o.cond == 0 && o.imm == 0 && o.disp == 0
  | .ret h o => h.wf && o.dg == 0 && o.bg == 0 && o.cond == 0 && o.imm == 0 && o.disp == 0
  | .msave h o => h.wf && o.bg == 0 && o.cg == 0 && o.cond == 0 && decide (2 ≤ o.dg.toNat) && decide (o.dg.toNat ≤ 9) && decide (o.ag.toNat ≤ 9)
  | .mrest h o => h.wf && o.bg == 0 && o.cg == 0 && o.cond == 0 && decide (o.dg.toNat ≤ 1) && decide (o.ag.toNat ≤ 9)
  | .mand h o => h.wf && o.cg == 0 && o.cond == 0 && decide (o.dg.toNat ≤ 9) && decide (o.ag.toNat ≤ 9) && decide (o.bg.toNat ≤ 9)
  | .mor h o => h.wf && o.cg == 0 && o.cond == 0 && decide (o.dg.toNat ≤ 9) && decide (o.ag.toNat ≤ 9) && decide (o.bg.toNat ≤ 9)
  | .mxor h o => h.wf && o.cg == 0 && o.cond == 0 && decide (o.dg.toNat ≤ 9) && decide (o.ag.toNat ≤ 9) && decide (o.bg.toNat ≤ 9)
  | .mnot h o => h.wf && o.bg == 0 && o.cg == 0 && o.cond == 0 && decide (o.dg.toNat ≤ 9) && decide (o.ag.toNat ≤ 9)
  | .mset h o => h.wf && o.ag == 0 && o.bg == 0 && o.cond == 0 && decide (o.dg.toNat ≤ 9)
  | .mcnt h o => h.wf && o.dg == 0 && o.bg == 0 && o.cond == 0 && decide (o.ag.toNat ≤ 9)
  | .vadd h o => h.wf && o.wfArith false false
  | .vsub h o => h.wf && o.wfArith false false
  | .vmul h o => h.wf && o.wfArith false false
  | .vfma h o => h.wf && o.wfArith true false
  | .vfms h o => h.wf && o.wfArith true false
  | .vmin h o => h.wf && o.wfArith false false
  | .vmax h o => h.wf && o.wfArith false false
  | .vabs h o => h.wf && o.wfArith false true
  | .vneg h o => h.wf && o.wfArith false true
  | .vand h o => h.wf && o.wfLogic false
  | .vor h o => h.wf && o.wfLogic false
  | .vxor h o => h.wf && o.wfLogic false
  | .vnot h o => h.wf && o.wfLogic true
  | .vshl h o => h.wf && o.wfLogic false
  | .vshr h o => h.wf && o.wfLogic false
  | .vsra h o => h.wf && o.wfLogic false
  | .vcmp h o => h.wf && o.vd == 0 && o.vc == 0 && o.et2 == 0 && o.rmo == 0 && o.sat == 0 && o.sgn == 0 && o.wfCompare
  | .vsel h o => h.wf && o.vc == 0 && o.et2 == 0 && o.rmo == 0 && o.sat == 0 && o.sgn == 0 && o.ga == 0 && o.imm == 0
  | .vcvt h o => h.wf && o.vb == 0 && o.vc == 0 && o.imm == 0 && o.wfConvert
  | .vwiden h o => h.wf && o.vb == 0 && o.vc == 0 && o.imm == 0 && o.rmo == 0 && o.sat == 0 && o.sgn == 0 && o.ga == 0 && o.wfWiden
  | .vnarrow h o => h.wf && o.vb == 0 && o.vc == 0 && o.imm == 0 && o.rmo == 0 && o.sgn == 0 && o.ga == 0 && o.wfNarrow
  | .vsat h o => h.wf && o.vb == 0 && o.vc == 0 && o.imm == 0 && o.rmo == 0 && o.sat == 0 && o.sgn == 0 && o.ga == 0 && o.wfSat
  | .vclamp h o => h.wf && o.et2 == 0 && o.rmo == 0 && o.sat == 0 && o.sgn == 0 && o.ga == 0 && o.imm == 0 && (isI o.et || isF o.et)
  | .vdot4 h o => h.wf && o.ga == 0 && o.imm == 0 && o.wfDot
  | .vred h o => h.wf && o.vb == 0 && o.vc == 0 && o.ga == 0 && o.et2 == 0 && o.sgn == 0 && o.wfReduce
  | .vscan h o => h.wf && o.vb == 0 && o.vc == 0 && o.ga == 0 && o.et2 == 0 && o.sgn == 0 && o.wfReduce
  | .vperm h o => h.wf && o.vc == 0 && o.ga == 0 && o.et2 == 0 && o.rmo == 0 && o.sat == 0 && o.sgn == 0 && o.imm == 0
  | .vshuf h o => h.wf && o.vc == 0 && o.ga == 0 && o.et2 == 0 && o.rmo == 0 && o.sat == 0 && o.sgn == 0 && decide (o.imm.toNat ≤ 3)
  | .vbcast h o => h.wf && o.vb == 0 && o.vc == 0 && o.et2 == 0 && o.rmo == 0 && o.sat == 0 && o.sgn == 0 && o.wfBcast
  | .vslide h o => h.wf && o.vc == 0 && o.ga == 0 && o.et2 == 0 && o.rmo == 0 && o.sat == 0 && o.sgn == 0 && decide (o.imm.toNat ≤ lanes o.et)
  | .viota h o => h.wf && o.va == 0 && o.vb == 0 && o.vc == 0 && o.ga == 0 && o.et2 == 0 && o.rmo == 0 && o.sat == 0 && o.sgn == 0 && isI o.et
  | .vcomp h o => h.wf && o.vb == 0 && o.vc == 0 && o.ga == 0 && o.et2 == 0 && o.rmo == 0 && o.sat == 0 && o.sgn == 0 && o.imm == 0
  | .vexpd h o => h.wf && o.vb == 0 && o.vc == 0 && o.ga == 0 && o.et2 == 0 && o.rmo == 0 && o.sat == 0 && o.sgn == 0 && o.imm == 0
  | .vld h o => h.wf && o.va == 0 && o.vb == 0 && o.vc == 0 && o.et2 == 0 && o.rmo == 0 && o.sat == 0 && o.sgn == 0
  | .vst h o => h.wf && o.vd == 0 && o.vb == 0 && o.vc == 0 && o.et2 == 0 && o.rmo == 0 && o.sat == 0 && o.sgn == 0
  | .vldx h o => h.wf && o.va == 0 && o.vb == 0 && o.vc == 0 && o.et2 == 0 && o.rmo == 0 && o.sat == 0 && o.sgn == 0
  | .vstx h o => h.wf && o.vd == 0 && o.vb == 0 && o.vc == 0 && o.et2 == 0 && o.rmo == 0 && o.sat == 0 && o.sgn == 0
  | .vgath h o => h.wf && o.va == 0 && o.vc == 0 && o.et2 == 0 && o.rmo == 0 && o.sat == 0 && o.sgn == 0 && o.wfIndexed
  | .vscat h o => h.wf && o.vd == 0 && o.vc == 0 && o.et2 == 0 && o.rmo == 0 && o.sat == 0 && o.sgn == 0 && o.wfIndexed
  | .vqpop h o => h.wf && o.va == 0 && o.vb == 0 && o.vc == 0 && o.ga == 0 && o.et2 == 0 && o.rmo == 0 && o.sat == 0 && o.sgn == 0 && o.imm == 0
  | .vqpush h o => h.wf && o.vd == 0 && o.vb == 0 && o.vc == 0 && o.ga == 0 && o.et2 == 0 && o.rmo == 0 && o.sat == 0 && o.sgn == 0 && o.imm == 0
  | .vexp2 h o => h.wf && o.vb == 0 && o.vc == 0 && o.ga == 0 && o.et2 == 0 && o.sat == 0 && o.sgn == 0 && o.imm == 0 && isF o.et && decide (o.rmo.toNat ≤ 4)
  | .vlog2 h o => h.wf && o.vb == 0 && o.vc == 0 && o.ga == 0 && o.et2 == 0 && o.sat == 0 && o.sgn == 0 && o.imm == 0 && isF o.et && decide (o.rmo.toNat ≤ 4)
  | .vrcp h o => h.wf && o.vb == 0 && o.vc == 0 && o.ga == 0 && o.et2 == 0 && o.sat == 0 && o.sgn == 0 && o.imm == 0 && isF o.et && decide (o.rmo.toNat ≤ 4)
  | .vrsq h o => h.wf && o.vb == 0 && o.vc == 0 && o.ga == 0 && o.et2 == 0 && o.sat == 0 && o.sgn == 0 && o.imm == 0 && isF o.et && decide (o.rmo.toNat ≤ 4)
  | .vtanh h o => h.wf && o.vb == 0 && o.vc == 0 && o.ga == 0 && o.et2 == 0 && o.sat == 0 && o.sgn == 0 && o.imm == 0 && isF o.et && decide (o.rmo.toNat ≤ 4)
  | .vsigm h o => h.wf && o.vb == 0 && o.vc == 0 && o.ga == 0 && o.et2 == 0 && o.sat == 0 && o.sgn == 0 && o.imm == 0 && isF o.et && decide (o.rmo.toNat ≤ 4)
  | .vmerge3 h o => h.wf && o.vc == 0 && o.ga == 0 && o.et2 == 0 && o.rmo == 0 && o.sat == 0 && o.sgn == 0 && o.imm == 0 && o.wfMerge
  | .vdefer h o => h.wf && o.vd == 0 && o.vb == 0 && o.vc == 0 && o.ga == 0 && o.et2 == 0 && o.rmo == 0 && o.sat == 0 && o.sgn == 0 && o.imm == 0
  | .vdrain h o => h.wf && o.va == 0 && o.vb == 0 && o.vc == 0 && o.et2 == 0 && o.rmo == 0 && o.sat == 0 && o.sgn == 0 && o.imm == 0
  | .vdqcnt h o => h.wf && o.vd == 0 && o.va == 0 && o.vb == 0 && o.vc == 0 && o.et == 0 && o.et2 == 0 && o.rmo == 0 && o.sat == 0 && o.sgn == 0 && o.imm == 0
  | .loopp h o => h.wf && o.cond == 0 && o.bg == 0 && h.msrc == 0 && o.wfStages false
  | .brp h o => h.wf && o.cond == 0 && o.bg == 0 && o.ag == 0 && h.msrc == 0 && o.wfStages true
  | .vmov h o => h.wf && o.vb == 0 && o.vc == 0 && o.ga == 0 && o.et2 == 0 && o.rmo == 0 && o.sat == 0 && o.sgn == 0 && o.imm == 0
  | .vzero h o => h.wf && o.va == 0 && o.vb == 0 && o.vc == 0 && o.ga == 0 && o.et2 == 0 && o.rmo == 0 && o.sat == 0 && o.sgn == 0 && o.imm == 0
  | .ld h o => h.wf && o.bg == 0 && o.cg == 0 && o.aop == 0 && o.ord == 0 && decide (o.sco.toNat ≤ 4)
  | .st h o => h.wf && o.dg == 0 && o.cg == 0 && o.sgn == 0 && o.aop == 0 && o.ord == 0 && decide (o.sco.toNat ≤ 4)
  | .ldx h o => h.wf && o.bg == 0 && o.cg == 0 && o.aop == 0 && o.ord == 0 && o.sco == 0
  | .stx h o => h.wf && o.dg == 0 && o.cg == 0 && o.sgn == 0 && o.aop == 0 && o.ord == 0 && o.sco == 0
  | .lda h o => h.wf && o.bg == 0 && o.cg == 0 && o.aop == 0 && o.ord == 0 && decide (o.sco.toNat ≤ 4)
  | .stl h o => h.wf && o.dg == 0 && o.cg == 0 && o.sgn == 0 && o.aop == 0 && o.ord == 0 && decide (o.sco.toNat ≤ 4)
  | .amo h o => h.wf && o.cg == 0 && decide (o.sco.toNat ≤ 4) && decide (o.aop.toNat ≤ 8) && decide (2 ≤ o.sz.toNat)
  | .cas h o => h.wf && o.aop == 0 && decide (o.sco.toNat ≤ 4) && decide (2 ≤ o.sz.toNat)
  | .fence h o => h.wf && o.dg == 0 && o.ag == 0 && o.bg == 0 && o.cg == 0 && o.sz == 0 && o.sgn == 0 && o.off == 0 && o.aop == 0 && decide (o.sco.toNat ≤ 4) && o.ord != 0
  | .mark h o => h.wf && o.dg == 0 && o.ag == 0 && o.bg == 0 && o.cg == 0 && o.sz == 0 && o.sgn == 0 && o.off == 0 && o.aop == 0 && o.ord == 0 && decide (o.sco.toNat ≤ 4)
  | .tksig h o => h.wf && o.dg == 0 && o.ag == 0 && o.bg == 0 && o.cg == 0 && o.sco == 0 && o.sz == 0 && o.sgn == 0 && o.ord == 0 && o.aop == 0 && o.wfTokens
  | .tkwait h o => h.wf && o.dg == 0 && o.ag == 0 && o.bg == 0 && o.cg == 0 && o.sco == 0 && o.sz == 0 && o.sgn == 0 && o.ord == 0 && o.aop == 0 && o.wfTokens
  | .boqpush h o => h.wf && o.dg == 0 && o.cg == 0 && o.sco == 0 && o.sz == 0 && o.sgn == 0 && o.ord == 0 && o.aop == 0 && o.wfOutcome
  | .barv h o => h.wf && o.ag == 0 && o.bg == 0 && o.cg == 0 && o.sco == 0 && o.sz == 0 && o.sgn == 0 && o.ord == 0 && o.aop == 0 && decide (o.off.toNat < 32)
  | .bwait h o => h.wf && o.dg == 0 && o.bg == 0 && o.cg == 0 && o.sco == 0 && o.sz == 0 && o.sgn == 0 && o.ord == 0 && o.aop == 0 && decide (o.off.toNat < 32)
  | .tbinit h o => h.wf && o.dg == 0 && o.cg == 0 && o.sco == 0 && o.sz == 0 && o.sgn == 0 && o.ord == 0 && o.aop == 0
  | .tbarv h o => h.wf && o.sco == 0 && o.sz == 0 && o.sgn == 0 && o.ord == 0 && o.aop == 0
  | .tbwait h o => h.wf && o.dg == 0 && o.cg == 0 && o.sco == 0 && o.sz == 0 && o.sgn == 0 && o.ord == 0 && o.aop == 0
  | .leeway h o => h.wf && o.ag == 0 && o.bg == 0 && o.cg == 0 && o.off == 0 && o.sco == 0 && o.sz == 0 && o.sgn == 0 && o.ord == 0 && o.aop == 0
  | .remq h o => h.wf && o.dg == 0 && o.cg == 0 && o.sco == 0 && o.sz == 0 && o.sgn == 0 && o.ord == 0 && o.aop == 0
  | .notify h o => h.wf && o.dg == 0 && o.ag == 0 && o.bg == 0 && o.cg == 0 && o.sco == 0 && o.sz == 0 && o.sgn == 0 && o.ord == 0 && o.aop == 0 && decide (o.off.toNat ≤ 4)
  | .waitev h o => h.wf && o.ag == 0 && o.bg == 0 && o.cg == 0 && o.off == 0 && o.sco == 0 && o.sz == 0 && o.sgn == 0 && o.ord == 0 && o.aop == 0
  | .mma h o => h.wf && o.imm == 0 && o.sco == 0 && o.tc == 0 && o.gc == 0 && o.vc == 0 && o.vb == 0 && o.va == 0 && decide (o.tile.toNat ≤ 11) && o.wfProduct
  | .mmac h o => h.wf && o.imm == 0 && o.sco == 0 && o.tile == 0 && o.tc == 0 && o.gc == 0 && o.vc == 0 && o.vb == 0 && o.va == 0 && o.wfCount
  | .cmerge h o => h.wf && o.imm == 0 && o.sco == 0 && o.tile == 0 && o.bkb == 0 && o.bka == 0 && o.sgb == 0 && o.sga == 0 && o.tc == 0 && o.tb == 0 && o.ta == 0 && o.gc == 0 && o.gb == 0 && o.vc == 0 && o.vb == 0 && o.va == 0
  | .cspill h o => h.wf && o.imm == 0 && o.sco == 0 && o.tile == 0 && o.bkb == 0 && o.bka == 0 && o.sgb == 0 && o.sga == 0 && o.tc == 0 && o.tb == 0 && o.ta == 0 && o.gc == 0 && o.gb == 0 && o.vc == 0 && o.vb == 0 && o.va == 0
  | .cdrain h o => h.wf && o.imm == 0 && o.sco == 0 && o.tile == 0 && o.bkb == 0 && o.bka == 0 && o.sgb == 0 && o.sga == 0 && o.tc == 0 && o.tb == 0 && o.ta == 0 && o.gc == 0 && o.gb == 0 && o.ga == 0 && o.vc == 0 && o.vb == 0 && o.va == 0
  | .acfg h o => h.wf && o.sco == 0 && o.tile == 0 && o.bkb == 0 && o.bka == 0 && o.sgb == 0 && o.sga == 0 && o.tc == 0 && o.tb == 0 && o.ta == 0 && o.gc == 0 && o.gb == 0 && o.ga == 0 && o.vc == 0 && o.vb == 0 && o.va == 0 && decide (o.imm.toNat < 2048) && decide (o.imm.toNat % 4 ≤ 2)
  | .azero h o => h.wf && o.sco == 0 && o.bkb == 0 && o.bka == 0 && o.sgb == 0 && o.sga == 0 && o.tc == 0 && o.tb == 0 && o.ta == 0 && o.gc == 0 && o.gb == 0 && o.ga == 0 && o.vc == 0 && o.vb == 0 && o.va == 0 && decide (o.tile.toNat ≤ 11) && decide (o.imm.toNat ≤ 1) && (o.imm == 0 || o.tile == 0)
  | .aload h o => h.wf && o.imm == 0 && o.sco == 0 && o.bkb == 0 && o.bka == 0 && o.sgb == 0 && o.sga == 0 && o.tc == 0 && o.tb == 0 && o.gc == 0 && o.gb == 0 && o.vc == 0 && o.vb == 0 && o.va == 0 && decide (o.tile.toNat ≤ 11) && (o.ta == 6 || o.ta == 11 || o.ta == 12)
  | .adrain h o => h.wf && o.sco == 0 && o.bkb == 0 && o.bka == 0 && o.sgb == 0 && o.sga == 0 && o.tb == 0 && o.ta == 0 && o.gc == 0 && o.gb == 0 && o.vc == 0 && o.vb == 0 && o.va == 0 && decide (o.tile.toNat ≤ 11) && (o.tc == 6 || o.tc == 11 || o.tc == 12) && decide (o.imm.toNat ≤ 1)
  | .adrainp h o => h.wf && o.sco == 0 && o.bkb == 0 && o.bka == 0 && o.sgb == 0 && o.sga == 0 && o.tc == 0 && o.tb == 0 && o.ta == 0 && o.gc == 0 && o.ga == 0 && o.vc == 0 && o.vb == 0 && o.va == 0 && decide (o.tile.toNat ≤ 11) && decide (o.imm.toNat < 128) && decide (o.imm.toNat % 16 ≤ 11)
  | .aarm h o => h.wf && o.imm == 0 && o.sco == 0 && o.bkb == 0 && o.bka == 0 && o.sgb == 0 && o.sga == 0 && o.tc == 0 && o.tb == 0 && o.ta == 0 && o.gc == 0 && o.vc == 0 && o.vb == 0 && o.va == 0 && decide (o.tile.toNat ≤ 11)
  | .fmtset h o => h.wf && o.sco == 0 && o.tile == 0 && o.bkb == 0 && o.bka == 0 && o.sgb == 0 && o.sga == 0 && o.tc == 0 && o.tb == 0 && o.ta == 0 && o.gc == 0 && o.ga == 0 && o.vc == 0 && o.vb == 0 && o.va == 0 && decide (o.imm.toNat < 16)
  | .fmtld h o => h.wf && o.imm == 0 && o.sco == 0 && o.tile == 0 && o.bkb == 0 && o.bka == 0 && o.sgb == 0 && o.sga == 0 && o.tc == 0 && o.tb == 0 && o.ta == 0 && o.gc == 0 && o.gb == 0 && o.vc == 0 && o.vb == 0 && o.va == 0
  | .mvec h o => h.wf && o.sco == 0 && o.bkb == 0 && o.bka == 0 && o.sgb == 0 && o.sga == 0 && o.tc == 0 && o.tb == 0 && o.ta == 0 && o.gc == 0 && o.gb == 0 && o.ga == 0 && o.vc == 0 && o.vb == 0 && decide (o.tile.toNat ≤ 11) && decide (o.imm.toNat < 32)
  | .mxt h o => h.wf && o.imm == 0 && o.sco == 0 && o.tile == 0 && o.bkb == 0 && o.bka == 0 && o.sgb == 0 && o.sga == 0 && o.tc == 0 && o.tb == 0 && o.gc == 0 && o.vc == 0 && o.vb == 0 && o.va == 0 && (o.ta != 0 && o.ta != 1 && o.ta != 13)
  | .xcopy h o => h.wf && o.tile == 0 && o.bkb == 0 && o.bka == 0 && o.sgb == 0 && o.sga == 0 && o.tc == 0 && o.tb == 0 && o.ta == 0 && o.vc == 0 && o.vb == 0 && o.va == 0 && o.wfTransfer false
  | .xgath h o => h.wf && o.tile == 0 && o.bkb == 0 && o.bka == 0 && o.sgb == 0 && o.sga == 0 && o.tc == 0 && o.tb == 0 && o.ta == 0 && o.vc == 0 && o.va == 0 && o.wfTransfer false
  | .xscat h o => h.wf && o.tile == 0 && o.bkb == 0 && o.bka == 0 && o.sgb == 0 && o.sga == 0 && o.tc == 0 && o.tb == 0 && o.ta == 0 && o.vc == 0 && o.va == 0 && o.wfTransfer false
  | .xfill h o => h.wf && o.tile == 0 && o.bkb == 0 && o.bka == 0 && o.sgb == 0 && o.sga == 0 && o.tc == 0 && o.tb == 0 && o.ta == 0 && o.vc == 0 && o.vb == 0 && o.va == 0 && o.wfTransfer true
  | .xpop h o => h.wf && o.sco == 0 && o.tile == 0 && o.bkb == 0 && o.bka == 0 && o.sgb == 0 && o.sga == 0 && o.tc == 0 && o.tb == 0 && o.ta == 0 && o.gc == 0 && o.gb == 0 && o.vc == 0 && o.vb == 0 && o.va == 0 && decide (o.imm.toNat ≤ 2)
  | .xstat h o => h.wf && o.sco == 0 && o.tile == 0 && o.bkb == 0 && o.bka == 0 && o.sgb == 0 && o.sga == 0 && o.tc == 0 && o.tb == 0 && o.ta == 0 && o.gc == 0 && o.gb == 0 && o.vc == 0 && o.vb == 0 && o.va == 0 && decide (o.imm.toNat ≤ 2)
  | .publish h o => h.wf && o.sco == 0 && o.tile == 0 && o.bkb == 0 && o.bka == 0 && o.sgb == 0 && o.sga == 0 && o.tc == 0 && o.tb == 0 && o.ta == 0 && o.gc == 0 && o.gb == 0 && o.vc == 0 && o.vb == 0 && o.va == 0 && (o.imm == 0 || o.imm == 0x8000)
  | .ntake h o => h.wf && o.imm == 0 && o.sco == 0 && o.tile == 0 && o.bkb == 0 && o.bka == 0 && o.sgb == 0 && o.sga == 0 && o.tc == 0 && o.tb == 0 && o.ta == 0 && o.ga == 0 && o.vc == 0 && o.vb == 0 && o.va == 0
  | .ndecl h o => h.wf && o.sco == 0 && o.tile == 0 && o.bkb == 0 && o.bka == 0 && o.sgb == 0 && o.sga == 0 && o.tc == 0 && o.tb == 0 && o.ta == 0 && o.ga == 0 && o.vc == 0 && o.vb == 0 && o.va == 0 && (o.imm == 0 || o.imm == 0x8000)
  | .nwait h o => h.wf && o.imm == 0 && o.sco == 0 && o.tile == 0 && o.bkb == 0 && o.bka == 0 && o.sgb == 0 && o.sga == 0 && o.tc == 0 && o.tb == 0 && o.ta == 0 && o.vc == 0 && o.vb == 0 && o.va == 0
  | .reclaim h o => h.wf && o.sco == 0 && o.tile == 0 && o.bkb == 0 && o.bka == 0 && o.sgb == 0 && o.sga == 0 && o.tc == 0 && o.tb == 0 && o.ta == 0 && o.gc == 0 && o.ga == 0 && o.vc == 0 && o.vb == 0 && o.va == 0 && (o.imm == 0 || o.imm == 0x8000)
  | .rextend h o => h.wf && o.sco == 0 && o.tile == 0 && o.bkb == 0 && o.bka == 0 && o.sgb == 0 && o.sga == 0 && o.tc == 0 && o.tb == 0 && o.ta == 0 && o.ga == 0 && o.vc == 0 && o.vb == 0 && o.va == 0 && (o.imm == 0 || o.imm == 0x8000)
  | .helmset h o => h.wf && o.imm == 0 && o.sco == 0 && o.tile == 0 && o.bkb == 0 && o.bka == 0 && o.sgb == 0 && o.sga == 0 && o.tc == 0 && o.tb == 0 && o.ta == 0 && o.gc == 0 && o.gb == 0 && o.vc == 0 && o.vb == 0 && o.va == 0
  | .pwin h o => h.wf && o.imm == 0 && o.sco == 0 && o.tile == 0 && o.bkb == 0 && o.bka == 0 && o.sgb == 0 && o.sga == 0 && o.tc == 0 && o.tb == 0 && o.ta == 0 && o.gc == 0 && o.gb == 0 && o.vc == 0 && o.vb == 0 && o.va == 0
  | .coll h o => h.wf && o.sco == 0 && o.tile == 0 && o.bkb == 0 && o.bka == 0 && o.sgb == 0 && o.sga == 0 && o.tc == 0 && o.tb == 0 && o.ta == 0 && o.vc == 0 && o.vb == 0 && o.va == 0 && (o.imm == 0 || o.imm == 0x8000)
  | .accw h o => h.wf && o.sco == 0 && o.tile == 0 && o.bkb == 0 && o.bka == 0 && o.sgb == 0 && o.sga == 0 && o.tb == 0 && o.ta == 0 && o.gc == 0 && o.vc == 0 && o.vb == 0 && o.va == 0 && o.wfAccumulate
  | .rdywait h o => h.wf && o.sco == 0 && o.tile == 0 && o.bkb == 0 && o.bka == 0 && o.sgb == 0 && o.sga == 0 && o.tc == 0 && o.tb == 0 && o.ta == 0 && o.gc == 0 && o.gb == 0 && o.ga == 0 && o.vc == 0 && o.vb == 0 && o.va == 0 && decide (o.imm.toNat < 32)
  | .sortk h o => h.wf && o.sco == 0 && o.tile == 0 && o.bkb == 0 && o.bka == 0 && o.sgb == 0 && o.sga == 0 && o.tc == 0 && o.tb == 0 && o.vc == 0 && o.vb == 0 && o.va == 0 && o.wfMemSide true true
  | .echoose h o => h.wf && o.sco == 0 && o.tile == 0 && o.bkb == 0 && o.bka == 0 && o.sgb == 0 && o.sga == 0 && o.tc == 0 && o.tb == 0 && o.vc == 0 && o.vb == 0 && o.va == 0 && o.wfMemSide true true
  | .rcsnap h o => h.wf && o.sco == 0 && o.tile == 0 && o.bkb == 0 && o.bka == 0 && o.sgb == 0 && o.sga == 0 && o.tc == 0 && o.tb == 0 && o.ta == 0 && o.gc == 0 && o.gb == 0 && o.vc == 0 && o.vb == 0 && o.va == 0 && o.wfOutKind true
  | .lattn h o => h.wf && o.sco == 0 && o.tile == 0 && o.bkb == 0 && o.bka == 0 && o.sgb == 0 && o.sga == 0 && o.tc == 0 && o.tb == 0 && o.vc == 0 && o.vb == 0 && o.va == 0 && o.wfMemSide false false
  | .chnew h o => h.wf && o.sco == 0 && o.tile == 0 && o.bkb == 0 && o.bka == 0 && o.sgb == 0 && o.sga == 0 && o.tc == 0 && o.tb == 0 && o.ta == 0 && o.vc == 0 && o.vb == 0 && o.va == 0
  | .chfork h o => h.wf && o.sco == 0 && o.tile == 0 && o.bkb == 0 && o.bka == 0 && o.sgb == 0 && o.sga == 0 && o.tc == 0 && o.tb == 0 && o.ta == 0 && o.vc == 0 && o.vb == 0 && o.va == 0
  | .chflat h o => h.wf && o.sco == 0 && o.tile == 0 && o.bkb == 0 && o.bka == 0 && o.sgb == 0 && o.sga == 0 && o.tc == 0 && o.tb == 0 && o.ta == 0 && o.gc == 0 && o.gb == 0 && o.vc == 0 && o.vb == 0 && o.va == 0 && (o.imm == 0 || o.imm == 0x8000)
  | .chappend h o => h.wf && o.sco == 0 && o.tile == 0 && o.bkb == 0 && o.bka == 0 && o.sgb == 0 && o.sga == 0 && o.tc == 0 && o.tb == 0 && o.ta == 0 && o.vc == 0 && o.vb == 0 && o.va == 0 && (o.imm == 1 || o.imm == 0x8000 || o.imm == 0x8001)
  | .chlook h o => h.wf && o.sco == 0 && o.tile == 0 && o.bkb == 0 && o.bka == 0 && o.sgb == 0 && o.sga == 0 && o.tc == 0 && o.tb == 0 && o.ta == 0 && o.vc == 0 && o.vb == 0 && o.va == 0 && (o.imm == 0 || o.imm == 0x8000)
  | .chtrunc h o => h.wf && o.sco == 0 && o.tile == 0 && o.bkb == 0 && o.bka == 0 && o.sgb == 0 && o.sga == 0 && o.tc == 0 && o.tb == 0 && o.ta == 0 && o.gb == 0 && o.vc == 0 && o.vb == 0 && o.va == 0 && (o.imm == 0 || o.imm == 0x8000)
  | .chseal h o => h.wf && o.sco == 0 && o.tile == 0 && o.bkb == 0 && o.bka == 0 && o.sgb == 0 && o.sga == 0 && o.tc == 0 && o.tb == 0 && o.ta == 0 && o.gc == 0 && o.gb == 0 && o.vc == 0 && o.vb == 0 && o.va == 0 && (o.imm &&& 0x7FFE == 0)
  | .chfree h o => h.wf && o.sco == 0 && o.tile == 0 && o.bkb == 0 && o.bka == 0 && o.sgb == 0 && o.sga == 0 && o.tc == 0 && o.tb == 0 && o.ta == 0 && o.gc == 0 && o.gb == 0 && o.vc == 0 && o.vb == 0 && o.va == 0 && (o.imm == 0 || o.imm == 0x8000)
  | .chgive h o => h.wf && o.sco == 0 && o.tile == 0 && o.bkb == 0 && o.bka == 0 && o.sgb == 0 && o.sga == 0 && o.tc == 0 && o.tb == 0 && o.ta == 0 && o.gb == 0 && o.vc == 0 && o.vb == 0 && o.va == 0 && (o.imm == 0 || o.imm == 0x8000)
  | .bmset h o => h.wf && o.sco == 0 && o.tile == 0 && o.bkb == 0 && o.bka == 0 && o.sgb == 0 && o.sga == 0 && o.tc == 0 && o.tb == 0 && o.ta == 0 && o.vc == 0 && o.vb == 0 && o.va == 0 && (o.imm == 0 || o.imm == 0x8000)
  | .bmperm h o => h.wf && o.sco == 0 && o.tile == 0 && o.bkb == 0 && o.bka == 0 && o.sgb == 0 && o.sga == 0 && o.tc == 0 && o.tb == 0 && o.ta == 0 && o.gc == 0 && o.vc == 0 && o.vb == 0 && o.va == 0 && (o.imm == 0 || o.imm == 0x8000)
  | .bmlook h o => h.wf && o.sco == 0 && o.tile == 0 && o.bkb == 0 && o.bka == 0 && o.sgb == 0 && o.sga == 0 && o.tc == 0 && o.tb == 0 && o.ta == 0 && o.vc == 0 && o.vb == 0 && o.va == 0 && (o.imm == 0 || o.imm == 0x8000)
  | .rkbegin h o => h.wf && o.sco == 0 && o.tile == 0 && o.bkb == 0 && o.bka == 0 && o.sgb == 0 && o.sga == 0 && o.tc == 0 && o.tb == 0 && o.ta == 0 && o.gb == 0 && o.vc == 0 && o.vb == 0 && o.va == 0 && decide (2 ≤ o.imm.toNat % 16) && decide (o.imm.toNat % 16 ≤ 8)
  | .acmp h o => h.wf && o.imm == 0 && o.sco == 0 && o.tile == 0 && o.bkb == 0 && o.bka == 0 && o.sgb == 0 && o.sga == 0 && o.tc == 0 && o.tb == 0 && o.ta == 0 && o.gc == 0 && o.gb == 0 && o.ga == 0 && o.vc == 0 && o.vb == 0 && o.va == 0
  | .rkcommit h o => h.wf && o.imm == 0 && o.sco == 0 && o.tile == 0 && o.bkb == 0 && o.bka == 0 && o.sgb == 0 && o.sga == 0 && o.tc == 0 && o.tb == 0 && o.ta == 0 && o.gc == 0 && o.gb == 0 && o.vc == 0 && o.vb == 0 && o.va == 0
  | .rkend h o => h.wf && o.imm == 0 && o.sco == 0 && o.tile == 0 && o.bkb == 0 && o.bka == 0 && o.sgb == 0 && o.sga == 0 && o.tc == 0 && o.tb == 0 && o.ta == 0 && o.gc == 0 && o.gb == 0 && o.ga == 0 && o.vc == 0 && o.vb == 0 && o.va == 0
  | .rkstat h o => h.wf && o.imm == 0 && o.sco == 0 && o.tile == 0 && o.bkb == 0 && o.bka == 0 && o.sgb == 0 && o.sga == 0 && o.tc == 0 && o.tb == 0 && o.ta == 0 && o.gc == 0 && o.gb == 0 && o.vc == 0 && o.vb == 0 && o.va == 0
  | .csrr h o => h.wf && o.ag == 0 && decide (o.imm.toNat < 4096)
  | .csrw h o => h.wf && o.dg == 0 && decide (o.imm.toNat < 4096)
  | .csrx h o => h.wf && decide (o.imm.toNat < 4096)
  | .trap h o => h.wf && o.dg == 0 && o.ag == 0 && decide (o.imm.toNat < 65536)
  | .eret h o => h.wf && o.dg == 0 && o.ag == 0 && o.imm == 0
  | .halt h o => h.wf && o.dg == 0 && o.ag == 0 && o.imm == 0
  | .nop h o => h.wf && o.dg == 0 && o.ag == 0 && o.imm == 0
  | .yield h o => h.wf && o.dg == 0 && o.ag == 0 && o.imm == 0
  | .mmaRecord h r => h.wf && r.common h && r.wfMatrix false
  | .mmacRecord h r => h.wf && r.common h && r.wfMatrix true
  | .xcopyRecord h r => h.wf && r.common h && r.wfCopy
  | .xgathRecord h r => h.wf && r.common h && r.wfGather
  | .xscatRecord h r => h.wf && r.common h && r.wfScatter
  | .xfillRecord h r => h.wf && r.common h && r.wfFill
  | .publishRecord h r => h.wf && r.common h && r.wfPublish
  | .collRecord h r => h.wf && r.common h && r.wfColl
  | .sortkRecord h r => h.wf && r.common h && r.wfSortk
  | .lattnRecord h r => h.wf && r.common h && r.wfLattn
  | .vectorArithRecord fn h r => h.wf && r.common h && r.wfVecArith fn
  | .vectorLogicRecord fn h r => h.wf && r.common h && r.wfVecLogic fn
  | .vectorConvertRecord fn h r => h.wf && r.common h && r.wfVecConvert fn
  | .vectorDotRecord fn h r => h.wf && r.common h && r.wfVecDot fn
  | .vectorMemoryRecord fn h r => h.wf && r.common h && r.wfVecMemory fn
  | .vectorSpecialRecord fn h r => h.wf && r.common h && r.wfVecSpecial fn
  | .vmerge3Record h r => h.wf && r.common h && r.wfVecMerge
  | .recordIssue _ _ => true
  | .engineCommandStart _ _ => true
  | .triggeredCommandStart _ _ => true
  | .commandComplete _ _ => true
  | .notifyRetire _ _ => true
  | .loadAnswer _ _ => true
  | .l1Eviction _ _ => true
  | .pageWalkComplete _ => true
  | .leewayCountUpdate _ => true
  | .tokenDeadlock _ => true
  | .reportedFaultDelivery _ _ => true
  | .blockExpiry _ _ => true
  | .reclaimTrapDelivery _ => true
  | .noticeArrival _ => true
  | .heldNoticeEntry _ => true
  | .noticeRipe _ _ => true
  | .helmPullStart _ => true
  | .segmentRequest _ => true
  | .segmentRead _ => true
  | .segmentLand _ => true
  | .pullCompletionArrival _ => true
  | .declineArrival _ => true
  | .withdrawalArrival _ => true
  | .collSegmentApply _ => true
  | .remoteBlockServe _ => true
  | .tileEnd _ => true
  | .tileEndByFault _ => true
  | .packetRead _ => true
  | .coreOffer _ => true
  | .launchComplete _ _ => true
  | .preemptTrigger _ => true
  | .contextSave _ => true
  | .tileResume _ => true
  | .queueDrainDone _ => true
  | .queueAbortDone _ => true
  | .qctlEnable _ => true
  | .qctlDrain _ => true
  | .qctlAbort _ => true
  | .qwrDoorbell _ _ => true
  | .tigoInvalidate _ => true
  | .tlbInvalidateComplete => true
  | .wcmdIngress _ => true
  | .wcmdLocal _ => true
  | .wcmdRelease _ => true
  | .shardBlockWrite _ _ => true
  | .shardLocalCheckDone _ => true
  | .shardPatrolPass => true
  | .wfenceClear _ _ => true
  | .fllostClear _ => true
  | .errorCountClear _ _ _ => true
  | .unfenceCore _ _ => true
  | .unfenceCluster _ => true
  | .unfenceStack _ => true
  | .unfenceUnit _ _ => true
  | .eccCorrected _ => true
  | .eccUncorrectable _ => true
  | .patrolScrub => true
  | .ckctlSave => true
  | .ckctlRestore => true
  | .checkpointQuiesced => true
  | .checkpointCopyDone => true
  | .checkpointError => true
  | .checkpointRestoreDone => true
  | .tcmdLcchange => true
  | .tcmdQuote => true
  | .tcmdKeyinstall _ => true
  | .tcmdKeyclear _ => true
  | .powerOnReset => true
  | .sfctlStartupEnd => true
  | .sfctlBist => true
  | .bistDone => true
  | .clkcfgWrite _ _ => true
  | .clkcfgPendingApply _ => true
  | .pcfgWrite _ _ => true
  | .portTrained _ _ => true
  | .portTrainingTimeout _ => true
  | .portFence _ => true
  | .flitForward _ => true
  | .flitReplay _ => true
  | .undeliverableReturn _ => true
  | .writeOfferArrival _ _ => true
  | .writeOfferPull _ => true
  | .remoteWritePerform _ => true
  | .remoteWriteAck _ _ _ => true
  | .remoteReadRequest _ _ _ => true
  | .hostRegisterAccess _ _ => true
  | .registerWrite _ _ => true
  | .powerManagerCheck => true
  | .thermalStop => true
  | .thermalRestart => true
  | .chronometerTick => true
  | .pldmSensorRead _ => true
  | .storePerformed _ _ => true
  | .shardIngressCheckDone _ => true
  | .stackLosesTraining _ => true
  | .baseDieError _ => true
  | .powerLoss => true

/-- The rows of the table that are words or records, and so have an encoding. -/
def Instr.encoded : Instr → Bool
  | .add _ _ => true
  | .sub _ _ => true
  | .mul _ _ => true
  | .mulh _ _ => true
  | .mulhn _ _ => true
  | .div _ _ => true
  | .divn _ _ => true
  | .rem _ _ => true
  | .remn _ _ => true
  | .neg _ _ => true
  | .min _ _ => true
  | .max _ _ => true
  | .minn _ _ => true
  | .maxn _ _ => true
  | .and _ _ => true
  | .or _ _ => true
  | .xor _ _ => true
  | .andn _ _ => true
  | .not _ _ => true
  | .shl _ _ => true
  | .shr _ _ => true
  | .sra _ _ => true
  | .rol _ _ => true
  | .clz _ _ => true
  | .ctz _ _ => true
  | .popc _ _ => true
  | .sext _ _ => true
  | .zext _ _ => true
  | .andImm _ _ => true
  | .orImm _ _ => true
  | .xorImm _ _ => true
  | .andnImm _ _ => true
  | .shlImm _ _ => true
  | .shrImm _ _ => true
  | .sraImm _ _ => true
  | .rolImm _ _ => true
  | .sextImm _ _ => true
  | .zextImm _ _ => true
  | .addi _ _ => true
  | .li _ _ => true
  | .lea _ _ => true
  | .cset _ _ => true
  | .sel _ _ => true
  | .j _ _ => true
  | .b _ _ => true
  | .brq _ _ => true
  | .call _ _ => true
  | .loop _ _ => true
  | .jr _ _ => true
  | .callr _ _ => true
  | .ret _ _ => true
  | .msave _ _ => true
  | .mrest _ _ => true
  | .mand _ _ => true
  | .mor _ _ => true
  | .mxor _ _ => true
  | .mnot _ _ => true
  | .mset _ _ => true
  | .mcnt _ _ => true
  | .vadd _ _ => true
  | .vsub _ _ => true
  | .vmul _ _ => true
  | .vfma _ _ => true
  | .vfms _ _ => true
  | .vmin _ _ => true
  | .vmax _ _ => true
  | .vabs _ _ => true
  | .vneg _ _ => true
  | .vand _ _ => true
  | .vor _ _ => true
  | .vxor _ _ => true
  | .vnot _ _ => true
  | .vshl _ _ => true
  | .vshr _ _ => true
  | .vsra _ _ => true
  | .vcmp _ _ => true
  | .vsel _ _ => true
  | .vcvt _ _ => true
  | .vwiden _ _ => true
  | .vnarrow _ _ => true
  | .vsat _ _ => true
  | .vclamp _ _ => true
  | .vdot4 _ _ => true
  | .vred _ _ => true
  | .vscan _ _ => true
  | .vperm _ _ => true
  | .vshuf _ _ => true
  | .vbcast _ _ => true
  | .vslide _ _ => true
  | .viota _ _ => true
  | .vcomp _ _ => true
  | .vexpd _ _ => true
  | .vld _ _ => true
  | .vst _ _ => true
  | .vldx _ _ => true
  | .vstx _ _ => true
  | .vgath _ _ => true
  | .vscat _ _ => true
  | .vqpop _ _ => true
  | .vqpush _ _ => true
  | .vexp2 _ _ => true
  | .vlog2 _ _ => true
  | .vrcp _ _ => true
  | .vrsq _ _ => true
  | .vtanh _ _ => true
  | .vsigm _ _ => true
  | .vmerge3 _ _ => true
  | .vdefer _ _ => true
  | .vdrain _ _ => true
  | .vdqcnt _ _ => true
  | .loopp _ _ => true
  | .brp _ _ => true
  | .vmov _ _ => true
  | .vzero _ _ => true
  | .ld _ _ => true
  | .st _ _ => true
  | .ldx _ _ => true
  | .stx _ _ => true
  | .lda _ _ => true
  | .stl _ _ => true
  | .amo _ _ => true
  | .cas _ _ => true
  | .fence _ _ => true
  | .mark _ _ => true
  | .tksig _ _ => true
  | .tkwait _ _ => true
  | .boqpush _ _ => true
  | .barv _ _ => true
  | .bwait _ _ => true
  | .tbinit _ _ => true
  | .tbarv _ _ => true
  | .tbwait _ _ => true
  | .leeway _ _ => true
  | .remq _ _ => true
  | .notify _ _ => true
  | .waitev _ _ => true
  | .mma _ _ => true
  | .mmac _ _ => true
  | .cmerge _ _ => true
  | .cspill _ _ => true
  | .cdrain _ _ => true
  | .acfg _ _ => true
  | .azero _ _ => true
  | .aload _ _ => true
  | .adrain _ _ => true
  | .adrainp _ _ => true
  | .aarm _ _ => true
  | .fmtset _ _ => true
  | .fmtld _ _ => true
  | .mvec _ _ => true
  | .mxt _ _ => true
  | .xcopy _ _ => true
  | .xgath _ _ => true
  | .xscat _ _ => true
  | .xfill _ _ => true
  | .xpop _ _ => true
  | .xstat _ _ => true
  | .publish _ _ => true
  | .ntake _ _ => true
  | .ndecl _ _ => true
  | .nwait _ _ => true
  | .reclaim _ _ => true
  | .rextend _ _ => true
  | .helmset _ _ => true
  | .pwin _ _ => true
  | .coll _ _ => true
  | .accw _ _ => true
  | .rdywait _ _ => true
  | .sortk _ _ => true
  | .echoose _ _ => true
  | .rcsnap _ _ => true
  | .lattn _ _ => true
  | .chnew _ _ => true
  | .chfork _ _ => true
  | .chflat _ _ => true
  | .chappend _ _ => true
  | .chlook _ _ => true
  | .chtrunc _ _ => true
  | .chseal _ _ => true
  | .chfree _ _ => true
  | .chgive _ _ => true
  | .bmset _ _ => true
  | .bmperm _ _ => true
  | .bmlook _ _ => true
  | .rkbegin _ _ => true
  | .acmp _ _ => true
  | .rkcommit _ _ => true
  | .rkend _ _ => true
  | .rkstat _ _ => true
  | .csrr _ _ => true
  | .csrw _ _ => true
  | .csrx _ _ => true
  | .trap _ _ => true
  | .eret _ _ => true
  | .halt _ _ => true
  | .nop _ _ => true
  | .yield _ _ => true
  | .mmaRecord _ _ => true
  | .mmacRecord _ _ => true
  | .xcopyRecord _ _ => true
  | .xgathRecord _ _ => true
  | .xscatRecord _ _ => true
  | .xfillRecord _ _ => true
  | .publishRecord _ _ => true
  | .collRecord _ _ => true
  | .sortkRecord _ _ => true
  | .lattnRecord _ _ => true
  | .vectorArithRecord _ _ _ => true
  | .vectorLogicRecord _ _ _ => true
  | .vectorConvertRecord _ _ _ => true
  | .vectorDotRecord _ _ _ => true
  | .vectorMemoryRecord _ _ _ => true
  | .vectorSpecialRecord _ _ _ => true
  | .vmerge3Record _ _ => true
  | .recordIssue _ _ => false
  | .engineCommandStart _ _ => false
  | .triggeredCommandStart _ _ => false
  | .commandComplete _ _ => false
  | .notifyRetire _ _ => false
  | .loadAnswer _ _ => false
  | .l1Eviction _ _ => false
  | .pageWalkComplete _ => false
  | .leewayCountUpdate _ => false
  | .tokenDeadlock _ => false
  | .reportedFaultDelivery _ _ => false
  | .blockExpiry _ _ => false
  | .reclaimTrapDelivery _ => false
  | .noticeArrival _ => false
  | .heldNoticeEntry _ => false
  | .noticeRipe _ _ => false
  | .helmPullStart _ => false
  | .segmentRequest _ => false
  | .segmentRead _ => false
  | .segmentLand _ => false
  | .pullCompletionArrival _ => false
  | .declineArrival _ => false
  | .withdrawalArrival _ => false
  | .collSegmentApply _ => false
  | .remoteBlockServe _ => false
  | .tileEnd _ => false
  | .tileEndByFault _ => false
  | .packetRead _ => false
  | .coreOffer _ => false
  | .launchComplete _ _ => false
  | .preemptTrigger _ => false
  | .contextSave _ => false
  | .tileResume _ => false
  | .queueDrainDone _ => false
  | .queueAbortDone _ => false
  | .qctlEnable _ => false
  | .qctlDrain _ => false
  | .qctlAbort _ => false
  | .qwrDoorbell _ _ => false
  | .tigoInvalidate _ => false
  | .tlbInvalidateComplete => false
  | .wcmdIngress _ => false
  | .wcmdLocal _ => false
  | .wcmdRelease _ => false
  | .shardBlockWrite _ _ => false
  | .shardLocalCheckDone _ => false
  | .shardPatrolPass => false
  | .wfenceClear _ _ => false
  | .fllostClear _ => false
  | .errorCountClear _ _ _ => false
  | .unfenceCore _ _ => false
  | .unfenceCluster _ => false
  | .unfenceStack _ => false
  | .unfenceUnit _ _ => false
  | .eccCorrected _ => false
  | .eccUncorrectable _ => false
  | .patrolScrub => false
  | .ckctlSave => false
  | .ckctlRestore => false
  | .checkpointQuiesced => false
  | .checkpointCopyDone => false
  | .checkpointError => false
  | .checkpointRestoreDone => false
  | .tcmdLcchange => false
  | .tcmdQuote => false
  | .tcmdKeyinstall _ => false
  | .tcmdKeyclear _ => false
  | .powerOnReset => false
  | .sfctlStartupEnd => false
  | .sfctlBist => false
  | .bistDone => false
  | .clkcfgWrite _ _ => false
  | .clkcfgPendingApply _ => false
  | .pcfgWrite _ _ => false
  | .portTrained _ _ => false
  | .portTrainingTimeout _ => false
  | .portFence _ => false
  | .flitForward _ => false
  | .flitReplay _ => false
  | .undeliverableReturn _ => false
  | .writeOfferArrival _ _ => false
  | .writeOfferPull _ => false
  | .remoteWritePerform _ => false
  | .remoteWriteAck _ _ _ => false
  | .remoteReadRequest _ _ _ => false
  | .hostRegisterAccess _ _ => false
  | .registerWrite _ _ => false
  | .powerManagerCheck => false
  | .thermalStop => false
  | .thermalRestart => false
  | .chronometerTick => false
  | .pldmSensorRead _ => false
  | .storePerformed _ _ => false
  | .shardIngressCheckDone _ => false
  | .stackLosesTraining _ => false
  | .baseDieError _ => false
  | .powerLoss => false

end Sys2Proof
end

