-- ==== Sys2Proof/Decode.lean ====
section
/-! DEFINITION. The decoder, total on any bytes, and the encoder, both written from the encoding tables of R77, R83, R84 and
R88: fields are listed from the least significant bit upwards, reserved fields included. -/

namespace Sys2Proof

/-! ### Bit fields and bytes -/

/-- Fields of given widths, the first in the least significant bits (R2). -/
def pack : List (Nat × Nat) → Nat
  | [] => 0
  | (w, v) :: r => v % 2 ^ w + 2 ^ w * pack r

/-- The values of fields of given widths, the first in the least significant bits. -/
def unpack : List Nat → Nat → List Nat
  | [], _ => []
  | w :: ws, n => n % 2 ^ w :: unpack ws (n / 2 ^ w)

/-- The n bytes of a number, least significant first (R2). -/
def natBytes : Nat → Nat → List Byte
  | 0, _ => []
  | n + 1, v => BitVec.ofNat 8 v :: natBytes n (v / 256)

/-- The number of a list of bytes, least significant first (R2). -/
def bytesNat : List Byte → Nat
  | [] => 0
  | b :: r => b.toNat + 256 * bytesNat r

/-! ### Why an encoding is refused (R86 rows 3 and 4) -/

/-- The named reasons for which no instruction is read. Each of them but `tooShort` is an illegal-instruction trap. -/
inductive Reject where
  /-- fewer bytes than a word or a record -/
  | tooShort
  /-- MAJ 0xDF as the first word (R74) -/
  | continuationFirst
  /-- MAJ or FN not in the opcode map (R87, R90) -/
  | unassignedOpcode
  /-- a reserved field of R77, R83, R84 or R88 is not zero (R85) -/
  | reservedField
  /-- a continuation word with a wrong MAJ or CIX (R91) -/
  | continuationMark
  /-- an unnamed field is not zero, or a field value is not one the operation accepts (R82, R85, R91) -/
  | badField
deriving DecidableEq, Repr

/-! ### The common header (R77) -/

def headerWidths : List Nat := [8, 8, 1, 3, 3, 2, 4, 1, 2]

def Header.pack (maj fn : Nat) (h : Header) : Nat :=
  Sys2Proof.pack [(8, maj), (8, fn), (1, h.m.toNat), (3, h.tkp.toNat), (3, h.tks.toNat), (2, h.msrc.toNat), (4, h.spi.toNat),
    (1, h.rot.toNat), (2, 0)]

/-- MAJ, FN, the header and its two reserved bits. -/
def Header.unpack (n : Nat) : Nat × Nat × Header × Nat :=
  match Sys2Proof.unpack headerWidths n with
  | [maj, fn, m, tkp, tks, msrc, spi, rot, rsv] =>
    (maj, fn, ⟨BitVec.ofNat 1 m, BitVec.ofNat 3 tkp, BitVec.ofNat 3 tks, BitVec.ofNat 2 msrc, BitVec.ofNat 4 spi, BitVec.ofNat 1 rot⟩,
      rsv)
  | _ => (0, 0, Header.plain, 0)

/-! ### The six operand formats (R83, R84), bits [127:32] of a word -/

/-- Bits [127:32] of a word of format REG. -/
def RegOps.pack (o : RegOps) : Nat :=
  Sys2Proof.pack [(6, o.dg.toNat), (6, o.ag.toNat), (6, o.bg.toNat), (6, o.cg.toNat), (4, o.cond.toNat), (68, 0)]

/-- The operands of format REG, none when a reserved bit is set. -/
def RegOps.unpack (n : Nat) : Option RegOps :=
  match Sys2Proof.unpack [6, 6, 6, 6, 4, 68] n with
  | [dg, ag, bg, cg, cond, rsv] =>
    if rsv = 0 then some ⟨BitVec.ofNat 6 dg, BitVec.ofNat 6 ag, BitVec.ofNat 6 bg, BitVec.ofNat 6 cg, BitVec.ofNat 4 cond⟩ else none
  | _ => none

/-- Bits [127:32] of a word of format IMM. -/
def ImmOps.pack (o : ImmOps) : Nat :=
  Sys2Proof.pack [(6, o.dg.toNat), (6, o.ag.toNat), (20, 0), (64, o.imm.toNat)]

/-- The operands of format IMM, none when a reserved bit is set. -/
def ImmOps.unpack (n : Nat) : Option ImmOps :=
  match Sys2Proof.unpack [6, 6, 20, 64] n with
  | [dg, ag, rsv, imm] =>
    if rsv = 0 then some ⟨BitVec.ofNat 6 dg, BitVec.ofNat 6 ag, BitVec.ofNat 64 imm⟩ else none
  | _ => none

/-- Bits [127:32] of a word of format JMP. -/
def JmpOps.pack (o : JmpOps) : Nat :=
  Sys2Proof.pack [(6, o.dg.toNat), (6, o.ag.toNat), (6, o.bg.toNat), (4, o.cond.toNat), (10, 0), (32, o.disp.toNat), (32, o.imm.toNat)]

/-- The operands of format JMP, none when a reserved bit is set. -/
def JmpOps.unpack (n : Nat) : Option JmpOps :=
  match Sys2Proof.unpack [6, 6, 6, 4, 10, 32, 32] n with
  | [dg, ag, bg, cond, rsv, disp, imm] =>
    if rsv = 0 then some ⟨BitVec.ofNat 6 dg, BitVec.ofNat 6 ag, BitVec.ofNat 6 bg, BitVec.ofNat 4 cond, BitVec.ofNat 32 disp, BitVec.ofNat 32 imm⟩ else none
  | _ => none

/-- Bits [127:32] of a word of format MEM. -/
def MemOps.pack (o : MemOps) : Nat :=
  Sys2Proof.pack [(6, o.dg.toNat), (6, o.ag.toNat), (6, o.bg.toNat), (6, o.cg.toNat), (3, o.sco.toNat), (2, o.sz.toNat), (1, o.sgn.toNat), (2, o.ord.toNat), (32, o.off.toNat), (8, o.aop.toNat), (24, 0)]

/-- The operands of format MEM, none when a reserved bit is set. -/
def MemOps.unpack (n : Nat) : Option MemOps :=
  match Sys2Proof.unpack [6, 6, 6, 6, 3, 2, 1, 2, 32, 8, 24] n with
  | [dg, ag, bg, cg, sco, sz, sgn, ord, off, aop, rsv] =>
    if rsv = 0 then some ⟨BitVec.ofNat 6 dg, BitVec.ofNat 6 ag, BitVec.ofNat 6 bg, BitVec.ofNat 6 cg, BitVec.ofNat 3 sco, BitVec.ofNat 2 sz, BitVec.ofNat 1 sgn, BitVec.ofNat 2 ord, BitVec.ofNat 32 off, BitVec.ofNat 8 aop⟩ else none
  | _ => none

/-- Bits [127:32] of a word of format VEC. -/
def VecOps.pack (o : VecOps) : Nat :=
  Sys2Proof.pack [(10, o.vd.toNat), (10, o.va.toNat), (10, o.vb.toNat), (10, o.vc.toNat), (4, o.et.toNat), (4, o.et2.toNat), (3, o.rmo.toNat), (1, o.sat.toNat), (1, o.sgn.toNat), (6, o.ga.toNat), (5, 0), (32, o.imm.toNat)]

/-- The operands of format VEC, none when a reserved bit is set. -/
def VecOps.unpack (n : Nat) : Option VecOps :=
  match Sys2Proof.unpack [10, 10, 10, 10, 4, 4, 3, 1, 1, 6, 5, 32] n with
  | [vd, va, vb, vc, et, et2, rmo, sat, sgn, ga, rsv, imm] =>
    if rsv = 0 then some ⟨BitVec.ofNat 10 vd, BitVec.ofNat 10 va, BitVec.ofNat 10 vb, BitVec.ofNat 10 vc, BitVec.ofNat 4 et, BitVec.ofNat 4 et2, BitVec.ofNat 3 rmo, BitVec.ofNat 1 sat, BitVec.ofNat 1 sgn, BitVec.ofNat 6 ga, BitVec.ofNat 32 imm⟩ else none
  | _ => none

/-- Bits [127:32] of a word of format ENG. -/
def EngOps.pack (o : EngOps) : Nat :=
  Sys2Proof.pack [(10, o.va.toNat), (10, o.vb.toNat), (10, o.vc.toNat), (6, o.ga.toNat), (6, o.gb.toNat), (6, o.gc.toNat), (4, o.ta.toNat), (4, o.tb.toNat), (4, o.tc.toNat), (1, o.sga.toNat), (1, o.sgb.toNat), (2, o.bka.toNat), (2, o.bkb.toNat), (4, o.tile.toNat), (3, o.sco.toNat), (7, 0), (16, o.imm.toNat)]

/-- The operands of format ENG, none when a reserved bit is set. -/
def EngOps.unpack (n : Nat) : Option EngOps :=
  match Sys2Proof.unpack [10, 10, 10, 6, 6, 6, 4, 4, 4, 1, 1, 2, 2, 4, 3, 7, 16] n with
  | [va, vb, vc, ga, gb, gc, ta, tb, tc, sga, sgb, bka, bkb, tl, sco, rsv, imm] =>
    if rsv = 0 then some ⟨BitVec.ofNat 10 va, BitVec.ofNat 10 vb, BitVec.ofNat 10 vc, BitVec.ofNat 6 ga, BitVec.ofNat 6 gb, BitVec.ofNat 6 gc, BitVec.ofNat 4 ta, BitVec.ofNat 4 tb, BitVec.ofNat 4 tc, BitVec.ofNat 1 sga, BitVec.ofNat 1 sgb, BitVec.ofNat 2 bka, BitVec.ofNat 2 bkb, BitVec.ofNat 4 tl, BitVec.ofNat 3 sco, BitVec.ofNat 16 imm⟩ else none
  | _ => none

/-! ### Records (R88): three continuation words after the header word -/

/-- The 80 bits of a descriptor. -/
def Descriptor.pack (d : Descriptor) : Nat :=
  Sys2Proof.pack [(6, d.base.toNat), (22, d.off.toNat), (4, d.ulog.toNat), (12, d.s0.toNat), (12, d.s1.toNat), (12, d.s2.toNat), (12, d.s3.toNat)]

def Descriptor.unpack (n : Nat) : Descriptor :=
  match Sys2Proof.unpack [6, 22, 4, 12, 12, 12, 12] n with
  | [base, off, ulog, s0, s1, s2, s3] => ⟨BitVec.ofNat 6 base, BitVec.ofNat 22 off, BitVec.ofNat 4 ulog, BitVec.ofNat 12 s0, BitVec.ofNat 12 s1, BitVec.ofNat 12 s2, BitVec.ofNat 12 s3⟩
  | _ => Descriptor.zero

/-- The three continuation words' and word 0's fields of a record, least significant first within each word. -/
def RecOps.packWord0 (r : RecOps) : Nat :=
  Sys2Proof.pack [(3, 0), (1, r.fts.toNat), (4, r.ta.toNat), (4, r.tb.toNat), (4, r.tc.toNat), (2, r.ka.toNat), (2, r.kb.toNat), (2, r.kc.toNat), (3, r.slot.toNat), (1, r.sga.toNat), (1, r.sgb.toNat), (2, r.bka.toNat), (2, r.bkb.toNat), (1, 0), (32, r.stamp.toNat), (6, r.xg.toNat), (26, r.opx.toNat)]

def RecOps.packWord1 (r : RecOps) : Nat :=
  Sys2Proof.pack [(8, 0xDF), (2, 1), (6, 0), (16, r.t0.toNat), (16, r.t1.toNat), (80, r.da.pack)]

def RecOps.packWord2 (r : RecOps) : Nat :=
  Sys2Proof.pack [(8, 0xDF), (2, 2), (6, 0), (16, r.t2.toNat), (16, r.t3.toNat), (80, r.db.pack)]

def RecOps.packWord3 (r : RecOps) : Nat :=
  Sys2Proof.pack [(8, 0xDF), (2, 3), (6, 0), (80, r.dc.pack), (32, r.ext.toNat)]

/-- Bits [511:32] of a record. -/
def RecOps.pack (r : RecOps) : Nat :=
  Sys2Proof.pack [(96, r.packWord0), (128, r.packWord1), (128, r.packWord2), (128, r.packWord3)]

/-- The fields of one continuation word after its MAJ and CIX marks: the reserved bits and the list of the others. -/
def continuation (k : Nat) (widths : List Nat) (n : Nat) : Except Reject (List Nat) :=
  match unpack (8 :: 2 :: 6 :: widths) n with
  | maj :: cix :: rsv :: r =>
    if maj ≠ 0xDF ∨ cix ≠ k then .error .continuationMark else if rsv ≠ 0 then .error .reservedField else .ok r
  | _ => .error .continuationMark

/-- The operands of a record from its bits [511:32]. -/
def RecOps.unpack (n : Nat) : Except Reject RecOps :=
  match Sys2Proof.unpack [96, 128, 128, 128] n with
  | [n0, n1, n2, n3] =>
    match continuation 1 [16, 16, 80] n1, continuation 2 [16, 16, 80] n2, continuation 3 [80, 32] n3 with
    | .ok [t0, t1, da], .ok [t2, t3, db], .ok [dc, ext] =>
      match Sys2Proof.unpack [3, 1, 4, 4, 4, 2, 2, 2, 3, 1, 1, 2, 2, 1, 32, 6, 26] n0 with
      | [rsv0, fts, ta, tb, tc, ka, kb, kc, slot, sga, sgb, bka, bkb, rsv1, stamp, xg, opx] =>
        if rsv0 ≠ 0 ∨ rsv1 ≠ 0 then .error .reservedField
        else .ok ⟨BitVec.ofNat 1 fts, BitVec.ofNat 4 ta, BitVec.ofNat 4 tb, BitVec.ofNat 4 tc, BitVec.ofNat 2 ka, BitVec.ofNat 2 kb, BitVec.ofNat 2 kc, BitVec.ofNat 3 slot, BitVec.ofNat 1 sga, BitVec.ofNat 1 sgb, BitVec.ofNat 2 bka, BitVec.ofNat 2 bkb, BitVec.ofNat 32 stamp, BitVec.ofNat 6 xg, BitVec.ofNat 26 opx,
          BitVec.ofNat 16 t0, BitVec.ofNat 16 t1, Descriptor.unpack da, BitVec.ofNat 16 t2, BitVec.ofNat 16 t3,
          Descriptor.unpack db, Descriptor.unpack dc, BitVec.ofNat 32 ext⟩
      | _ => .error .reservedField
    | .error e, _, _ => .error e
    | _, .error e, _ => .error e
    | _, _, .error e => .error e
    | _, _, _ => .error .continuationMark
  | _ => .error .continuationMark

/-! ### The opcode map (R87, R90) -/

/-- The operands of one encoding, by format. -/
inductive Operands where
  | reg (o : RegOps)
  | imm (o : ImmOps)
  | jmp (o : JmpOps)
  | mem (o : MemOps)
  | vec (o : VecOps)
  | eng (o : EngOps)
  | record (r : RecOps)
deriving DecidableEq, Repr

/-- The format of each major opcode (R87, R90); none for an unassigned one. -/
inductive Format where
  | reg | imm | jmp | mem | vec | eng | record
deriving DecidableEq, Repr

def formatOf (maj : Nat) : Option Format :=
  if 0xF0 ≤ maj ∧ maj ≤ 0xFB then some .record
  else if [0x01, 0x02, 0x05, 0x18].contains maj then some .reg
  else if [0x03, 0x04, 0xE0].contains maj then some .imm
  else if [0x10, 0x4D].contains maj then some .jmp
  else if [0x40, 0x41, 0x42, 0x43, 0x44, 0x45, 0x48, 0x49, 0x4A, 0x4B, 0x4C, 0x4E].contains maj then some .vec
  else if [0x80, 0x81, 0x82, 0x88, 0x89].contains maj then some .mem
  else if [0xA0, 0xA8, 0xA9, 0xAA, 0xAB, 0xB0, 0xB1, 0xB2].contains maj then some .eng
  else none

/-- MAJ, FN, the header and the operands of an instruction that has an encoding; none for a step of the part. -/
def Instr.parts : Instr → Option (Nat × Nat × Header × Operands)
  | .add h o => some (0x01, 0x00, h, .reg o)
  | .sub h o => some (0x01, 0x01, h, .reg o)
  | .mul h o => some (0x01, 0x02, h, .reg o)
  | .mulh h o => some (0x01, 0x03, h, .reg o)
  | .mulhn h o => some (0x01, 0x04, h, .reg o)
  | .div h o => some (0x01, 0x05, h, .reg o)
  | .divn h o => some (0x01, 0x06, h, .reg o)
  | .rem h o => some (0x01, 0x07, h, .reg o)
  | .remn h o => some (0x01, 0x08, h, .reg o)
  | .neg h o => some (0x01, 0x09, h, .reg o)
  | .min h o => some (0x01, 0x0A, h, .reg o)
  | .max h o => some (0x01, 0x0B, h, .reg o)
  | .minn h o => some (0x01, 0x0C, h, .reg o)
  | .maxn h o => some (0x01, 0x0D, h, .reg o)
  | .and h o => some (0x02, 0x00, h, .reg o)
  | .or h o => some (0x02, 0x01, h, .reg o)
  | .xor h o => some (0x02, 0x02, h, .reg o)
  | .andn h o => some (0x02, 0x03, h, .reg o)
  | .not h o => some (0x02, 0x04, h, .reg o)
  | .shl h o => some (0x02, 0x05, h, .reg o)
  | .shr h o => some (0x02, 0x06, h, .reg o)
  | .sra h o => some (0x02, 0x07, h, .reg o)
  | .rol h o => some (0x02, 0x08, h, .reg o)
  | .clz h o => some (0x02, 0x09, h, .reg o)
  | .ctz h o => some (0x02, 0x0A, h, .reg o)
  | .popc h o => some (0x02, 0x0B, h, .reg o)
  | .sext h o => some (0x02, 0x0C, h, .reg o)
  | .zext h o => some (0x02, 0x0D, h, .reg o)
  | .andImm h o => some (0x04, 0x00, h, .imm o)
  | .orImm h o => some (0x04, 0x01, h, .imm o)
  | .xorImm h o => some (0x04, 0x02, h, .imm o)
  | .andnImm h o => some (0x04, 0x03, h, .imm o)
  | .shlImm h o => some (0x04, 0x05, h, .imm o)
  | .shrImm h o => some (0x04, 0x06, h, .imm o)
  | .sraImm h o => some (0x04, 0x07, h, .imm o)
  | .rolImm h o => some (0x04, 0x08, h, .imm o)
  | .sextImm h o => some (0x04, 0x0C, h, .imm o)
  | .zextImm h o => some (0x04, 0x0D, h, .imm o)
  | .addi h o => some (0x03, 0x00, h, .imm o)
  | .li h o => some (0x03, 0x01, h, .imm o)
  | .lea h o => some (0x03, 0x02, h, .imm o)
  | .cset h o => some (0x05, 0x00, h, .reg o)
  | .sel h o => some (0x05, 0x01, h, .reg o)
  | .j h o => some (0x10, 0x00, h, .jmp o)
  | .b h o => some (0x10, 0x01, h, .jmp o)
  | .brq h o => some (0x10, 0x02, h, .jmp o)
  | .call h o => some (0x10, 0x03, h, .jmp o)
  | .loop h o => some (0x10, 0x04, h, .jmp o)
  | .jr h o => some (0x10, 0x05, h, .jmp o)
  | .callr h o => some (0x10, 0x06, h, .jmp o)
  | .ret h o => some (0x10, 0x07, h, .jmp o)
  | .msave h o => some (0x18, 0x00, h, .reg o)
  | .mrest h o => some (0x18, 0x01, h, .reg o)
  | .mand h o => some (0x18, 0x02, h, .reg o)
  | .mor h o => some (0x18, 0x03, h, .reg o)
  | .mxor h o => some (0x18, 0x04, h, .reg o)
  | .mnot h o => some (0x18, 0x05, h, .reg o)
  | .mset h o => some (0x18, 0x06, h, .reg o)
  | .mcnt h o => some (0x18, 0x07, h, .reg o)
  | .vadd h o => some (0x40, 0x00, h, .vec o)
  | .vsub h o => some (0x40, 0x01, h, .vec o)
  | .vmul h o => some (0x40, 0x02, h, .vec o)
  | .vfma h o => some (0x40, 0x03, h, .vec o)
  | .vfms h o => some (0x40, 0x04, h, .vec o)
  | .vmin h o => some (0x40, 0x05, h, .vec o)
  | .vmax h o => some (0x40, 0x06, h, .vec o)
  | .vabs h o => some (0x40, 0x07, h, .vec o)
  | .vneg h o => some (0x40, 0x08, h, .vec o)
  | .vand h o => some (0x41, 0x00, h, .vec o)
  | .vor h o => some (0x41, 0x01, h, .vec o)
  | .vxor h o => some (0x41, 0x02, h, .vec o)
  | .vnot h o => some (0x41, 0x03, h, .vec o)
  | .vshl h o => some (0x41, 0x04, h, .vec o)
  | .vshr h o => some (0x41, 0x05, h, .vec o)
  | .vsra h o => some (0x41, 0x06, h, .vec o)
  | .vcmp h o => some (0x42, 0x00, h, .vec o)
  | .vsel h o => some (0x42, 0x01, h, .vec o)
  | .vcvt h o => some (0x43, 0x00, h, .vec o)
  | .vwiden h o => some (0x43, 0x01, h, .vec o)
  | .vnarrow h o => some (0x43, 0x02, h, .vec o)
  | .vsat h o => some (0x43, 0x03, h, .vec o)
  | .vclamp h o => some (0x43, 0x04, h, .vec o)
  | .vdot4 h o => some (0x44, 0x00, h, .vec o)
  | .vred h o => some (0x44, 0x01, h, .vec o)
  | .vscan h o => some (0x44, 0x02, h, .vec o)
  | .vperm h o => some (0x45, 0x00, h, .vec o)
  | .vshuf h o => some (0x45, 0x01, h, .vec o)
  | .vbcast h o => some (0x45, 0x02, h, .vec o)
  | .vslide h o => some (0x45, 0x03, h, .vec o)
  | .viota h o => some (0x45, 0x04, h, .vec o)
  | .vcomp h o => some (0x45, 0x05, h, .vec o)
  | .vexpd h o => some (0x45, 0x06, h, .vec o)
  | .vld h o => some (0x48, 0x00, h, .vec o)
  | .vst h o => some (0x48, 0x01, h, .vec o)
  | .vldx h o => some (0x48, 0x02, h, .vec o)
  | .vstx h o => some (0x48, 0x03, h, .vec o)
  | .vgath h o => some (0x48, 0x04, h, .vec o)
  | .vscat h o => some (0x48, 0x05, h, .vec o)
  | .vqpop h o => some (0x49, 0x00, h, .vec o)
  | .vqpush h o => some (0x49, 0x01, h, .vec o)
  | .vexp2 h o => some (0x4A, 0x00, h, .vec o)
  | .vlog2 h o => some (0x4A, 0x01, h, .vec o)
  | .vrcp h o => some (0x4A, 0x02, h, .vec o)
  | .vrsq h o => some (0x4A, 0x03, h, .vec o)
  | .vtanh h o => some (0x4A, 0x04, h, .vec o)
  | .vsigm h o => some (0x4A, 0x05, h, .vec o)
  | .vmerge3 h o => some (0x4B, 0x00, h, .vec o)
  | .vdefer h o => some (0x4C, 0x00, h, .vec o)
  | .vdrain h o => some (0x4C, 0x01, h, .vec o)
  | .vdqcnt h o => some (0x4C, 0x02, h, .vec o)
  | .loopp h o => some (0x4D, 0x00, h, .jmp o)
  | .brp h o => some (0x4D, 0x01, h, .jmp o)
  | .vmov h o => some (0x4E, 0x00, h, .vec o)
  | .vzero h o => some (0x4E, 0x01, h, .vec o)
  | .ld h o => some (0x80, 0x00, h, .mem o)
  | .st h o => some (0x80, 0x01, h, .mem o)
  | .ldx h o => some (0x80, 0x02, h, .mem o)
  | .stx h o => some (0x80, 0x03, h, .mem o)
  | .lda h o => some (0x80, 0x04, h, .mem o)
  | .stl h o => some (0x80, 0x05, h, .mem o)
  | .amo h o => some (0x81, 0x00, h, .mem o)
  | .cas h o => some (0x81, 0x01, h, .mem o)
  | .fence h o => some (0x82, 0x00, h, .mem o)
  | .mark h o => some (0x82, 0x01, h, .mem o)
  | .tksig h o => some (0x88, 0x00, h, .mem o)
  | .tkwait h o => some (0x88, 0x01, h, .mem o)
  | .boqpush h o => some (0x88, 0x02, h, .mem o)
  | .barv h o => some (0x88, 0x03, h, .mem o)
  | .bwait h o => some (0x88, 0x04, h, .mem o)
  | .tbinit h o => some (0x88, 0x05, h, .mem o)
  | .tbarv h o => some (0x88, 0x06, h, .mem o)
  | .tbwait h o => some (0x88, 0x07, h, .mem o)
  | .leeway h o => some (0x88, 0x08, h, .mem o)
  | .remq h o => some (0x89, 0x00, h, .mem o)
  | .notify h o => some (0x89, 0x01, h, .mem o)
  | .waitev h o => some (0x89, 0x02, h, .mem o)
  | .mma h o => some (0xA0, 0x00, h, .eng o)
  | .mmac h o => some (0xA0, 0x01, h, .eng o)
  | .cmerge h o => some (0xA0, 0x02, h, .eng o)
  | .cspill h o => some (0xA0, 0x03, h, .eng o)
  | .cdrain h o => some (0xA0, 0x04, h, .eng o)
  | .acfg h o => some (0xA0, 0x05, h, .eng o)
  | .azero h o => some (0xA0, 0x06, h, .eng o)
  | .aload h o => some (0xA0, 0x07, h, .eng o)
  | .adrain h o => some (0xA0, 0x08, h, .eng o)
  | .adrainp h o => some (0xA0, 0x09, h, .eng o)
  | .aarm h o => some (0xA0, 0x0A, h, .eng o)
  | .fmtset h o => some (0xA0, 0x0B, h, .eng o)
  | .fmtld h o => some (0xA0, 0x0C, h, .eng o)
  | .mvec h o => some (0xA0, 0x0D, h, .eng o)
  | .mxt h o => some (0xA0, 0x0E, h, .eng o)
  | .xcopy h o => some (0xA8, 0x00, h, .eng o)
  | .xgath h o => some (0xA8, 0x01, h, .eng o)
  | .xscat h o => some (0xA8, 0x02, h, .eng o)
  | .xfill h o => some (0xA8, 0x03, h, .eng o)
  | .xpop h o => some (0xA8, 0x04, h, .eng o)
  | .xstat h o => some (0xA8, 0x05, h, .eng o)
  | .publish h o => some (0xA9, 0x00, h, .eng o)
  | .ntake h o => some (0xA9, 0x01, h, .eng o)
  | .ndecl h o => some (0xA9, 0x02, h, .eng o)
  | .nwait h o => some (0xA9, 0x03, h, .eng o)
  | .reclaim h o => some (0xA9, 0x04, h, .eng o)
  | .rextend h o => some (0xA9, 0x05, h, .eng o)
  | .helmset h o => some (0xA9, 0x06, h, .eng o)
  | .pwin h o => some (0xA9, 0x07, h, .eng o)
  | .coll h o => some (0xAA, 0x00, h, .eng o)
  | .accw h o => some (0xAA, 0x01, h, .eng o)
  | .rdywait h o => some (0xAA, 0x02, h, .eng o)
  | .sortk h o => some (0xAB, 0x00, h, .eng o)
  | .echoose h o => some (0xAB, 0x01, h, .eng o)
  | .rcsnap h o => some (0xAB, 0x02, h, .eng o)
  | .lattn h o => some (0xAB, 0x03, h, .eng o)
  | .chnew h o => some (0xB0, 0x00, h, .eng o)
  | .chfork h o => some (0xB0, 0x01, h, .eng o)
  | .chflat h o => some (0xB0, 0x02, h, .eng o)
  | .chappend h o => some (0xB0, 0x03, h, .eng o)
  | .chlook h o => some (0xB0, 0x04, h, .eng o)
  | .chtrunc h o => some (0xB0, 0x05, h, .eng o)
  | .chseal h o => some (0xB0, 0x06, h, .eng o)
  | .chfree h o => some (0xB0, 0x07, h, .eng o)
  | .chgive h o => some (0xB0, 0x08, h, .eng o)
  | .bmset h o => some (0xB1, 0x00, h, .eng o)
  | .bmperm h o => some (0xB1, 0x01, h, .eng o)
  | .bmlook h o => some (0xB1, 0x02, h, .eng o)
  | .rkbegin h o => some (0xB2, 0x00, h, .eng o)
  | .acmp h o => some (0xB2, 0x01, h, .eng o)
  | .rkcommit h o => some (0xB2, 0x02, h, .eng o)
  | .rkend h o => some (0xB2, 0x03, h, .eng o)
  | .rkstat h o => some (0xB2, 0x04, h, .eng o)
  | .csrr h o => some (0xE0, 0x00, h, .imm o)
  | .csrw h o => some (0xE0, 0x01, h, .imm o)
  | .csrx h o => some (0xE0, 0x02, h, .imm o)
  | .trap h o => some (0xE0, 0x03, h, .imm o)
  | .eret h o => some (0xE0, 0x04, h, .imm o)
  | .halt h o => some (0xE0, 0x05, h, .imm o)
  | .nop h o => some (0xE0, 0x06, h, .imm o)
  | .yield h o => some (0xE0, 0x07, h, .imm o)
  | .mmaRecord h r => some (0xF0, 0x00, h, .record r)
  | .mmacRecord h r => some (0xF0, 0x01, h, .record r)
  | .xcopyRecord h r => some (0xF1, 0x00, h, .record r)
  | .xgathRecord h r => some (0xF1, 0x01, h, .record r)
  | .xscatRecord h r => some (0xF1, 0x02, h, .record r)
  | .xfillRecord h r => some (0xF1, 0x03, h, .record r)
  | .publishRecord h r => some (0xF2, 0x00, h, .record r)
  | .collRecord h r => some (0xF3, 0x00, h, .record r)
  | .sortkRecord h r => some (0xF4, 0x00, h, .record r)
  | .lattnRecord h r => some (0xF4, 0x03, h, .record r)
  | .vectorArithRecord fn h r => some (0xF5, fn.toNat, h, .record r)
  | .vectorLogicRecord fn h r => some (0xF6, fn.toNat, h, .record r)
  | .vectorConvertRecord fn h r => some (0xF7, fn.toNat, h, .record r)
  | .vectorDotRecord fn h r => some (0xF8, fn.toNat, h, .record r)
  | .vectorMemoryRecord fn h r => some (0xF9, fn.toNat, h, .record r)
  | .vectorSpecialRecord fn h r => some (0xFA, fn.toNat, h, .record r)
  | .vmerge3Record h r => some (0xFB, 0x00, h, .record r)
  | .recordIssue _ _ => none
  | .engineCommandStart _ _ => none
  | .triggeredCommandStart _ _ => none
  | .commandComplete _ _ => none
  | .notifyRetire _ _ => none
  | .loadAnswer _ _ => none
  | .l1Eviction _ _ => none
  | .pageWalkComplete _ => none
  | .leewayCountUpdate _ => none
  | .tokenDeadlock _ => none
  | .reportedFaultDelivery _ _ => none
  | .blockExpiry _ _ => none
  | .reclaimTrapDelivery _ => none
  | .noticeArrival _ => none
  | .heldNoticeEntry _ => none
  | .noticeRipe _ _ => none
  | .helmPullStart _ => none
  | .segmentRequest _ => none
  | .segmentRead _ => none
  | .segmentLand _ => none
  | .pullCompletionArrival _ => none
  | .declineArrival _ => none
  | .withdrawalArrival _ => none
  | .collSegmentApply _ => none
  | .remoteBlockServe _ => none
  | .tileEnd _ => none
  | .tileEndByFault _ => none
  | .packetRead _ => none
  | .coreOffer _ => none
  | .launchComplete _ _ => none
  | .preemptTrigger _ => none
  | .contextSave _ => none
  | .tileResume _ => none
  | .queueDrainDone _ => none
  | .queueAbortDone _ => none
  | .qctlEnable _ => none
  | .qctlDrain _ => none
  | .qctlAbort _ => none
  | .qwrDoorbell _ _ => none
  | .tigoInvalidate _ => none
  | .tlbInvalidateComplete => none
  | .wcmdIngress _ => none
  | .wcmdLocal _ => none
  | .wcmdRelease _ => none
  | .shardBlockWrite _ _ => none
  | .shardLocalCheckDone _ => none
  | .shardPatrolPass => none
  | .wfenceClear _ _ => none
  | .fllostClear _ => none
  | .errorCountClear _ _ _ => none
  | .unfenceCore _ _ => none
  | .unfenceCluster _ => none
  | .unfenceStack _ => none
  | .unfenceUnit _ _ => none
  | .eccCorrected _ => none
  | .eccUncorrectable _ => none
  | .patrolScrub => none
  | .ckctlSave => none
  | .ckctlRestore => none
  | .checkpointQuiesced => none
  | .checkpointCopyDone => none
  | .checkpointError => none
  | .checkpointRestoreDone => none
  | .tcmdLcchange => none
  | .tcmdQuote => none
  | .tcmdKeyinstall _ => none
  | .tcmdKeyclear _ => none
  | .powerOnReset => none
  | .sfctlStartupEnd => none
  | .sfctlBist => none
  | .bistDone => none
  | .clkcfgWrite _ _ => none
  | .clkcfgPendingApply _ => none
  | .pcfgWrite _ _ => none
  | .portTrained _ _ => none
  | .portTrainingTimeout _ => none
  | .portFence _ => none
  | .flitForward _ => none
  | .flitReplay _ => none
  | .undeliverableReturn _ => none
  | .writeOfferArrival _ _ => none
  | .writeOfferPull _ => none
  | .remoteWritePerform _ => none
  | .remoteWriteAck _ _ _ => none
  | .remoteReadRequest _ _ _ => none
  | .hostRegisterAccess _ _ => none
  | .registerWrite _ _ => none
  | .powerManagerCheck => none
  | .thermalStop => none
  | .thermalRestart => none
  | .chronometerTick => none
  | .pldmSensorRead _ => none
  | .storePerformed _ _ => none
  | .shardIngressCheckDone _ => none
  | .stackLosesTraining _ => none
  | .baseDieError _ => none
  | .powerLoss => none

/-- The functions of MAJ 0x01 (R87). -/
def functions01 (fn : Nat) (h : Header) (o : RegOps) : Option Instr :=
  match fn with
  | 0x00 => some (.add h o)
  | 0x01 => some (.sub h o)
  | 0x02 => some (.mul h o)
  | 0x03 => some (.mulh h o)
  | 0x04 => some (.mulhn h o)
  | 0x05 => some (.div h o)
  | 0x06 => some (.divn h o)
  | 0x07 => some (.rem h o)
  | 0x08 => some (.remn h o)
  | 0x09 => some (.neg h o)
  | 0x0A => some (.min h o)
  | 0x0B => some (.max h o)
  | 0x0C => some (.minn h o)
  | 0x0D => some (.maxn h o)
  | _ => none

/-- The functions of MAJ 0x02 (R87). -/
def functions02 (fn : Nat) (h : Header) (o : RegOps) : Option Instr :=
  match fn with
  | 0x00 => some (.and h o)
  | 0x01 => some (.or h o)
  | 0x02 => some (.xor h o)
  | 0x03 => some (.andn h o)
  | 0x04 => some (.not h o)
  | 0x05 => some (.shl h o)
  | 0x06 => some (.shr h o)
  | 0x07 => some (.sra h o)
  | 0x08 => some (.rol h o)
  | 0x09 => some (.clz h o)
  | 0x0A => some (.ctz h o)
  | 0x0B => some (.popc h o)
  | 0x0C => some (.sext h o)
  | 0x0D => some (.zext h o)
  | _ => none

/-- The functions of MAJ 0x04 (R87). -/
def functions04 (fn : Nat) (h : Header) (o : ImmOps) : Option Instr :=
  match fn with
  | 0x00 => some (.andImm h o)
  | 0x01 => some (.orImm h o)
  | 0x02 => some (.xorImm h o)
  | 0x03 => some (.andnImm h o)
  | 0x05 => some (.shlImm h o)
  | 0x06 => some (.shrImm h o)
  | 0x07 => some (.sraImm h o)
  | 0x08 => some (.rolImm h o)
  | 0x0C => some (.sextImm h o)
  | 0x0D => some (.zextImm h o)
  | _ => none

/-- The functions of MAJ 0x03 (R87). -/
def functions03 (fn : Nat) (h : Header) (o : ImmOps) : Option Instr :=
  match fn with
  | 0x00 => some (.addi h o)
  | 0x01 => some (.li h o)
  | 0x02 => some (.lea h o)
  | _ => none

/-- The functions of MAJ 0x05 (R87). -/
def functions05 (fn : Nat) (h : Header) (o : RegOps) : Option Instr :=
  match fn with
  | 0x00 => some (.cset h o)
  | 0x01 => some (.sel h o)
  | _ => none

/-- The functions of MAJ 0x10 (R87). -/
def functions10 (fn : Nat) (h : Header) (o : JmpOps) : Option Instr :=
  match fn with
  | 0x00 => some (.j h o)
  | 0x01 => some (.b h o)
  | 0x02 => some (.brq h o)
  | 0x03 => some (.call h o)
  | 0x04 => some (.loop h o)
  | 0x05 => some (.jr h o)
  | 0x06 => some (.callr h o)
  | 0x07 => some (.ret h o)
  | _ => none

/-- The functions of MAJ 0x18 (R87). -/
def functions18 (fn : Nat) (h : Header) (o : RegOps) : Option Instr :=
  match fn with
  | 0x00 => some (.msave h o)
  | 0x01 => some (.mrest h o)
  | 0x02 => some (.mand h o)
  | 0x03 => some (.mor h o)
  | 0x04 => some (.mxor h o)
  | 0x05 => some (.mnot h o)
  | 0x06 => some (.mset h o)
  | 0x07 => some (.mcnt h o)
  | _ => none

/-- The functions of MAJ 0x40 (R87). -/
def functions40 (fn : Nat) (h : Header) (o : VecOps) : Option Instr :=
  match fn with
  | 0x00 => some (.vadd h o)
  | 0x01 => some (.vsub h o)
  | 0x02 => some (.vmul h o)
  | 0x03 => some (.vfma h o)
  | 0x04 => some (.vfms h o)
  | 0x05 => some (.vmin h o)
  | 0x06 => some (.vmax h o)
  | 0x07 => some (.vabs h o)
  | 0x08 => some (.vneg h o)
  | _ => none

/-- The functions of MAJ 0x41 (R87). -/
def functions41 (fn : Nat) (h : Header) (o : VecOps) : Option Instr :=
  match fn with
  | 0x00 => some (.vand h o)
  | 0x01 => some (.vor h o)
  | 0x02 => some (.vxor h o)
  | 0x03 => some (.vnot h o)
  | 0x04 => some (.vshl h o)
  | 0x05 => some (.vshr h o)
  | 0x06 => some (.vsra h o)
  | _ => none

/-- The functions of MAJ 0x42 (R87). -/
def functions42 (fn : Nat) (h : Header) (o : VecOps) : Option Instr :=
  match fn with
  | 0x00 => some (.vcmp h o)
  | 0x01 => some (.vsel h o)
  | _ => none

/-- The functions of MAJ 0x43 (R87). -/
def functions43 (fn : Nat) (h : Header) (o : VecOps) : Option Instr :=
  match fn with
  | 0x00 => some (.vcvt h o)
  | 0x01 => some (.vwiden h o)
  | 0x02 => some (.vnarrow h o)
  | 0x03 => some (.vsat h o)
  | 0x04 => some (.vclamp h o)
  | _ => none

/-- The functions of MAJ 0x44 (R87). -/
def functions44 (fn : Nat) (h : Header) (o : VecOps) : Option Instr :=
  match fn with
  | 0x00 => some (.vdot4 h o)
  | 0x01 => some (.vred h o)
  | 0x02 => some (.vscan h o)
  | _ => none

/-- The functions of MAJ 0x45 (R87). -/
def functions45 (fn : Nat) (h : Header) (o : VecOps) : Option Instr :=
  match fn with
  | 0x00 => some (.vperm h o)
  | 0x01 => some (.vshuf h o)
  | 0x02 => some (.vbcast h o)
  | 0x03 => some (.vslide h o)
  | 0x04 => some (.viota h o)
  | 0x05 => some (.vcomp h o)
  | 0x06 => some (.vexpd h o)
  | _ => none

/-- The functions of MAJ 0x48 (R87). -/
def functions48 (fn : Nat) (h : Header) (o : VecOps) : Option Instr :=
  match fn with
  | 0x00 => some (.vld h o)
  | 0x01 => some (.vst h o)
  | 0x02 => some (.vldx h o)
  | 0x03 => some (.vstx h o)
  | 0x04 => some (.vgath h o)
  | 0x05 => some (.vscat h o)
  | _ => none

/-- The functions of MAJ 0x49 (R87). -/
def functions49 (fn : Nat) (h : Header) (o : VecOps) : Option Instr :=
  match fn with
  | 0x00 => some (.vqpop h o)
  | 0x01 => some (.vqpush h o)
  | _ => none

/-- The functions of MAJ 0x4A (R87). -/
def functions4A (fn : Nat) (h : Header) (o : VecOps) : Option Instr :=
  match fn with
  | 0x00 => some (.vexp2 h o)
  | 0x01 => some (.vlog2 h o)
  | 0x02 => some (.vrcp h o)
  | 0x03 => some (.vrsq h o)
  | 0x04 => some (.vtanh h o)
  | 0x05 => some (.vsigm h o)
  | _ => none

/-- The functions of MAJ 0x4B (R87). -/
def functions4B (fn : Nat) (h : Header) (o : VecOps) : Option Instr :=
  match fn with
  | 0x00 => some (.vmerge3 h o)
  | _ => none

/-- The functions of MAJ 0x4C (R87). -/
def functions4C (fn : Nat) (h : Header) (o : VecOps) : Option Instr :=
  match fn with
  | 0x00 => some (.vdefer h o)
  | 0x01 => some (.vdrain h o)
  | 0x02 => some (.vdqcnt h o)
  | _ => none

/-- The functions of MAJ 0x4D (R87). -/
def functions4D (fn : Nat) (h : Header) (o : JmpOps) : Option Instr :=
  match fn with
  | 0x00 => some (.loopp h o)
  | 0x01 => some (.brp h o)
  | _ => none

/-- The functions of MAJ 0x4E (R87). -/
def functions4E (fn : Nat) (h : Header) (o : VecOps) : Option Instr :=
  match fn with
  | 0x00 => some (.vmov h o)
  | 0x01 => some (.vzero h o)
  | _ => none

/-- The functions of MAJ 0x80 (R87). -/
def functions80 (fn : Nat) (h : Header) (o : MemOps) : Option Instr :=
  match fn with
  | 0x00 => some (.ld h o)
  | 0x01 => some (.st h o)
  | 0x02 => some (.ldx h o)
  | 0x03 => some (.stx h o)
  | 0x04 => some (.lda h o)
  | 0x05 => some (.stl h o)
  | _ => none

/-- The functions of MAJ 0x81 (R87). -/
def functions81 (fn : Nat) (h : Header) (o : MemOps) : Option Instr :=
  match fn with
  | 0x00 => some (.amo h o)
  | 0x01 => some (.cas h o)
  | _ => none

/-- The functions of MAJ 0x82 (R87). -/
def functions82 (fn : Nat) (h : Header) (o : MemOps) : Option Instr :=
  match fn with
  | 0x00 => some (.fence h o)
  | 0x01 => some (.mark h o)
  | _ => none

/-- The functions of MAJ 0x88 (R87). -/
def functions88 (fn : Nat) (h : Header) (o : MemOps) : Option Instr :=
  match fn with
  | 0x00 => some (.tksig h o)
  | 0x01 => some (.tkwait h o)
  | 0x02 => some (.boqpush h o)
  | 0x03 => some (.barv h o)
  | 0x04 => some (.bwait h o)
  | 0x05 => some (.tbinit h o)
  | 0x06 => some (.tbarv h o)
  | 0x07 => some (.tbwait h o)
  | 0x08 => some (.leeway h o)
  | _ => none

/-- The functions of MAJ 0x89 (R87). -/
def functions89 (fn : Nat) (h : Header) (o : MemOps) : Option Instr :=
  match fn with
  | 0x00 => some (.remq h o)
  | 0x01 => some (.notify h o)
  | 0x02 => some (.waitev h o)
  | _ => none

/-- The functions of MAJ 0xA0 (R87). -/
def functionsA0 (fn : Nat) (h : Header) (o : EngOps) : Option Instr :=
  match fn with
  | 0x00 => some (.mma h o)
  | 0x01 => some (.mmac h o)
  | 0x02 => some (.cmerge h o)
  | 0x03 => some (.cspill h o)
  | 0x04 => some (.cdrain h o)
  | 0x05 => some (.acfg h o)
  | 0x06 => some (.azero h o)
  | 0x07 => some (.aload h o)
  | 0x08 => some (.adrain h o)
  | 0x09 => some (.adrainp h o)
  | 0x0A => some (.aarm h o)
  | 0x0B => some (.fmtset h o)
  | 0x0C => some (.fmtld h o)
  | 0x0D => some (.mvec h o)
  | 0x0E => some (.mxt h o)
  | _ => none

/-- The functions of MAJ 0xA8 (R87). -/
def functionsA8 (fn : Nat) (h : Header) (o : EngOps) : Option Instr :=
  match fn with
  | 0x00 => some (.xcopy h o)
  | 0x01 => some (.xgath h o)
  | 0x02 => some (.xscat h o)
  | 0x03 => some (.xfill h o)
  | 0x04 => some (.xpop h o)
  | 0x05 => some (.xstat h o)
  | _ => none

/-- The functions of MAJ 0xA9 (R87). -/
def functionsA9 (fn : Nat) (h : Header) (o : EngOps) : Option Instr :=
  match fn with
  | 0x00 => some (.publish h o)
  | 0x01 => some (.ntake h o)
  | 0x02 => some (.ndecl h o)
  | 0x03 => some (.nwait h o)
  | 0x04 => some (.reclaim h o)
  | 0x05 => some (.rextend h o)
  | 0x06 => some (.helmset h o)
  | 0x07 => some (.pwin h o)
  | _ => none

/-- The functions of MAJ 0xAA (R87). -/
def functionsAA (fn : Nat) (h : Header) (o : EngOps) : Option Instr :=
  match fn with
  | 0x00 => some (.coll h o)
  | 0x01 => some (.accw h o)
  | 0x02 => some (.rdywait h o)
  | _ => none

/-- The functions of MAJ 0xAB (R87). -/
def functionsAB (fn : Nat) (h : Header) (o : EngOps) : Option Instr :=
  match fn with
  | 0x00 => some (.sortk h o)
  | 0x01 => some (.echoose h o)
  | 0x02 => some (.rcsnap h o)
  | 0x03 => some (.lattn h o)
  | _ => none

/-- The functions of MAJ 0xB0 (R87). -/
def functionsB0 (fn : Nat) (h : Header) (o : EngOps) : Option Instr :=
  match fn with
  | 0x00 => some (.chnew h o)
  | 0x01 => some (.chfork h o)
  | 0x02 => some (.chflat h o)
  | 0x03 => some (.chappend h o)
  | 0x04 => some (.chlook h o)
  | 0x05 => some (.chtrunc h o)
  | 0x06 => some (.chseal h o)
  | 0x07 => some (.chfree h o)
  | 0x08 => some (.chgive h o)
  | _ => none

/-- The functions of MAJ 0xB1 (R87). -/
def functionsB1 (fn : Nat) (h : Header) (o : EngOps) : Option Instr :=
  match fn with
  | 0x00 => some (.bmset h o)
  | 0x01 => some (.bmperm h o)
  | 0x02 => some (.bmlook h o)
  | _ => none

/-- The functions of MAJ 0xB2 (R87). -/
def functionsB2 (fn : Nat) (h : Header) (o : EngOps) : Option Instr :=
  match fn with
  | 0x00 => some (.rkbegin h o)
  | 0x01 => some (.acmp h o)
  | 0x02 => some (.rkcommit h o)
  | 0x03 => some (.rkend h o)
  | 0x04 => some (.rkstat h o)
  | _ => none

/-- The functions of MAJ 0xE0 (R87). -/
def functionsE0 (fn : Nat) (h : Header) (o : ImmOps) : Option Instr :=
  match fn with
  | 0x00 => some (.csrr h o)
  | 0x01 => some (.csrw h o)
  | 0x02 => some (.csrx h o)
  | 0x03 => some (.trap h o)
  | 0x04 => some (.eret h o)
  | 0x05 => some (.halt h o)
  | 0x06 => some (.nop h o)
  | 0x07 => some (.yield h o)
  | _ => none

/-- The records' functions by major opcode (R90); the merged vector records carry FN, which the operand check judges. -/
def recordFunctions (maj fn : Nat) (h : Header) (r : RecOps) : Option Instr :=
  match maj with
  | 0xF0 =>
    match fn with
    | 0x00 => some (.mmaRecord h r)
    | 0x01 => some (.mmacRecord h r)
    | _ => none
  | 0xF1 =>
    match fn with
    | 0x00 => some (.xcopyRecord h r)
    | 0x01 => some (.xgathRecord h r)
    | 0x02 => some (.xscatRecord h r)
    | 0x03 => some (.xfillRecord h r)
    | _ => none
  | 0xF2 =>
    match fn with
    | 0x00 => some (.publishRecord h r)
    | _ => none
  | 0xF3 =>
    match fn with
    | 0x00 => some (.collRecord h r)
    | _ => none
  | 0xF4 =>
    match fn with
    | 0x00 => some (.sortkRecord h r)
    | 0x03 => some (.lattnRecord h r)
    | _ => none
  | 0xF5 => some (.vectorArithRecord (BitVec.ofNat 8 fn) h r)
  | 0xF6 => some (.vectorLogicRecord (BitVec.ofNat 8 fn) h r)
  | 0xF7 => some (.vectorConvertRecord (BitVec.ofNat 8 fn) h r)
  | 0xF8 => some (.vectorDotRecord (BitVec.ofNat 8 fn) h r)
  | 0xF9 => some (.vectorMemoryRecord (BitVec.ofNat 8 fn) h r)
  | 0xFA => some (.vectorSpecialRecord (BitVec.ofNat 8 fn) h r)
  | 0xFB =>
    match fn with
    | 0x00 => some (.vmerge3Record h r)
    | _ => none
  | _ => none

/-- The instruction of MAJ, FN, header and operands (R87, R90). -/
def ofParts (maj fn : Nat) (h : Header) : Operands → Option Instr
  | .reg o =>
    match maj with
    | 0x01 => functions01 fn h o
    | 0x02 => functions02 fn h o
    | 0x05 => functions05 fn h o
    | 0x18 => functions18 fn h o
    | _ => none
  | .imm o =>
    match maj with
    | 0x03 => functions03 fn h o
    | 0x04 => functions04 fn h o
    | 0xE0 => functionsE0 fn h o
    | _ => none
  | .jmp o =>
    match maj with
    | 0x10 => functions10 fn h o
    | 0x4D => functions4D fn h o
    | _ => none
  | .vec o =>
    match maj with
    | 0x40 => functions40 fn h o
    | 0x41 => functions41 fn h o
    | 0x42 => functions42 fn h o
    | 0x43 => functions43 fn h o
    | 0x44 => functions44 fn h o
    | 0x45 => functions45 fn h o
    | 0x48 => functions48 fn h o
    | 0x49 => functions49 fn h o
    | 0x4A => functions4A fn h o
    | 0x4B => functions4B fn h o
    | 0x4C => functions4C fn h o
    | 0x4E => functions4E fn h o
    | _ => none
  | .mem o =>
    match maj with
    | 0x80 => functions80 fn h o
    | 0x81 => functions81 fn h o
    | 0x82 => functions82 fn h o
    | 0x88 => functions88 fn h o
    | 0x89 => functions89 fn h o
    | _ => none
  | .eng o =>
    match maj with
    | 0xA0 => functionsA0 fn h o
    | 0xA8 => functionsA8 fn h o
    | 0xA9 => functionsA9 fn h o
    | 0xAA => functionsAA fn h o
    | 0xAB => functionsAB fn h o
    | 0xB0 => functionsB0 fn h o
    | 0xB1 => functionsB1 fn h o
    | 0xB2 => functionsB2 fn h o
    | _ => none
  | .record r => recordFunctions maj fn h r

/-- Operands of a format from the bits above the header. -/
def Operands.unpack (f : Format) (n : Nat) : Except Reject Operands :=
  let ofOption {α : Type} (k : α → Operands) (o : Option α) : Except Reject Operands :=
    match o with
    | some a => .ok (k a)
    | none => .error .reservedField
  match f with
  | .reg => ofOption .reg (RegOps.unpack n)
  | .imm => ofOption .imm (ImmOps.unpack n)
  | .jmp => ofOption .jmp (JmpOps.unpack n)
  | .mem => ofOption .mem (MemOps.unpack n)
  | .vec => ofOption .vec (VecOps.unpack n)
  | .eng => ofOption .eng (EngOps.unpack n)
  | .record => match RecOps.unpack n with
    | .ok r => .ok (.record r)
    | .error e => .error e

def Operands.pack : Operands → Nat
  | .reg o => o.pack
  | .imm o => o.pack
  | .jmp o => o.pack
  | .mem o => o.pack
  | .vec o => o.pack
  | .eng o => o.pack
  | .record r => r.pack

/-! ### Decoding and encoding -/

/-- Whether MAJ begins a record (R90). -/
def isRecordMaj (maj : Nat) : Bool := decide (0xF0 ≤ maj) && decide (maj ≤ 0xFB)

/-- The instruction of one encoding as a number: 128 bits of a word, or 512 of a record. Rows 3 and 4 of R86. -/
def decodeNat (n : Nat) : Except Reject Instr :=
  match Header.unpack (n % 2 ^ 32) with
  | (maj, fn, h, rsv) =>
    if maj = 0xDF then .error .continuationFirst
    else match formatOf maj with
      | none => .error .unassignedOpcode
      | some f =>
        if rsv ≠ 0 then .error .reservedField
        else match Operands.unpack f (n / 2 ^ 32) with
          | .error e => .error e
          | .ok o =>
            match ofParts maj fn h o with
            | none => .error .unassignedOpcode
            | some i => if i.wf then .ok i else .error .badField

/-- The instruction at the head of the bytes, and the bytes after it: 16 of a word, 64 of a record (R73). -/
def decode (bs : List Byte) : Except Reject (Instr × List Byte) :=
  match bs with
  | [] => .error .tooShort
  | b :: _ =>
    let len := if isRecordMaj b.toNat then 64 else 16
    if (bs.take len).length < len then .error .tooShort
    else match decodeNat (bytesNat (bs.take len)) with
      | .error e => .error e
      | .ok i => .ok (i, bs.drop len)

/-- Bytes of an instruction's encoding (R73): 64 of a record, 16 of a word. -/
def Instr.size (i : Instr) : Nat :=
  match i.parts with
  | some (_, _, _, .record _) => 64
  | _ => 16

/-- The encoding as a number, bit 0 the least significant bit of the first word; none for a step of the part. -/
def encodeNat (i : Instr) : Option Nat :=
  match i.parts with
  | some (maj, fn, h, o) => some (h.pack maj fn + 2 ^ 32 * o.pack)
  | none => none

/-- The bytes of an instruction as the memory holds them (R2, R73), which the assembler emits. (DESIGN CHOICE, log 77) -/
def encode (i : Instr) : List Byte :=
  match encodeNat i with
  | some n => natBytes i.size n
  | none => []

/-- The instruction read from a table word of nbits bits: the bits above are zero up to the 64 bytes of a record. -/
def decodeTableWord (nbits w : Nat) : Option Instr :=
  match decode (natBytes 64 (w % 2 ^ nbits)) with
  | .ok (i, _) => some i
  | .error _ => none

end Sys2Proof
end

