-- ==== Sys2Proof/Machine/State.lean ====
section
/-! DEFINITION. The machine's state as plain data: everything the chapters give the part, core by core and device-wide,
with the state right after reset. Sparse tables list (key, value) pairs with rising keys and hold no entry equal to
their default. -/

namespace Sys2Proof.Machine

/-- A sparse table: rising keys, no entry equal to the table's default value. -/
abbrev Table (α : Type) := List (Nat × α)

/-- Bytes by address in the same form, the default byte being zero. -/
abbrev Memory := List Host.Cell

/-! ### Names -/

/-- The four sequencers of a core, numbered 0 to 3 in this order (R27). -/
inductive SeqId where
  | c | l | x | s
deriving DecidableEq, Repr, Inhabited

/-- Scopes of R11 and R82. -/
inductive Scope where
  | core | cluster | die | device | system
deriving DecidableEq, Repr

/-- Where an address lies: virtual memory or the core's scratchpad (R253). -/
inductive Space where
  | virt | spad
deriving DecidableEq, Repr

/-- The result statuses of R184. -/
inductive Status where
  | ok | withdrawn | gone | none | faulted
deriving DecidableEq, Repr

/-- The causes of R362. -/
inductive Cause where
  | illegal | alignment | controlIntegrity | software | speculation | reclaim | translation | protection
  | scratchRange | illegalOperand | accConfig | bankGroup | exactRange | barrier | scheduleMiss | tokenDeadlock
  | freeList | link | dataError | fencedTarget | doubleTrap
deriving DecidableEq, Repr

/-- What a fault record says beyond its cause (R368): AKIND and ADDR, ITER, OPIDX, SLOT, INFO. -/
structure FaultAt where
  akind : Nat
  addr : Nat
  iter : Nat
  opidx : Nat
  slot : Nat
  info : Nat
deriving DecidableEq, Repr

/-- A cause with its place. -/
structure FaultInfo where
  cause : Cause
  loc : FaultAt
deriving DecidableEq, Repr

/-- No address, no operand. -/
def FaultAt.none : FaultAt := ⟨0, 0, 0, 3, 0, 0⟩

/-! ### A core's parts -/

/-- A 128-byte fetch line held by a sequencer (R76, R248). -/
structure FetchLine where
  addr : Nat
  bytes : List Byte
deriving DecidableEq, Repr

/-- A reported fault or reclaim trap awaiting delivery (R364): the ECAUSE value, its tick, log order, the FIFO it stopped. -/
structure PendingFault where
  ecause : Word
  tick : Nat
  order : Nat
  /-- FIFO port stopped until the handler's ERET (R365) -/
  stops : Option Nat
deriving DecidableEq, Repr

/-- One sequencer's state (R27) with its issue bookkeeping (R241 to R250). -/
structure Sequencer where
  pc : Word
  g : Table Word
  shadow : List Word
  sg : BitVec 16
  tvec : Word
  epc : Word
  ecause : Word
  halted : Bool
  /-- between a trap entry and the next ERET (R364) -/
  inHandler : Bool
  /-- trap entries, from one that RECOV covers on, whose ERETs are still to come: strict fetch until the last of them (R390) -/
  recovery : Nat
  /-- FIFO ports that resume at that ERET (R365) -/
  resumes : List Nat
  /-- first cycle in which each g-register may be read (R241) -/
  ready : Table Nat
  /-- g-registers whose value an access, an engine or the vector unit has still to give (R242) -/
  outstanding : List Nat
  /-- cycle of the last issue (R241) -/
  lastIssue : Option Nat
  /-- timing mode of the last word (R250) -/
  lastM : Option Bool
  /-- base cycle and base tick of the FIXED segment (R246) -/
  segment : Option (Nat × Nat)
  /-- the word at a segment's base whose pops have been taken (R246) -/
  poppedAt : Option Word
  /-- lanes of the waiting VSCAT that have their entries of the remote-write buffer (R349) -/
  scattered : Nat
  /-- last command number that a crossing word drains (R250) -/
  drain : Option Nat
  /-- cycle in which the present wait began (R244) -/
  waitSince : Option Nat
  /-- what the word waits for: a FIFO port 0 to 7, 8 + an outcome queue, 13 a held range, 16 + a token queue, 32 + a result FIFO to pop
  from, 40 + one to push to, 64 + the core whose remote inbox it is -/
  waitOn : Option Nat
  /-- cycle of its last turn, and its turns in that cycle (R41, R243) -/
  turnAt : Option Nat
  turns : Nat
  /-- unacknowledged remote and host writes of others that core order places before its later accesses (R270, R273) -/
  inherits : List Nat
  /-- MARKs executed in the tile, oldest first: the scope of each, and the number of the first access after it (R112) -/
  marks : List (Scope × Nat)
  /-- accesses that the sequencer's later loads, and later stores, must follow (R111, R270, R274) -/
  loadAfter : List Nat
  storeAfter : List Nat
  lines : List FetchLine
  pending : List PendingFault
deriving DecidableEq, Repr

/-- A first-level cache line (R39, R261) with its place and last use (R344). -/
structure L1Line where
  granule : Nat
  way : Nat
  set : Nat
  tag : Nat
  valid : BitVec 128
  dirty : BitVec 128
  data : BitVec 1024
  lastUse : Nat
deriving DecidableEq, Repr

/-- What an access of the load or store queue does when it is performed. -/
inductive AccessKind where
  /-- a scalar load of n bytes into a g-register, sign-extended or not -/
  | load (reg : Nat) (signed : Bool)
  /-- a vector load: (lane, address of its byte or bytes), lanes rising, into a physical register, lane width in bits -/
  | vload (reg : Nat) (width : Nat) (lanes : List (Nat × Nat))
  | store (data : List Byte)
  /-- a vector store: whole bytes, then bytes with one active nibble as (address, bits written, value) -/
  | vstore (writes : List (Nat × List Byte)) (half : List (Nat × Byte × Byte))
  /-- FENCE with its ORD (R111) -/
  | fence (ord : Nat)
deriving DecidableEq, Repr

/-- An access issued and not yet performed (R109, R269). -/
structure Access where
  id : Nat
  seq : SeqId
  slot : Nat
  kind : AccessKind
  space : Space
  addr : Nat
  bytes : Nat
  scope : Scope
  acquire : Bool
  release : Bool
  /-- accesses that must be performed first -/
  after : List Nat
  /-- MARKs of the own sequencer before it (R112) -/
  marks : Nat
  pc : Word
  /-- a vector store's data has been read by its command -/
  filled : Bool
  /-- last cycle in which a load with a fixed latency may be answered (R241) -/
  deadline : Option Nat
  /-- runs of physical bytes that it reaches, found at issue (R267, R269) -/
  phys : List (Nat × Nat)
  /-- remote and host writes that a release beyond the core has behind it (R273, R352) -/
  behind : List Nat
deriving DecidableEq, Repr

/-- An entry of a branch-outcome queue (R40): the first cycle in which it can be popped (R241), the outcome, the accesses that come before it
(R270), and the cycle and sequencer of its push (R41). -/
structure BranchOutcome where
  ready : Nat
  taken : Bool
  deps : List Nat
  cycle : Nat
  seq : SeqId
deriving DecidableEq, Repr

/-- Outcome of a command that has been performed: its status and value (R184). -/
structure CmdResult where
  status : Status
  value : Nat
deriving DecidableEq, Repr

/-- A token (R40, R78): the first cycle in which it can be popped, the accesses that must be performed before its pop (R270), and
those among them that its own word made, before which it has not been pushed (R241). -/
structure Token where
  ready : Nat
  deps : List Nat
  own : List Nat
deriving DecidableEq, Repr

/-- A run of up to 512 bytes within one aligned block that an engine writes elsewhere (R349), with ITER and slot of the issue that makes it, or
the index of its first unit (R368). -/
structure Piece where
  iter : Nat
  slot : Nat
  addr : Nat
  data : List Byte
deriving DecidableEq, Repr

/-- A command in an engine FIFO: the word or record, who issued it, and the values read at acceptance (R92, R183). -/
structure Command where
  id : Nat
  instr : Instr
  seq : SeqId
  slot : Nat
  pc : Word
  /-- acceptance cycle (R254) -/
  cycle : Nat
  /-- cycle of the first issue in a FIXED region (R247) -/
  due : Option Nat
  /-- g-register values read at acceptance, in the order of the instruction's description -/
  vals : List Word
  mask : Mask
  rrb : BitVec 9
  /-- slot count W (R92) -/
  w : Nat
  /-- bytes or indices read at acceptance -/
  copy : List Byte
  /-- word index of a REMQ block (R317) -/
  remote : Option Nat
  /-- command group of the tile (dropped commands count as completed) -/
  started : Bool
  /-- issues performed -/
  iter : Nat
  /-- phase of a command performed in several steps -/
  phase : Nat
  /-- performed, with its result -/
  result : Option CmdResult
  /-- first cycle in which a reader may have its result: it completes in the cycle before or later (R173) -/
  nextCycle : Nat
  /-- the sequencer's accesses that were unperformed at acceptance (R270, R277) -/
  waits : List Nat
  /-- the accesses that the command's own word made (R147) -/
  own : List Nat
  /-- writes to another device or the host that wait for entries of the remote-write buffer, in the order of their units (R349) -/
  out : List Piece
  /-- the fault that ends the command once what came before it has landed (R93, R186) -/
  failed : Option FaultInfo
  /-- held with a slot and issued at RKCOMMIT (R209): a word, or one issue of a record -/
  single : Bool
  /-- the place in a queue that it waits for, and the cycle in which the wait began (R244) -/
  waitSince : Option (Nat × Nat)
  /-- remote and host writes that its push, a release, has behind it (R273, R277, R352) -/
  behind : List Nat
  /-- runs of physical bytes that it has written to this device's memory (R278) -/
  wrote : List (Nat × Nat)
  /-- operands whose SLOT bit is 0, as read for the present iteration vector (R92): operand and register contents -/
  shared : List (Nat × VReg)
deriving DecidableEq, Repr

/-- A FIFO stopped by a reported fault (R365): the command it pushes FAULTED for, none where no command of it had the fault (R177), and
the log index. -/
structure Stopped where
  command : Option Command
  logIndex : Nat
  /-- the handler has executed ERET and the FAULTED entry waits for room -/
  resumed : Bool
deriving DecidableEq, Repr

/-- Who holds a range (R253). -/
inductive RangeOwner where
  | command (id : Nat)
  | block (slot : Nat)
  | notice (entry : Nat)
  | counter (n : Nat)
  | remq (target : Nat) (id : Nat)
deriving DecidableEq, Repr

/-- An entry of the range scoreboard (R253, R254): it acts from the cycle after `cycle`. -/
structure Range where
  owner : RangeOwner
  space : Space
  lo : Nat
  len : Nat
  loads : Bool
  cycle : Nat
  /-- cycle of its release: accesses that wait for it go on in the cycle after (R254) -/
  gone : Option Nat
deriving DecidableEq, Repr

/-- A write to a vector register in the present cycle: its cycle, register and writer, what the writer found, what it left, and
the bytes that it wrote (R31). -/
structure VWrite where
  cycle : Nat
  reg : Nat
  seq : SeqId
  old : VReg
  new : VReg
  bytes : BitVec 512
deriving DecidableEq, Repr

/-- What the combiner keeps for an event to come (R43): engines that take part, whose NOTIFY has been accepted, whose NOTIFY has
retired. -/
structure Generation where
  participating : BitVec 5
  notified : BitVec 5
  reached : BitVec 5
deriving DecidableEq, Repr

/-- An entry of the deferral queue (R151). -/
structure Deferred where
  value : VReg
  width : Nat
  set : Mask
deriving DecidableEq, Repr

/-- A remote command inbox entry (R42, R316, R317) and how far it has been served. -/
structure RemoteBlock where
  source : Nat
  offset : Nat
  /-- number of the range entry at the source -/
  id : Nat
  /-- bytes read so far -/
  bytes : List Byte
  /-- words entered into FIFOs -/
  entered : Nat
  /-- the FIFO in which its next word waits for room, and the cycle in which the wait began (R244) -/
  since : Option (Nat × Nat)
deriving DecidableEq, Repr

/-- States of a notice in an inbox (R196). -/
inductive NoticeState where
  | waiting | pulling | landed | taken
deriving DecidableEq, Repr

/-- A notice in an inbox (R196, R283 to R288). -/
structure Notice where
  entry : Nat
  bits : BitVec 128
  /-- device of the producer -/
  dev : Nat
  asid : Nat
  /-- tick of arrival ta (R285) -/
  arrived : Nat
  /-- arrival order within the inbox -/
  order : Nat
  state : NoticeState
  /-- window offset reserved -/
  window : Nat
  /-- landed size -/
  size : Nat
  /-- segments requested, segments landed -/
  requested : Nat
  landed : Nat
  withdrawn : Bool
  ripe : Bool
deriving DecidableEq, Repr

/-- A published block (R194, R299). -/
structure Block where
  pinned : Bool
  /-- the slot has been entered since the wipe (R299) -/
  used : Bool
  generation : BitVec 9
  /-- generation of the slot's latest entry: above the block's own where another tile has entered the slot while this block's was
  pre-empted (R299) -/
  latest : BitVec 9
  kind : Nat
  /-- scratchpad offset, physical address or tile -/
  addr : Nat
  /-- virtual address of a KIND 1 block -/
  vaddr : Nat
  size : Nat
  count : Nat
  consumers : List (Nat × Nat)
  deadline : Nat
  expired : Bool
  /-- bytes of a tile drained for KIND 2 -/
  tile : Nat
  /-- number of the port command that published it, its sequencer and its place (R364, R368) -/
  command : Nat
  seq : SeqId
  pc : Word
  /-- consumers on other devices of which no notice has been told to have entered, or to have been declined (R290, R355) -/
  awaiting : List Nat
  /-- 1 + the cycle in which a RECLAIM freed the slot (R199) -/
  freedAt : Nat
deriving DecidableEq, Repr

/-- A ready counter (R202). -/
structure ReadyCounter where
  armed : Bool
  base : Nat
  words : Nat
  arrived : Nat
  op : Nat
  type : BitVec 4
  flag : Bool
deriving DecidableEq, Repr

/-- A posted write to another device or the host, not yet acknowledged (R349). -/
structure RemoteWrite where
  id : Nat
  entry : Nat
  addr : Nat
  data : List Byte
  /-- issuing sequencer, or the engine port -/
  port : Nat
  seq : SeqId
  pc : Word
  command : Option Nat
  /-- the vector memory record that made it (R352) -/
  record : Option Nat
  /-- ITER and slot of the issue that made it, or the unit's index (R368, R376) -/
  iter : Nat
  slot : Nat
  /-- the write offer has been made (R350 step 1), and bytes that the home has been given (step 3) -/
  sent : Bool
  given : Nat
  /-- offsets into the data that are not written -/
  holes : List Nat
deriving DecidableEq, Repr

/-- A pull request of at most 512 bytes that a read of another device or of the host makes (R26, R354): the number of its load or command,
the bytes, whether the request has left, and its answer: the bytes, or why there are none. -/
structure RemoteRead where
  owner : Nat
  addr : Nat
  bytes : Nat
  asked : Bool
  data : Option (List Byte)
  lost : Option FaultInfo
deriving DecidableEq, Repr

/-- A TLB entry: a valid leaf translation (R325). -/
structure TlbEntry where
  asid : Nat
  /-- page number at the page's size -/
  vpage : Nat
  /-- log2 of the page's size: 16, 21 or 30 -/
  shift : Nat
  frame : Nat
  r : Bool
  w : Bool
  x : Bool
deriving DecidableEq, Repr

/-- A stored group of bytes of a Reckoner slot's store buffer (R234), in writing order. -/
structure SlotStore where
  slot : Nat
  space : Space
  addr : Nat
  data : List Byte
deriving DecidableEq, Repr

/-- A slot of the Reckoner (R231): slot 0 uses the architectural state. -/
structure Slot where
  g : Table Word
  v : Table (Option VReg)
  em : Option Mask
  cm : Option Mask
  k : Table (Option Mask)
  fflags : BitVec 5
  aovf : Bool
  deferred : List Command
  fault : Option FaultInfo
  faultPc : Word
  /-- the engine that found it, 7 for the sequencer, and the sequencer whose word or record it was -/
  faultUnit : Nat
  faultSeq : SeqId
deriving DecidableEq, Repr

/-- An append of the present round (R234, R237): its tag, its chart, and what it changed, to be undone. -/
structure Append where
  tag : Nat
  chart : Nat
  /-- its pool descriptor -/
  pool : Nat
  /-- (physical address, earlier bytes), the latest first -/
  undo : List (Nat × List Byte)
  /-- pages taken from the free list, in order -/
  pages : List Nat
deriving DecidableEq, Repr

/-- States of the Reckoner (R231). -/
inductive RoundState where
  | closed | guessing | running
deriving DecidableEq, Repr

/-- The Reckoner's round (R231 to R237). -/
structure Round where
  st : RoundState
  w : Nat
  acc : Nat
  epoch : BitVec 12
  owner : SeqId
  sq : BitVec 8
  matched : BitVec 8
  /-- carried registers: bit n of G(GC) -/
  carried : Word
  /-- PC of RKBEGIN and of the routine -/
  pc : Word
  routine : Word
  /-- the guess being made, 1 to W - 1, and the shadow-stack depth of its entry -/
  run : Nat
  depth : Nat
  carries0 : Table Word
  guesses : Table (Table Word)
  confirmed : Bool
  slots : Table Slot
  stores : List SlotStore
  appends : List Append
  /-- slot whose copy of the owner's present word acts next; 0 before the word's first copy -/
  nextSlot : Nat
  /-- where slot 0 goes after the present word, and whether that is a taken transfer -/
  target0 : Word
  taken0 : Bool
  /-- outcome that slot 0's BRQ popped (R233) -/
  outcome : Bool
  /-- a word between whose copies a trap has been taken: its place, the copy that acts next, and what its copies share (R233, R292) -/
  interrupted : Option (Word × Nat × Word × Bool × Bool)
  /-- results held until the round closes: slot, engine port, entry (R346) -/
  heldResults : List (Nat × Nat × Word)
  /-- RKCOMMIT has begun to apply slots, and goes on as places come free (R237) -/
  closing : Bool
deriving DecidableEq, Repr

/-- A landed collective segment (R202): ready counter, scratchpad offset, bytes, source core, the cycle in which it landed, and the cycle after
which its write port works on it (R296). -/
structure Landed where
  counter : Nat
  offset : Nat
  data : List Byte
  source : Nat
  cycle : Nat
  start : Nat
deriving DecidableEq, Repr

/-- The Helm's own state (R284 to R288), the drain-staging buffer (R297) and the accumulate-on-write ports (R296). -/
structure Helm where
  lastRequest : Option Nat
  /-- requests outstanding, in request order: inbox entry and segment -/
  queue : List (Nat × Nat)
  staging : Memory
  nextOrder : Nat
  /-- first tick of the present window (R303) -/
  windowFrom : Nat
  /-- landed collective segments not yet applied -/
  applying : List Landed
deriving DecidableEq, Repr

/-- An armed tile (R176): arrivals to come and the barrier's offset. -/
structure Arm where
  left : Nat
  barrier : Nat
deriving DecidableEq, Repr

/-- The tile resident on a core (R314, R318). -/
structure Tile where
  queue : Nat
  lseq : Nat
  /-- place in walk order -/
  index : Nat
  asid : Nat
  prio : Nat
  dispatch : Nat
  yielded : Bool
  /-- queues that have been dispatchable ever since its last YIELD (R318) -/
  yieldedFor : List Nat
  /-- ends by fault at the next boundary (R370) -/
  dead : Bool
  /-- stopping for pre-emption (R319) or for ABORT (R321) -/
  stopping : Bool
  killed : Bool
deriving DecidableEq, Repr

/-- Configurations of the accumulator array (R34). -/
inductive AccConf where
  | fp | exact | count
deriving DecidableEq, Repr

/-- One core (R27 to R45). -/
structure Core where
  seqC : Sequencer
  seqL : Sequencer
  seqX : Sequencer
  seqS : Sequencer
  v : Table VReg
  em : Mask
  cm : Mask
  k : Table Mask
  rrb : BitVec 9
  fflags : BitVec 5
  frm : BitVec 2
  aovf : Bool
  domain : BitVec 8
  helmcfg : BitVec 53
  pwincfg : BitVec 40
  conf : AccConf
  eb : BitVec 9
  /-- element r, c of tile t under key 4096 t + 64 r + c (32 r + c in COUNT); FP32 in the low 32 bits -/
  acc : Table (BitVec 96)
  /-- counter of output o and bin b under key 64 o + b -/
  counters : Table (BitVec 18)
  /-- combination of the live bank (R166): signedness of A and B -/
  combination : Option (Nat × Nat)
  live : BitVec 12
  armed : Table (Option Arm)
  /-- run of MMA issues in the array (R163): types 16 TA + TB, first cycle, issues -/
  mmaRun : Option (Nat × Nat × Nat)
  /-- first cycle in which a tile, or under key 12 the counter bank, may be read (R173) -/
  tready : Table Nat
  /-- bank groups, each with a cycle in which the matrix engine reads it, and one in which the vector unit uses it (R38, R134, R283) -/
  mbanks : List (Nat × Nat)
  vbanks : List (Nat × Nat)
  /-- peer arrivals of the present cycle, as (cycle, tile, source core) (R65, R177) -/
  arrivals : List (Nat × Nat × Nat)
  cwb : BitVec 10
  cbound : BitVec 17
  cdrains : Word
  fmt : Table (BitVec 32)
  granules : BitVec 5
  spad : Memory
  l1 : List L1Line
  l1Clock : Nat
  /-- queue 3 source + rank of destination -/
  tokens : Table (List Token)
  /-- places reserved by commands not yet complete (R78) -/
  reserved : Table Nat
  /-- data-queue entries, each with the first cycle in which it can be popped and the accesses that must be performed before (R40,
  R134, R270) -/
  dataLX : List (VReg × Nat × List Nat)
  dataXS : List (VReg × Nat × List Nat)
  /-- branch-outcome queues, by owner -/
  outcomes : Table (List BranchOutcome)
  /-- by port: 0 transfer, 1 port, 2 collective, 3 matrix, 4 to 6 the vector sub-queues of L, X, S, 7 NOTIFY place -/
  fifos : Table (List Command)
  results : Table (List Word)
  /-- the commands whose entries those are, in the same order (R277) -/
  resultOf : Table (List Nat)
  stopped : Table (Option Stopped)
  /-- first cycle in which a port can begin its next issue (R134, R173) -/
  portFree : Table Nat
  /-- by 2048 sequencer + physical register, + 1024 for CM, or + 1025 for the deferral queue: first cycle in which the sequencer's later words
  may read it (R134) -/
  vready : Table Nat
  /-- writes to vector registers in the present cycle, oldest first (R31) -/
  vlog : List VWrite
  /-- cycle in which engines and other words last raised flags, AOVF or automatic drains, and what they raised (R46) -/
  raisedAt : Nat
  raisedFlags : BitVec 5
  raisedAovf : Bool
  raisedDrains : Nat
  /-- cycle of the last write to DOMAIN and what stood before it (R46) -/
  domainBefore : Option (Nat × BitVec 8)
  /-- by port: 1 + the cycle in which the engine last took it up (R41, R252) -/
  portAt : Table Nat
  /-- cycle since which every party of the core waits for a queue of the core (R251) -/
  stuckSince : Option Nat
  deferral : List Deferred
  inbox : List RemoteBlock
  notices : List Notice
  helm : Helm
  participating : BitVec 5
  reached : BitVec 5
  /-- engines whose NOTIFY for the present event has been accepted, and the events after it (R43) -/
  notified : BitVec 5
  later : List Generation
  /-- ticks of raised completion events not yet taken (R125) -/
  events : List Nat
  blocks : Table Block
  ranges : List Range
  posted : List RemoteWrite
  /-- reads of other devices and of the host by pull requests, in request order (R354) -/
  reads : List RemoteRead
  loads : List Access
  stores : List Access
  counters32 : Table ReadyCounter
  routing : Table (BitVec 32)
  phase : Word
  /-- LEEWAY has raised the count and is waiting (R122) -/
  leewayWait : Bool
  round : Round
  tile : Option Tile
  /-- launch of the core's previous tile (R314) -/
  lastLaunch : Option (Nat × Nat)
  tlb : List TlbEntry
  /-- pages whose walk failed, by ASID and page, with the fault of a table that could not be read, for the word that waits on it (R323, R372) -/
  walkFaults : List (Nat × Nat × Option FaultInfo)
deriving DecidableEq, Repr

/-! ### The device's parts -/

/-- A Meridian group of a die (R116). -/
structure Group where
  mask : BitVec 128
  gen : BitVec 32
  arrived : BitVec 128
  /-- members whose tile has ended: they count as arrived (R256, R374) -/
  ended : BitVec 128
  /-- membership change held until the generation completes -/
  held : Option (BitVec 128)
deriving DecidableEq, Repr

/-- A page-table walk in progress or waiting for a walker (R325). -/
structure Walk where
  id : Nat
  core : Nat
  asid : Nat
  va : Nat
  running : Bool
deriving DecidableEq, Repr

/-- States of a queue (R305). -/
inductive QueueState where
  | disabled | enabled | draining | aborting | faulted
deriving DecidableEq, Repr

/-- The registers of one work queue (R304, R305) and the arbiter's words about it (R312, R313). -/
structure Queue where
  qbase : Word
  qsize : BitVec 24
  qrd : BitVec 24
  qwr : BitVec 24
  cbase : Word
  cent : BitVec 17
  qcfg : BitVec 40
  ctxbase : BitVec 52
  lseq : BitVec 32
  fault : Nat
  state : QueueState
  deficit : Nat
  served : Nat
  /-- the pull of the packet at an address of the host or of another device, and its bytes (R360) -/
  pull : Option (Nat × Option (List Byte))
deriving DecidableEq, Repr

/-- A launch read and not yet complete (R307 to R314). -/
structure Launch where
  queue : Nat
  lseq : Nat
  packet : List Byte
  /-- next tile in walk order -/
  next : Nat
  running : Nat
  /-- walk indices of tiles that ended normally -/
  done : List Nat
  faulted : Bool
  aborted : Bool
  /-- refused with a status before any dispatch: 4 or 5 -/
  refusedWith : Nat
  tstart : Option Nat
  nfault : Nat
  /-- dies on which its Meridian group has been set, or a change asked for (R314) -/
  dies : List Nat
deriving DecidableEq, Repr

/-- A posted write of a queue into its completion ring, which lies elsewhere (R310, R360): its entry, the bytes, those that the home has been
given, and the launch that completes with it. -/
structure RecordWrite where
  entry : Nat
  addr : Nat
  data : List Byte
  given : Nat
  launch : Option (Nat × Nat)
deriving DecidableEq, Repr

/-- A pre-empted tile's saved state (R319), in a context slot of its queue. -/
structure SavedContext where
  queue : Nat
  slot : Nat
  number : Nat
  /-- cycle of the save, by which the saved cycles are shifted on resumption -/
  cycle : Nat
  state : Core
deriving DecidableEq, Repr

/-- The four classes of traffic (R291). -/
inductive Class where
  | notices | requests | responses | control
deriving DecidableEq, Repr

/-- Messages on their way (R283, R291, R295, R350). A consumer is core + 512 device; `dev` is the producer's, or a write's writer's. -/
inductive Message where
  /-- a notice with its envelope: the producer's ASID; held by the fabric since a tick (R290); withdrawn on its way (R283) -/
  | notice (bits : BitVec 128) (consumer : Nat) (dev : Nat) (asid : Nat) (held : Option Nat) (withdrawn : Bool)
  /-- a notice of another device is held no longer: it has entered (R290, R355) -/
  | entered (bits : BitVec 128) (dev : Nat) (consumer : Nat)
  | request (bits : BitVec 128) (dev : Nat) (consumer : Nat) (entry : Nat) (segment : Nat)
  | response (bits : BitVec 128) (dev : Nat) (consumer : Nat) (entry : Nat) (segment : Nat) (data : List Byte) (withdrawn : Bool)
  | completion (bits : BitVec 128) (dev : Nat) (consumer : Nat)
  | decline (bits : BitVec 128) (dev : Nat) (consumer : Nat)
  /-- a producer's withdrawal; it has come before the notice (R283) -/
  | withdrawal (bits : BitVec 128) (dev : Nat) (consumer : Nat) (early : Bool)
  /-- a posted write: its offer, the pull of a segment of it, the segment's bytes, and the home's answer, with its writer's device, core and
  entry (R350) -/
  | offer (addr : Nat) (dev : Nat) (core : Nat) (entry : Nat)
  | pull (home : Nat) (dev : Nat) (core : Nat) (entry : Nat) (bytes : Nat)
  | bytes (addr : Nat) (dev : Nat) (core : Nat) (entry : Nat) (bytes : Nat)
  | ack (home : Nat) (dev : Nat) (core : Nat) (entry : Nat) (answer : HomeAnswer)
  /-- another device's message on its way through this one: destination, origin, class and flits (R357) -/
  | transit (dest : Nat) (origin : Nat) (cls : Class) (flits : Nat)
  /-- a message on its way back to its origin, with INFO of the port that returned it (R357, R374) -/
  | undelivered (m : Message) (info : Nat)
deriving DecidableEq, Repr

/-- A message at this device: when it was sent, or came in, the links that it has crossed, and the port in whose buffer it stands (R356). -/
structure Post where
  id : Nat
  msg : Message
  sent : Nat
  hops : Nat
  came : Option Nat
deriving DecidableEq, Repr

/-- A message that leaves through a port: hop lane and class as 8 class + lane, flits, and those that the peer has accepted (R356, R374). -/
structure Sending where
  msg : Message
  lane : Nat
  flits : Nat
  accepted : Nat
deriving DecidableEq, Repr

/-- An answer given to a write: the writer's device, core and entry, and whether it was performed or which check failed (R350 step 5). -/
structure Acknowledged where
  dev : Nat
  core : Nat
  entry : Nat
  answer : HomeAnswer
deriving DecidableEq, Repr

/-- States of a link port (R358, R393). -/
inductive PortState where
  | down | training | up | fenced
deriving DecidableEq, Repr

/-- A write offer at a port, and its place in the order of arrival (R351, R358, R359). -/
structure Offered where
  offer : WriteOffer
  order : Nat
deriving DecidableEq, Repr

/-- One link port (R351, R358, R374, R393). -/
structure Port where
  pcfg : Word
  state : PortState
  /-- peer device read at training -/
  peer : Nat
  /-- write offers in arrival order, bytes of the first one that have been asked for, offers asked for whole, segments asked for as device,
  core, entry and bytes, and offers whose bytes have come (R351) -/
  offers : List Offered
  progress : Nat
  asked : List Offered
  pulls : List (Nat × Nat × Nat × Nat)
  pulled : List Offered
  /-- tick of the last pull -/
  lastPull : Option Nat
  /-- host writes that this device forwards and that are not yet acknowledged, with the bytes that the home has been given (R359) -/
  forwarded : List (WriteOffer × Nat)
  /-- messages that leave, whose flits the peer has not all accepted yet (R374), and by lane the flits sent against credits that have not come
  back (R356, R357) -/
  sending : List Sending
  used : Table Nat
  /-- flits resent, of them successively of one flit, and the tick of the peer's last credit (R358, R374) -/
  replays : Nat
  errors : Nat
  credit : Nat
  trainStart : Nat
  /-- answers given to reads that arrived here, latest last; none for a read that cannot be served (R354, R359) -/
  answers : List (Option (List Byte))
  /-- answers given to write offers -/
  acks : List Acknowledged
deriving DecidableEq, Repr

/-- Clock and split settings of a die (R20, R21, R392). -/
structure Clock where
  d : Nat
  k : Nat
  pending : Option (Nat × Nat)
deriving DecidableEq, Repr

/-- The checkpoint engine (R377 to R379). -/
inductive CheckpointState where
  | idle | quiescing | copying | done | error
deriving DecidableEq, Repr

/-- Registers of faults and recovery (R366). -/
structure FaultRegs where
  flbase : Word
  flsize : BitVec 17
  flwr : BitVec 32
  flrd : BitVec 32
  fllost : Word
  stklim : BitVec 16
  fcore : BitVec 512
  fclu : BitVec 32
  fstack : BitVec 24
  funit : BitVec 256
  /-- stack s: corrected, uncorrectable, retired frames -/
  ecnt : Table (Nat × Nat × Nat)
  eclu : Table (Nat × Nat)
  /-- die-to-die bridges that are fenced (R372) -/
  bridges : BitVec 4
deriving DecidableEq, Repr

/-- A context slot in HBM since a context was written into it (R319): its first byte's address, the number of the writing, and
the bytes written over it since. The layout of a context is the part's own. -/
structure Area where
  base : Nat
  number : Nat
  bytes : List (Nat × Byte)
deriving DecidableEq, Repr

/-- Checkpoint registers and progress (R366, R377). -/
structure Checkpoint where
  dst : Word
  state : CheckpointState
  restoring : Bool
  frames : Nat
  bad : Nat
  seqno : BitVec 32
  time : Word
  start : Nat
  /-- HBM as it stood when quiescing ended, with the context slots in it (R377) -/
  image : Memory
  areas : List Area
deriving DecidableEq, Repr

/-- Life-cycle states (R382, R384). -/
inductive LifeCycle where
  | manufacture | provisioned | deployed | rma | scrapped
deriving DecidableEq, Repr

/-- The trust controller (R380 to R388). -/
structure Trust where
  lcstate : LifeCycle
  svn : Nat
  /-- refusal reason in bits 15:8, outcome in bits 1:0 -/
  bootst : Nat
  nonce : Word
  tokaddr : Word
  /-- result of the last command, and the one written and not yet carried out: operation and ASID -/
  tcmd : Nat
  busy : Option (Nat × Nat)
  aidx : Nat
  serial : BitVec 128
  /-- the fused SHAKE256 digest of the vendor's XMSS public key (R381) -/
  vendorDigest : List Byte
  wiping : Bool
  pendingWipe : Bool
  /-- per-context keys by ASID, and the slots that hold one -/
  keys : Table (List Byte)
  installed : List Nat
  /-- the key store: the attestation seeds, the seeds of the ML-KEM pair, and the checkpoint key; empty for none -/
  seeds : List Byte
  mlkem : List Byte
  checkpointKey : List Byte
  /-- SHAKE256 digest of the accepted firmware image (R383) -/
  measurement : List Byte
  /-- draws from the entropy source -/
  draws : Nat
deriving DecidableEq, Repr

/-- Management and bring-up (R389 to R396). -/
structure Management where
  sfctl : Word
  asidbase : Word
  rosbase : Word
  clocks : Table Clock
  pwrcap : Nat
  pwrnow : Nat
  /-- milliseconds spent throttling (PWRSTAT bits 63:32) -/
  throttledMs : Nat
  /-- flow in bits 31:16, inlet in bits 15:8, junction in bits 7:0 -/
  temp : Nat
  /-- junction temperatures of the four dies (R396) -/
  junctions : List Nat
  /-- the last nine readings of the power, the latest first (R394) -/
  powers : List Nat
  throttled : Bool
  /-- the temperature is the reason -/
  thermal : Bool
  /-- the module stands in reset for heat (R395) -/
  thermalHold : Bool
  /-- tick of the power manager's last check -/
  checkAt : Nat
  /-- last step of R391 that has ended, 0 to 6 -/
  bringUp : Nat
  /-- the module has power (R385) -/
  powered : Bool
  /-- answers given to PLDM sensor requests, latest last (R396) -/
  sensors : List Nat
deriving DecidableEq, Repr

/-- Shard registers and work (R336 to R343). -/
structure Shards where
  wsbase : Word
  wscnt : Nat
  wpatrol : Nat
  wcmd : Nat
  /-- the command written and not yet carried out: operation and entry (R336) -/
  busy : Option (Nat × Nat)
  wfence : BitVec 256
  /-- frames that carry a shard tag, with their entry -/
  tags : Table (Option Nat)
  /-- entry: landed blocks of a loading shard -/
  landed : Table (List Nat)
  /-- tick at which the last patrol pass began (R341) -/
  patrolAt : Nat
deriving DecidableEq, Repr

/-- What the part does next; the schedule that the manual leaves open. -/
inductive Turn where
  /-- a sequencer takes up its next word -/
  | seq (core : Nat) (seq : SeqId)
  /-- one of the table's steps of the part -/
  | event (i : Instr)
  /-- a sequencer's fetch reads a line ahead (R248) -/
  | fetchAhead (core : Nat) (seq : SeqId)
  /-- an L2 byte passes to HBM (R264) -/
  | l2WriteBack (addr : Nat)
  /-- a message of another device, which has crossed some links, comes in over a port (R355, R357) -/
  | fromOutside (port hops : Nat) (m : Message)
  /-- the peer of a port accepts the next flit, and a credit for a lane comes back (R356, R374) -/
  | flitAccepted (port : Nat)
  | linkCredit (port lane : Nat)
  /-- another device's AMO or CAS on a local address: operation as in AOP, 9 for CAS, bytes, and the operands (R348) -/
  | remoteAtomic (port addr bytes op b c : Nat)
  /-- a fenced port is unfenced (R375) -/
  | portUnfence (port : Nat)
  /-- the host, or another device, answers the pull of a queue's packet (R360) -/
  | ringAnswer (queue : Nat)
  /-- the next step of bring-up ends (R391) -/
  | bringUp
  /-- another device, or the host, answers the n-th read of a core (R26, R354) -/
  | readAnswer (core n : Nat)
  /-- a party outside the device changes bytes of its own memory, up to an aligned 8 of them at once (R347, R348) -/
  | outsideWrite (addr : Nat) (data : List Byte)
  /-- nothing -/
  | idle
deriving DecidableEq, Repr, Inhabited

/-- Whose word is being carried out: core, sequencer, Reckoner slot. -/
structure Cursor where
  core : Nat
  seq : SeqId
  slot : Nat
deriving DecidableEq, Repr

end Sys2Proof.Machine

namespace Sys2Proof.Machine

/-- The whole machine: one KD5-M512 module, and this model's schedule. -/
structure State where
  /-- the Chronometer (R22) -/
  chron : Word
  cores : Table Core
  /-- Meridian groups: key 32 die + group (R116) -/
  groups : Table Group
  /-- Leeway counts of clusters as their neighbours see them, key 32 reader + source: for each launch, by queue and LSEQ, its count
  (R122, R257) -/
  leeway : Table (List ((Nat × Nat) × Nat))
  /-- by cluster: 1 + the tick of its first change of a count that its neighbours do not see yet (R257) -/
  leewayDue : Table Nat
  clusterTlb : Table (List TlbEntry)
  dieTlb : Table (List TlbEntry)
  walks : List Walk
  hbm : Memory
  /-- bytes held by the L2 that HBM does not have yet (R264) -/
  l2 : List (Nat × Byte)
  /-- context slots whose bytes are the part's own (R319) -/
  areas : List Area
  /-- retired L2 ways and HBM frames (R372) -/
  retiredWays : List Nat
  retiredFrames : List Nat
  /-- L2 lines whose next reader meets an uncorrectable error: line address and way (R372) -/
  poisoned : List (Nat × Nat)
  /-- base-die units with an uncorrectable error that no command has met yet (R204) -/
  unitErrors : List Nat
  /-- memory of the host and of other devices, by 52-bit physical address (R347) -/
  outside : Memory
  queues : Table Queue
  launches : List Launch
  pointers : Table Nat
  decisions : Nat
  contexts : List SavedContext
  /-- posted writes of the queues (R360) -/
  records : List RecordWrite
  tiasid : BitVec 8
  tiva : Word
  /-- the invalidation under way: ASID, address and bytes as they stood at its start (R325) -/
  tigo : Option (Nat × Nat × Nat)
  posts : List Post
  shards : Shards
  devnum : Nat
  hostdev : Nat
  routes : Table (BitVec 24)
  ports : Table Port
  faults : FaultRegs
  checkpoint : Checkpoint
  trust : Trust
  mgmt : Management
  /-- the model's own: the turns to come, the word being carried out, and counters of turns, free values and numbers -/
  agenda : List Turn
  cur : Cursor
  clock : Nat
  freeCtr : Nat
  nextId : Nat
  /-- the model's own: runs of bytes that the engine's turn under way has written; none between turns (R278) -/
  noted : List (Nat × Nat)
deriving DecidableEq, Repr

/-- Why a step stops the machine with a fault. -/
inductive Fault where
  /-- Raised by `step` and `exec` when a turn names a core, queue, port, die or other unit that the part does not have
  (R15, R19, R24). Safe: the part has no such step. -/
  | noSuchUnit
deriving DecidableEq, Repr

/-- Why a step has no meaning. -/
inductive Refusal where
  /-- Raised by an arm of `exec` whose instruction has no meaning in this model yet. Safe: nothing is claimed of it. -/
  | notModelled (mnemonic : String)
deriving DecidableEq, Repr

/-! ### Reset (R47, R304, R336, R358, R366, R382, R389) -/

/-- A sequencer after reset (R47). (DESIGN CHOICE, log 2) -/
def Sequencer.reset : Sequencer :=
  { pc := 0, g := [], shadow := [], sg := 0, tvec := 0, epc := 0, ecause := 0, halted := false, inHandler := false, recovery := 0,
    resumes := [], ready := [], outstanding := [], lastIssue := none, lastM := none, segment := none, poppedAt := none, scattered := 0, drain := none,
    waitSince := none, waitOn := none, turnAt := none, turns := 0, inherits := [], marks := [], loadAfter := [], storeAfter := [], lines := [], pending := [] }

def Slot.empty : Slot :=
  { g := [], v := [], em := none, cm := none, k := [], fflags := 0, aovf := false, deferred := [], fault := none, faultPc := 0, faultUnit := 7, faultSeq := .c }

def Round.closed : Round :=
  { st := .closed, w := 0, acc := 0, epoch := 0, owner := .c, sq := 0, matched := 0, carried := 0, pc := 0, routine := 0,
    run := 0, depth := 0, carries0 := [], guesses := [], confirmed := false, slots := [], stores := [], appends := [],
    nextSlot := 0, target0 := 0, taken0 := false, outcome := false, interrupted := none, heldResults := [], closing := false }

def Helm.reset : Helm := { lastRequest := none, queue := [], staging := [], nextOrder := 0, windowFrom := 0, applying := [] }

def Block.free : Block :=
  { pinned := false, used := false, generation := 0, latest := 0, kind := 0, addr := 0, vaddr := 0, size := 0, count := 0, consumers := [],
    deadline := 0, expired := false, tile := 0, command := 0, seq := .c, pc := 0, awaiting := [], freedAt := 0 }

def ReadyCounter.clear : ReadyCounter :=
  { armed := false, base := 0, words := 0, arrived := 0, op := 0, type := 0, flag := false }

/-- DOMAIN 0xF0; HELMCFG with PACE 3, AGE 0x400, INGR 0x2000 (R44, R45). (DESIGN CHOICE, log 2) -/
def Core.reset : Core :=
  { seqC := .reset, seqL := .reset, seqX := .reset, seqS := .reset, v := [], em := 0, cm := 0, k := [], rrb := 0,
    fflags := 0, frm := 0, aovf := false, domain := 0xF0#8,
    helmcfg := BitVec.ofNat 53 (3 * 2 ^ 36 + 0x400 * 2 ^ 20 + 0x2000), pwincfg := 0,
    conf := .fp, eb := 0, acc := [], counters := [], combination := none, live := 0, armed := [], mmaRun := none, tready := [], mbanks := [], vbanks := [], arrivals := [], cwb := 0, cbound := 0,
    cdrains := 0, fmt := [], granules := 0, spad := [], l1 := [], l1Clock := 0, tokens := [], reserved := [],
    dataLX := [], dataXS := [], outcomes := [], fifos := [], results := [], resultOf := [], stopped := [], portFree := [],
    vready := [], vlog := [], raisedAt := 0, raisedFlags := 0, raisedAovf := false, raisedDrains := 0, domainBefore := none, portAt := [],
    stuckSince := none, deferral := [], inbox := [],
    notices := [], helm := .reset, participating := 0, reached := 0, notified := 0, later := [], events := [], blocks := [], ranges := [],
    posted := [], reads := [], loads := [], stores := [], counters32 := [], routing := [], phase := 0, leewayWait := false,
    round := .closed, tile := none, lastLaunch := none, tlb := [], walkFaults := [] }

def Group.reset : Group := { mask := 0, gen := 0, arrived := 0, ended := 0, held := none }

/-- QCFG resets to 0x0001_0000, WEIGHT 1 (R304, R305). -/
def Queue.reset : Queue :=
  { qbase := 0, qsize := 0, qrd := 0, qwr := 0, cbase := 0, cent := 0, qcfg := 0x10000#40, ctxbase := 0, lseq := 0,
    fault := 0, state := .disabled, deficit := 0, served := 0, pull := none }

/-- PCFG resets to 0x0000_2000_0003_0000 and the port is down (R358). -/
def Port.reset : Port :=
  { pcfg := 0x0000200000030000#64, state := .down, peer := 0, offers := [], progress := 0, asked := [], pulls := [], pulled := [], lastPull := none,
    forwarded := [], sending := [], used := [], replays := 0, errors := 0, credit := 0, trainStart := 0, answers := [], acks := [] }

/-- CLKCFG resets to 0x800: split 0, k = 8 (R389). -/
def Clock.reset : Clock := { d := 0, k := 8, pending := none }

def FaultRegs.reset : FaultRegs :=
  { flbase := 0, flsize := 0, flwr := 0, flrd := 0, fllost := 0, stklim := 64, fcore := 0, fclu := 0, fstack := 0,
    funit := 0, ecnt := [], eclu := [], bridges := 0 }

def Checkpoint.reset : Checkpoint :=
  { dst := 0, state := .idle, restoring := false, frames := 0, bad := 0, seqno := 0, time := 0, start := 0, image := [], areas := [] }

/-- The trust controller and the fuses of a module as delivered (R381, R382). (DESIGN CHOICE, log 9) -/
def Trust.reset : Trust :=
  { lcstate := .manufacture, svn := 0, bootst := 0, nonce := 0, tokaddr := 0, tcmd := 0, busy := none, aidx := 0, serial := 0,
    vendorDigest := List.replicate 32 0, wiping := false, pendingWipe := false, keys := [], installed := [], seeds := [], mlkem := [],
    checkpointKey := [], measurement := List.replicate 32 0, draws := 0 }

def Management.reset : Management :=
  { sfctl := 1, asidbase := 0, rosbase := 0, clocks := [], pwrcap := 3600, pwrnow := 0, throttledMs := 0, temp := 0,
    junctions := [0, 0, 0, 0], powers := [], throttled := false, thermal := false, thermalHold := false, checkAt := 0, bringUp := 0, powered := true, sensors := [] }

def Shards.reset : Shards :=
  { wsbase := 0, wscnt := 0, wpatrol := 600, wcmd := 0, busy := none, wfence := 0, tags := [], landed := [], patrolAt := 0 }

/-- The machine right after reset: every register at the chapters' reset values, memory with nothing listed. (DESIGN CHOICE, log 2) (DESIGN CHOICE, log 8) (DEDUCED, log 10) (DESIGN CHOICE, log 20) -/
def State.reset : State :=
  { chron := 0, cores := [], groups := [], leeway := [], leewayDue := [], clusterTlb := [], dieTlb := [], walks := [], hbm := [], l2 := [], areas := [],
    retiredWays := [], retiredFrames := [], poisoned := [], unitErrors := [], outside := [], queues := [], launches := [], pointers := [], decisions := 0,
    contexts := [], records := [], tiasid := 0, tiva := 0, tigo := none, posts := [], shards := .reset, devnum := 0, hostdev := 0,
    routes := [], ports := [], faults := .reset, checkpoint := .reset, trust := .reset, mgmt := .reset, agenda := [],
    cur := ⟨0, .c, 0⟩, clock := 0, freeCtr := 0, nextId := 0, noted := [] }

end Sys2Proof.Machine
end

