-- ==== Sys2Proof/Machine/Sparse.lean ====
section
/-! DEFINITION. Sparse tables in their canonical form: reading, writing, and the form itself. Memory is the table whose
default is the byte zero; a write of the default removes the entry. -/

namespace Sys2Proof.Machine

/-- The value of a key; the default where the table lists none. -/
def Table.get {α : Type} (d : α) : Table α → Nat → α
  | [], _ => d
  | (k, v) :: r, n => if n = k then v else Table.get d r n

/-- The table without a key. -/
def Table.erase {α : Type} : Table α → Nat → Table α
  | [], _ => []
  | (k, v) :: r, n => if n = k then Table.erase r n else (k, v) :: Table.erase r n

/-- The table with a key listed at a value. -/
def Table.put {α : Type} : Table α → Nat → α → Table α
  | [], n, x => [(n, x)]
  | (k, v) :: r, n, x => if n = k then (n, x) :: r else if n < k then (n, x) :: (k, v) :: r else (k, v) :: Table.put r n x

/-- Writing a key: the default value is not listed. -/
def Table.set {α : Type} [DecidableEq α] (d : α) (t : Table α) (n : Nat) (x : α) : Table α :=
  if x = d then t.erase n else t.put n x

/-- Every key of the table is above a bound, rising, and no value is the default. -/
def Table.wfFrom {α : Type} [DecidableEq α] (d : α) : Nat → Table α → Bool
  | _, [] => true
  | lo, (k, v) :: r => decide (lo ≤ k) && decide (v ≠ d) && Table.wfFrom d (k + 1) r

/-- The canonical form: keys strictly rising, no default value listed. -/
def Table.wf {α : Type} [DecidableEq α] (d : α) (t : Table α) : Bool := Table.wfFrom d 0 t

/-- The canonical form of a memory. -/
def Memory.wf (m : Memory) : Bool := Table.wf (0 : Byte) m

/-- One byte; an address that nothing has written reads zero. (DESIGN CHOICE, log 8) -/
def Memory.read (m : Memory) (a : Nat) : Byte := Table.get (0 : Byte) m a

/-- Write one byte. -/
def Memory.write (m : Memory) (a : Nat) (b : Byte) : Memory := Table.set (0 : Byte) m a b

/-- n bytes from ascending addresses. -/
def Memory.readBytes (m : Memory) (a : Nat) : Nat → List Byte
  | 0 => []
  | n + 1 => m.read a :: Memory.readBytes m (a + 1) n

/-- Bytes to ascending addresses. -/
def Memory.writeBytes (m : Memory) (a : Nat) : List Byte → Memory
  | [] => m
  | b :: r => Memory.writeBytes (m.write a b) (a + 1) r

/-- Zero an interval: drop every listed byte in it. -/
def Memory.clear (m : Memory) (lo len : Nat) : Memory :=
  m.filter (fun c => decide (c.1 < lo) || decide (lo + len ≤ c.1))

/-- Whether two intervals share a byte. -/
def overlaps (lo len lo' len' : Nat) : Bool := decide (lo < lo' + len') && decide (lo' < lo + len)

/-- Replace the element of a list at a place. -/
def listSet {α : Type} : List α → Nat → α → List α
  | [], _, _ => []
  | _ :: r, 0, x => x :: r
  | a :: r, n + 1, x => a :: listSet r n x

end Sys2Proof.Machine
end

