-- ==== Sys2Proof/Machine/Num.lean ====
section
/-! DEFINITION. Numbers: integer formats (R48, R49), floating formats and block scales (R50 to R54), rounding, overflow,
flags and conversions (R56 to R62), all computed exactly on integers and narrowed once. -/

namespace Sys2Proof.Machine

/-! ### Integers (R48, R49) -/

/-- The two's-complement reading of an n-bit field (R94). -/
def sext (n x : Nat) : Int := if 2 * (x % 2 ^ n) < 2 ^ n then (x % 2 ^ n : Nat) else ((x % 2 ^ n : Nat) : Int) - 2 ^ n

/-- v mod 2^n as a pattern (R94). -/
def wrapInt (n : Nat) (v : Int) : Nat := (v % (2 ^ n : Nat)).toNat

/-- The value of an integer type code's pattern. -/
def intVal (t : BitVec 4) (x : Nat) : Int :=
  if isSigned t then sext (typeWidth t) x else (x % 2 ^ typeWidth t : Nat)

def intMin (signed : Bool) (n : Nat) : Int := if signed then -(2 ^ (n - 1) : Nat) else 0
def intMax (signed : Bool) (n : Nat) : Int := if signed then (2 ^ (n - 1) : Nat) - 1 else (2 ^ n : Nat) - 1

def clampInt (lo hi v : Int) : Int := if v < lo then lo else if hi < v then hi else v

/-- Saturation to an n-bit range (R49). -/
def satInt (signed : Bool) (n : Nat) (v : Int) : Int := clampInt (intMin signed n) (intMax signed n) v

/-! ### Floating values -/

/-- A floating value: NaN, an infinity, or (-1)^neg m 2^e exactly, m = 0 being a signed zero. -/
inductive FVal where
  | nan (signalling : Bool)
  | inf (neg : Bool)
  | fin (neg : Bool) (m : Nat) (e : Int)
deriving DecidableEq, Repr

/-- Exponent bits, mantissa bits, bias (R50). -/
structure Fmt where
  ebits : Nat
  mbits : Nat
  bias : Nat
  /-- E4M3: no infinities, one mantissa pattern of the top exponent is NaN (R52) -/
  e4m3 : Bool
  /-- a clear top mantissa bit marks a signalling NaN (R51) -/
  signalling : Bool
deriving DecidableEq, Repr

def fmt32 : Fmt := ⟨8, 23, 127, false, true⟩
def fmtBf16 : Fmt := ⟨8, 7, 127, false, true⟩
def fmt16 : Fmt := ⟨5, 10, 15, false, true⟩
def fmtE4m3 : Fmt := ⟨4, 3, 7, true, false⟩
def fmtE5m2 : Fmt := ⟨5, 2, 15, false, false⟩

/-- The format of a floating type code (R81). -/
def fmtOf (t : BitVec 4) : Fmt :=
  match t.toNat with
  | 8 => fmtE4m3
  | 9 => fmtE5m2
  | 10 => fmt16
  | 11 => fmtBf16
  | _ => fmt32

def Fmt.width (f : Fmt) : Nat := 1 + f.ebits + f.mbits

/-- The canonical quiet NaN (R51). -/
def Fmt.nan (f : Fmt) : Nat :=
  if f.e4m3 then 0x7F else (2 ^ f.ebits - 1) * 2 ^ f.mbits + 2 ^ (f.mbits - 1)

/-- The pattern of the largest finite magnitude (R50, R52). -/
def Fmt.maxPattern (f : Fmt) : Nat :=
  if f.e4m3 then 0x7E else (2 ^ f.ebits - 1) * 2 ^ f.mbits - 1

def Fmt.infPattern (f : Fmt) : Nat := (2 ^ f.ebits - 1) * 2 ^ f.mbits

/-- Exponent of the least significant bit of a subnormal (R50). -/
def Fmt.qmin (f : Fmt) : Int := 1 - (f.bias : Int) - f.mbits

/-- Val(fmt, x) (R50 to R52, R94). -/
def Fmt.val (f : Fmt) (x : Nat) : FVal :=
  let neg := x / 2 ^ (f.ebits + f.mbits) % 2 == 1
  let e := x / 2 ^ f.mbits % 2 ^ f.ebits
  let m := x % 2 ^ f.mbits
  if f.e4m3 then
    if e = 15 ∧ m = 7 then .nan false
    else if e = 0 then .fin neg m f.qmin else .fin neg (m + 2 ^ f.mbits) (f.qmin + e - 1)
  else if e = 2 ^ f.ebits - 1 then
    if m = 0 then .inf neg else .nan (f.signalling && m < 2 ^ (f.mbits - 1))
  else if e = 0 then .fin neg m f.qmin else .fin neg (m + 2 ^ f.mbits) (f.qmin + e - 1)

/-! ### Flags (R45, R59) -/

def flagNV : BitVec 5 := 16
def flagDZ : BitVec 5 := 8
def flagOF : BitVec 5 := 4
def flagUF : BitVec 5 := 2
def flagNX : BitVec 5 := 1

/-! ### Rounding (R56) -/

/-- Rounding modes, FRM codes 0 to 3. -/
inductive RMode where
  | rne | rtz | rdn | rup
deriving DecidableEq, Repr

def rmodeOf : Nat → RMode
  | 0 => .rne
  | 1 => .rtz
  | 2 => .rdn
  | _ => .rup

/-- Whether a kept significand is raised: the parts below it as twice the remainder against the divisor. -/
def roundsUp (mode : RMode) (neg odd : Bool) (rem2 div : Nat) (sticky : Bool) : Bool :=
  match mode with
  | .rne => decide (div < rem2) || (decide (rem2 = div) && (sticky || odd))
  | .rtz => false
  | .rdn => neg && (decide (rem2 ≠ 0) || sticky)
  | .rup => !neg && (decide (rem2 ≠ 0) || sticky)

/-- m 2^e (a little more where sticky) as a multiple of 2^q: the rounded multiple, and whether it is inexact. -/
def roundTo (mode : RMode) (neg : Bool) (m : Nat) (e q : Int) (sticky : Bool) : Nat × Bool :=
  if q ≤ e then (m * 2 ^ (e - q).toNat + (if roundsUp mode neg false 0 1 sticky then 1 else 0), sticky)
  else
    let div := 2 ^ (q - e).toNat
    let keep := m / div
    let rem := m % div
    (if roundsUp mode neg (keep % 2 == 1) (2 * rem) div sticky then keep + 1 else keep, sticky || rem != 0)

def bitLength (m : Nat) : Nat := if m = 0 then 0 else Nat.log2 m + 1

/-- Enc(fmt, v, mode, sat) of a finite nonzero-or-zero magnitude with flags (R56 to R59). The caller of a sticky value
gives at least mbits + 3 significant bits. -/
def Fmt.encFin (f : Fmt) (mode : RMode) (sat : Bool) (neg : Bool) (m : Nat) (e : Int) (sticky : Bool) : Nat × BitVec 5 :=
  let sgn := if neg then 2 ^ (f.ebits + f.mbits) else 0
  if m = 0 ∧ sticky = false then (sgn, 0)
  else
    let qFree := e + bitLength m - (f.mbits + 1 : Nat)
    let q := if qFree < f.qmin then f.qmin else qFree
    let (k, inexact) := roundTo mode neg m e q sticky
    let nx := if inexact then flagNX else 0
    let p := (q - f.qmin).toNat * 2 ^ f.mbits + k
    if p ≤ f.maxPattern then
      let (kFree, _) := roundTo mode neg m e qFree sticky
      -- tiny after rounding with an unbounded exponent (R59)
      let tiny := kFree != 0 && decide (qFree + bitLength kFree ≤ f.qmin + f.mbits)
      (sgn + p, nx ||| (if tiny && inexact then flagUF else 0))
    else
      let flags := flagOF ||| flagNX
      if f.width = 8 then
        if sat then (sgn + f.maxPattern, flags)
        else if f.e4m3 then (f.nan, flags ||| flagNV)
        else (sgn + f.infPattern, flags)
      else
        let toInf := match mode with
          | .rne => true
          | .rtz => false
          | .rdn => neg
          | .rup => !neg
        (sgn + (if toInf then f.infPattern else f.maxPattern), flags)

/-- Enc(fmt, v, mode, sat) with its flags (R57, R58, R61, R94). -/
def Fmt.enc (f : Fmt) (mode : RMode) (sat : Bool) : FVal → Nat × BitVec 5
  | .nan s => (f.nan, if s then flagNV else 0)
  | .inf neg =>
    let sgn := if neg then 2 ^ (f.ebits + f.mbits) else 0
    if f.width = 8 ∧ sat then (sgn + f.maxPattern, 0)
    else if f.e4m3 then (f.nan, flagNV)
    else (sgn + f.infPattern, 0)
  | .fin neg m e => f.encFin mode sat neg m e false

/-! ### Exact arithmetic on values -/

def FVal.isNan : FVal → Bool
  | .nan _ => true
  | _ => false

def FVal.isSnan : FVal → Bool
  | .nan s => s
  | _ => false

def FVal.negate : FVal → FVal
  | .nan s => .nan s
  | .inf n => .inf (!n)
  | .fin n m e => .fin (!n) m e

def signedNat (neg : Bool) (m : Nat) : Int := if neg then -(m : Int) else m

/-- A signed integer times 2^e as a value; zero takes the given sign. -/
def FVal.ofInt (v e : Int) (zeroNeg : Bool) : FVal :=
  if v = 0 then .fin zeroNeg 0 e else .fin (decide (v < 0)) v.natAbs e

/-- Exact sum of finite values, with the zero rule of R61. -/
def addFin (mode : RMode) (n1 : Bool) (m1 : Nat) (e1 : Int) (n2 : Bool) (m2 : Nat) (e2 : Int) : FVal :=
  let e := if e1 ≤ e2 then e1 else e2
  let v := signedNat n1 (m1 * 2 ^ (e1 - e).toNat) + signedNat n2 (m2 * 2 ^ (e2 - e).toNat)
  let zneg := if m1 = 0 ∧ m2 = 0 ∧ n1 = n2 then n1 else decide (mode = .rdn)
  FVal.ofInt v e zneg

/-- Sum with the flags of its operands (R59, R61). -/
def FVal.add (mode : RMode) (a b : FVal) : FVal × BitVec 5 :=
  match a, b with
  | .nan s, y => (.nan false, if s || y.isSnan then flagNV else 0)
  | x, .nan s => (.nan false, if s || x.isSnan then flagNV else 0)
  | .inf x, .inf y => if x = y then (.inf x, 0) else (.nan false, flagNV)
  | .inf x, _ => (.inf x, 0)
  | _, .inf y => (.inf y, 0)
  | .fin n1 m1 e1, .fin n2 m2 e2 => (addFin mode n1 m1 e1 n2 m2 e2, 0)

/-- Product with the flags of its operands. -/
def FVal.mul (a b : FVal) : FVal × BitVec 5 :=
  match a, b with
  | .nan s, y => (.nan false, if s || y.isSnan then flagNV else 0)
  | x, .nan s => (.nan false, if s || x.isSnan then flagNV else 0)
  | .inf x, .inf y => (.inf (x != y), 0)
  | .inf x, .fin n m _ => if m = 0 then (.nan false, flagNV) else (.inf (x != n), 0)
  | .fin n m _, .inf y => if m = 0 then (.nan false, flagNV) else (.inf (n != y), 0)
  | .fin n1 m1 e1, .fin n2 m2 e2 => (.fin (n1 != n2) (m1 * m2) (e1 + e2), 0)

/-- a b + c exactly, rounded by the caller once: NaN operands, invalid products and invalid sums (R59, R61). -/
def FVal.fma (mode : RMode) (a b c : FVal) : FVal × BitVec 5 :=
  let (p, f1) := FVal.mul a b
  let (r, f2) := FVal.add mode p c
  (r, f1 ||| f2)

/-- Order of two values that are not NaN; zeros are equal (R61). -/
def FVal.lt (a b : FVal) : Bool :=
  match a, b with
  | .nan _, _ | _, .nan _ => false
  | .inf x, .inf y => x && !y
  | .inf x, _ => x
  | _, .inf y => !y
  | .fin n1 m1 e1, .fin n2 m2 e2 =>
    let e := if e1 ≤ e2 then e1 else e2
    decide (signedNat n1 (m1 * 2 ^ (e1 - e).toNat) < signedNat n2 (m2 * 2 ^ (e2 - e).toNat))

def FVal.eqv (a b : FVal) : Bool := !a.isNan && !b.isNan && !FVal.lt a b && !FVal.lt b a

/-! ### Conversions (R62) -/

/-- A finite value times 2^k rounded to an integer: the integer and whether it is inexact. -/
def roundInt (mode : RMode) (neg : Bool) (m : Nat) (e : Int) : Int × Bool :=
  let (k, nx) := roundTo mode neg m e 0 false
  (signedNat neg k, nx)

/-- Floating to an n-bit integer (R62): rounded, then saturated; NaN gives 0 with NV, out of range the bound with NV. -/
def FVal.toInt (mode : RMode) (signed : Bool) (n : Nat) : FVal → Int × BitVec 5
  | .nan _ => (0, flagNV)
  | .inf neg => (if neg then intMin signed n else intMax signed n, flagNV)
  | .fin neg m e =>
    let (v, nx) := roundInt mode neg m e
    let c := satInt signed n v
    if c ≠ v then (c, flagNV) else (v, if nx then flagNX else 0)

/-- Floating to an MXINT code with scale e (R62): k bits, signed or not. -/
def FVal.toMx (mode : RMode) (signed : Bool) (k scale : Nat) (v : FVal) : Int × BitVec 5 :=
  if scale = 255 then (0, flagNV)
  else match v with
    | .nan _ => (0, flagNV)
    | .inf neg => (if neg then intMin signed k else intMax signed k, flagNV)
    | .fin neg m e =>
      let (v, nx) := roundInt mode neg m (e - ((scale : Int) - 127))
      let c := satInt signed k v
      if c ≠ v then (c, flagOF ||| flagNX) else (v, if nx then flagNX else 0)

/-- The value of an MXINT code under a scale; a NaN block is NaN with NV raised by the caller (R54, R55). -/
def mxVal (code : Int) (scale : Nat) : FVal :=
  if scale = 255 then .nan true else FVal.ofInt code ((scale : Int) - 127) false

/-! ### Roots for the special functions -/

/-- Integer square root by n halving steps of the bit at place 2^i. -/
def isqrtFrom (x : Nat) : Nat → Nat → Nat
  | 0, r => r
  | i + 1, r => let t := r + 2 ^ i; isqrtFrom x i (if t * t ≤ x then t else r)

/-- Largest r with r r ≤ x. -/
def isqrt (x : Nat) : Nat := isqrtFrom x (bitLength x / 2 + 1) 0

end Sys2Proof.Machine
end

