-- ==== Sys2Proof/Config.lean ====
section
/-! DEFINITION. What the manual leaves to each part or each run: opaque constants without a body, so that nothing can
evaluate them. -/

namespace Sys2Proof.Config
open Sys2Proof.Machine

/-- The turn the part takes when no turn is scheduled: any order of its steps that the chapters allow. (DESIGN CHOICE, log 1)
(DESIGN CHOICE, log 78) -/
opaque turn : Nat → Turn

/-- A value that the manual leaves open, fresh at every use. (DESIGN CHOICE, log 3) -/
opaque freeValue : Nat → Nat

/-- Bytes of a saved context, whose layout is the part's own (R319): number of the writing, offset in the slot. (DESIGN CHOICE, log 56) -/
opaque contextByte : Nat → Nat → Byte

/-- Output of the on-die entropy source (R382, R384): draw number. (DESIGN CHOICE, log 6) -/
opaque entropy : Nat → Nat

/-- A reading of the module's sensors (R389, R394, R396): 0 power in watts, 1 coolant inlet, 2 flow, 3 to 6 the junctions of the dies; time of
reading. (DESIGN CHOICE, log 67) -/
opaque sensor : Nat → Nat → Nat

/-- Whether another device serves a read, at a time, of an address: 1 a translation error, 2 a data error, else served (R354). (DESIGN CHOICE, log 72) -/
opaque homeAnswer : Nat → Nat → Nat

/-- The vendor's XMSS public key as the boot flash carries it (R383, R384). (DESIGN CHOICE, log 6) -/
opaque vendorKey : List Byte
/-- The boot flash (R383, R391): firmware image, its signature and its SVN; the configuration record's ROSBASE, ASIDBASE, DEVNUM and
PCFG of each port. (DESIGN CHOICE, log 6) -/
opaque firmwareImage : List Byte
/-- The XMSS signature of the firmware image (R383). (DESIGN CHOICE, log 6) -/
opaque firmwareSignature : List Byte
/-- The security version number of the firmware image (R383). (DESIGN CHOICE, log 6) -/
opaque firmwareSvn : Nat
/-- ROSBASE as the boot flash gives it (R391). (DESIGN CHOICE, log 65) -/
opaque bootRosbase : Nat
/-- ASIDBASE as the boot flash gives it (R391). (DESIGN CHOICE, log 65) -/
opaque bootAsidbase : Nat
/-- DEVNUM as the boot flash gives it (R391). (DESIGN CHOICE, log 65) -/
opaque bootDevnum : Nat
/-- PCFG of each port as the boot flash gives it (R391). (DESIGN CHOICE, log 65) -/
opaque bootPcfg : Nat → Nat

/-- The rounding of a special function whose value the model's own enclosures cannot separate from a tie or a boundary:
function, format, argument pattern. (PRESUMED, log 4) -/
opaque special : Nat → Nat → Nat → Nat

end Sys2Proof.Config
end

