-- ==== Sys2Proof/Machine/Ops.lean ====
section
/-! DEFINITION. The named operations over the state: where things lie, time, registers, translation, the memory levels, the
range scoreboard, result FIFOs, and taking a trap, reporting a fault and returning from it. -/

namespace Sys2Proof.Machine

/-! ### Places in the package (R15, R20, R21) -/

def SeqId.num : SeqId → Nat
  | .c => 0
  | .l => 1
  | .x => 2
  | .s => 3

def seqOfNat : Nat → SeqId
  | 0 => .c
  | 1 => .l
  | 2 => .x
  | _ => .s

def allSeqs : List SeqId := [.c, .l, .x, .s]

/-- The peers of a sequencer in the order of TKP and TKS (R78). -/
def SeqId.peers : SeqId → List SeqId
  | .c => [.l, .x, .s]
  | .l => [.c, .x, .s]
  | .x => [.c, .l, .s]
  | .s => [.c, .l, .x]

def dieOf (core : Nat) : Nat := core / 128
def clusterOf (core : Nat) : Nat := core / 16

def State.core (s : State) (c : Nat) : Core := Table.get Core.reset s.cores c
def State.setCore (s : State) (c : Nat) (k : Core) : State := { s with cores := Table.set Core.reset s.cores c k }
def State.mapCore (s : State) (c : Nat) (f : Core → Core) : State := s.setCore c (f (s.core c))
/-- Every core, by its number; a core at its reset value is not listed. -/
def State.mapCores (s : State) (f : Nat → Core → Core) : State :=
  { s with cores := (s.cores.map (fun x => (x.1, f x.1 x.2))).filter (fun x => x.2 != Core.reset) }

def State.clockOf (s : State) (die : Nat) : Clock := Table.get Clock.reset s.mgmt.clocks die

/-- Whether a cluster lies in its die's decode partition: clusters 8 - d to 7 (R20). -/
def State.inDecode (s : State) (cluster : Nat) : Bool := decide (8 ≤ cluster % 8 + (s.clockOf (cluster / 8)).d)

/-- k of a core's partition; 8 in the prefill partition (R21, R245). -/
def State.kOf (s : State) (core : Nat) : Nat :=
  if s.inDecode (clusterOf core) then (s.clockOf (dieOf core)).k else 8

def State.tick (s : State) : Nat := s.chron.toNat

/-- The cycle of a core's partition: cycle n begins at tick 8n / k (R245). -/
def State.cycleOf (s : State) (core : Nat) : Nat := s.tick * s.kOf core / 8

/-! ### Sequencers and g-registers (R27) -/

def Core.seq (k : Core) : SeqId → Sequencer
  | .c => k.seqC
  | .l => k.seqL
  | .x => k.seqX
  | .s => k.seqS

def Core.setSeq (k : Core) (q : SeqId) (r : Sequencer) : Core :=
  match q with
  | .c => { k with seqC := r }
  | .l => { k with seqL := r }
  | .x => { k with seqX := r }
  | .s => { k with seqS := r }

def Core.mapSeq (k : Core) (q : SeqId) (f : Sequencer → Sequencer) : Core := k.setSeq q (f (k.seq q))

/-- A g-register; g0 reads zero (R27). -/
def Sequencer.getG (r : Sequencer) (n : Nat) : Word := if n = 0 then 0 else Table.get 0 r.g n
/-- Writes to g0 are discarded (R27). -/
def Sequencer.setG (r : Sequencer) (n : Nat) (v : Word) : Sequencer :=
  if n = 0 then r else { r with g := Table.set 0 r.g n v }

def Core.slot (k : Core) (j : Nat) : Slot := Table.get Slot.empty k.round.slots j
def Core.setSlot (k : Core) (j : Nat) (t : Slot) : Core :=
  { k with round := { k.round with slots := Table.set Slot.empty k.round.slots j t } }

/-- The present core, sequencer and its cycle. -/
def State.me (s : State) : Core := s.core s.cur.core
def State.mySeq (s : State) : Sequencer := s.me.seq s.cur.seq
def State.setMe (s : State) (k : Core) : State := s.setCore s.cur.core k
def State.mapMe (s : State) (f : Core → Core) : State := s.setMe (f s.me)
def State.mapMySeq (s : State) (f : Sequencer → Sequencer) : State := s.mapMe (fun k => k.mapSeq s.cur.seq f)
def State.cycle (s : State) : Nat := s.cycleOf s.cur.core
def State.pc (s : State) : Word := s.mySeq.pc

/-- G(n) for the slot whose copy of the word acts (R94, R233): slot 0 reads the sequencer's own registers. -/
def State.g (s : State) (n : BitVec 6) : Word :=
  if s.cur.slot = 0 then s.mySeq.getG n.toNat
  else if n = 0 then 0 else Table.get 0 (s.me.slot s.cur.slot).g n.toNat

/-- SetG(n, v) (R94). -/
def State.setG (s : State) (n : BitVec 6) (v : Word) : State :=
  if s.cur.slot = 0 then s.mapMySeq (fun r => r.setG n.toNat v)
  else if n = 0 then s
  else s.mapMe (fun k => let t := k.slot s.cur.slot; k.setSlot s.cur.slot { t with g := Table.set 0 t.g n.toNat v })

/-- A fresh number for an access, a command or a message. -/
def State.fresh (s : State) : Nat × State := (s.nextId, { s with nextId := s.nextId + 1 })

/-- A value the manual leaves open, fresh at each use. (DESIGN CHOICE, log 3) -/
def State.free (s : State) : Nat × State := (Config.freeValue s.freeCtr, { s with freeCtr := s.freeCtr + 1 })

/-! ### Physical memory: L2 over HBM, and the outside (R17, R260, R264, R347) -/

def hbmBytes : Nat := 0x18000000000
def pageSize (shift : Nat) : Nat := 2 ^ shift

/-- Where a 52-bit physical address lies (R347). -/
inductive Place where
  | hbm (a : Nat)
  | window (off : Nat)
  | host
  | remote (dev : Nat)
  | unbacked
deriving DecidableEq, Repr

def localPlace (a : Nat) : Place :=
  if a < hbmBytes then .hbm a else if 0x1FF00000000 ≤ a ∧ a < 0x20000000000 then .window (a - 0x1FF00000000) else .unbacked

def State.place (s : State) (pa : Nat) : Place :=
  if 2 ^ 52 ≤ pa then .unbacked
  else if 2 ^ 51 ≤ pa then
    let dev := pa / 2 ^ 41 % 1024
    if dev = s.devnum then localPlace (pa % 2 ^ 41) else .remote dev
  else if 2 ^ 50 ≤ pa then .host
  else if pa / 2 ^ 41 = 0 then localPlace pa else .unbacked

/-- A physical address with the device's own number is its local address (R347). -/
def State.homePa (s : State) (pa : Nat) : Nat :=
  if 2 ^ 51 ≤ pa ∧ pa < 2 ^ 52 ∧ pa / 2 ^ 41 % 1024 = s.devnum then pa % 2 ^ 41 else pa

/-- A context slot holds 2 MiB (R304, R319). -/
def Area.holds (x : Area) (a : Nat) : Bool := decide (x.base ≤ a) && decide (a < x.base + 2 ^ 21)

/-- A byte of a context slot: one written over it, else the part's own. (DESIGN CHOICE, log 56) -/
def Area.read (x : Area) (a : Nat) : Byte :=
  match x.bytes.find? (fun c => c.1 == a) with
  | some c => c.2
  | none => Config.contextByte x.number (a - x.base)

/-- A byte of HBM. -/
def State.hbmRead (s : State) (a : Nat) : Byte :=
  match s.areas.find? (fun x => x.holds a) with
  | some x => x.read a
  | none => s.hbm.read a

/-- A byte as the L2 has it: its own copy over HBM. -/
def State.l2Read (s : State) (a : Nat) : Byte :=
  match s.l2.find? (fun c => c.1 == a) with
  | some c => c.2
  | none => s.hbmRead a

/-- Write a byte through to HBM; the L2's copy is then the same and is not listed. -/
def State.hbmWrite (s : State) (a : Nat) (b : Byte) : State :=
  if s.areas.any (fun x => x.holds a) then
    { s with areas := s.areas.map (fun x => if x.holds a then { x with bytes := Table.put x.bytes a b } else x),
             l2 := Table.erase s.l2 a }
  else { s with hbm := s.hbm.write a b, l2 := Table.erase s.l2 a }

/-- A byte of the L2 passes to HBM (R264). -/
def State.passByte (s : State) (a : Nat) : State :=
  match s.l2.find? (fun c => c.1 == a) with
  | some c => s.hbmWrite a c.2
  | none => s

/-- Lines of a slice of the L2: 72 MiB (R17). -/
def sliceLines : Nat := 72 * 2 ^ 20 / 128

/-- Slice of a local address (R17). -/
def sliceOf (a : Nat) : Nat := a / 4096 % 4

/-- Lines that a slice still holds: a retired way is never allocated again (R372). -/
def State.sliceRoom (s : State) (slice : Nat) : Nat :=
  sliceLines - (s.retiredWays.filter (fun w => w / 2 ^ 20 == slice)).length

/-- Before a line enters a slice whose 72 MiB are full of bytes that HBM does not have, its lowest line passes to HBM (R17).
(DESIGN CHOICE, log 82) -/
def State.makeRoom (s : State) (a : Nat) : State :=
  if s.l2.length < s.sliceRoom (sliceOf a) then s
  else
    let held := ((s.l2.filter (fun c => sliceOf c.1 == sliceOf a)).map (fun c => c.1 / 128)).eraseDups
    if held.contains (a / 128) || decide (held.length < s.sliceRoom (sliceOf a)) then s
    else match held with
      | [] => s
      | l :: _ => (List.range 128).foldl (fun s i => s.passByte (128 * l + i)) s

/-- Write a byte at L2. -/
def State.l2Write (s : State) (a : Nat) (b : Byte) : State :=
  let s := s.makeRoom a
  { s with l2 := Table.put s.l2 a b }

/-- Pass the L2's bytes to HBM. -/
def State.l2Flush (s : State) : State := s.l2.foldl (fun t c => t.hbmWrite c.1 c.2) s

/-- Read a byte at a scope's point (R265): HBM at system scope, L2 otherwise; a remote or host byte at its home. -/
def State.physRead (s : State) (system : Bool) (pa : Nat) : Byte :=
  match s.place pa with
  | .hbm a => if system then s.hbmRead a else s.l2Read a
  | .window _ | .unbacked => 0
  | .host | .remote _ => s.outside.read pa

/-- Write a byte at a scope's point (R264). -/
def State.physWrite (s : State) (system : Bool) (pa : Nat) (b : Byte) : State :=
  match s.place pa with
  | .hbm a => if system then s.hbmWrite a b else s.l2Write a b
  | .window _ | .unbacked => s
  | .host | .remote _ => { s with outside := s.outside.write pa b }

def State.physReadBytes (s : State) (system : Bool) (pa : Nat) : Nat → List Byte
  | 0 => []
  | n + 1 => s.physRead system pa :: State.physReadBytes s system (pa + 1) n

def State.physWriteBytes (s : State) (system : Bool) (pa : Nat) : List Byte → State
  | [] => s
  | b :: r => State.physWriteBytes (s.physWrite system pa b) system (pa + 1) r

def leNat (bs : List Byte) : Nat := bytesNat bs

/-- An n-byte little-endian number in physical memory, at L2. -/
def State.physNat (s : State) (pa n : Nat) : Nat := leNat (s.physReadBytes false pa n)

/-! ### What protects physical memory (R217, R340, R347, R372, R373, R391) -/

/-- ASID and STATE of a shard entry (R337). -/
def State.shardInfo (s : State) (entry : Nat) : Nat × Nat :=
  let a := s.shards.wsbase.toNat + 128 * entry
  ((s.l2Read (a + 28)).toNat, (s.l2Read (a + 29)).toNat)

def frameOf (a : Nat) : Nat := a / 65536
/-- Stack s holds 64 GB (R16): which stack a local address lies in. -/
def stackOf (a : Nat) : Nat := a / 2 ^ 36

/-- The read-only-shared bit of a 16 KiB page (R217); the array stands from bring-up step 4 on (R391). (DEDUCED, log 43) -/
def State.rosBit (s : State) (a : Nat) : Bool :=
  decide (4 ≤ s.mgmt.bringUp) &&
  (s.l2Read (s.mgmt.rosbase.toNat + a / 16384 / 8)).getLsbD (a / 16384 % 8)

/-- The address lies in the array of read-only-shared bits (R217, R391). (DEDUCED, log 43) -/
def State.inRosArray (s : State) (a : Nat) : Bool :=
  decide (4 ≤ s.mgmt.bringUp) && decide (s.mgmt.rosbase.toNat ≤ a) && decide (a < s.mgmt.rosbase.toNat + 12 * 2 ^ 20)

/-- The check of a tagged frame (R340). -/
def State.shardRefuses (s : State) (a asid : Nat) (write : Bool) : Bool :=
  match Table.get none s.shards.tags (frameOf a) with
  | none => false
  | some e =>
    let i := s.shardInfo e
    write || decide (i.2 ≠ 2) || decide (i.1 ≠ asid)

/-- The checks of one physical byte after translation: what a tile or engine access meets (R217, R340, R347, R391). -/
def State.physFault (s : State) (asid pa : Nat) (write atomic : Bool) : Option Cause :=
  match s.place pa with
  | .unbacked => some .translation
  | .window _ => some .protection
  | .host => if s.hostdev / 2 ^ 15 % 2 = 0 then some .translation else if atomic then some .protection else none
  | .remote _ =>
    -- an offset that the home does not back is the home's to refuse (R350, R354)
    match localPlace (pa % 2 ^ 41) with
    | .window _ => some .protection
    | _ => none
  | .hbm a =>
    if s.inRosArray a then some .protection
    else if write && s.rosBit a then some .protection
    else if s.shardRefuses a asid write then some .protection
    else none

/-- Uncorrectable data (R372, R373): a fenced stack, a retired frame, and for an access that consumes the data a bad L2 line. (DEDUCED, log 83) -/
def State.dataFault (s : State) (consumes : Bool) (pa : Nat) : Option FaultInfo :=
  match s.place pa with
  | .hbm a =>
    if s.faults.fstack.getLsbD (stackOf a) then some ⟨.fencedTarget, ⟨3, pa, 0, 3, 0, 0⟩⟩
    else if s.retiredFrames.contains (frameOf a) then some ⟨.dataError, ⟨3, pa, 0, 3, 0, 4 * 2 ^ 27 + frameOf a⟩⟩
    else match (if consumes then s.poisoned.find? (fun x => x.1 == a / 128 * 128) else none) with
      | some x => some ⟨.dataError, ⟨3, pa, 0, 3, 0, 2 * 2 ^ 27 + x.2⟩⟩
      | none => none
  | _ => none

/-! ### Routes (R357, R360) -/

/-- Ports that can carry a message to a device (R357): in its route mask, up, in peer mode. -/
def State.candidates (s : State) (dev : Nat) : List Nat :=
  (List.range 24).filter (fun p => (Table.get 0 s.routes dev).getLsbD p &&
    (Table.get Port.reset s.ports p).state == .up && (Table.get Port.reset s.ports p).pcfg.toNat % 4 == 1)

def State.reachable (s : State) (dev : Nat) : Bool := dev == s.devnum || !(s.candidates dev).isEmpty

/-- Host memory is reached through an up host-mode port of the device that HOSTDEV names. -/
def State.hostReachable (s : State) : Bool :=
  let dev := s.hostdev % 1024
  if dev = s.devnum then (List.range 24).any (fun p =>
    (Table.get Port.reset s.ports p).state == .up && (Table.get Port.reset s.ports p).pcfg.toNat % 4 == 2)
  else !(s.candidates dev).isEmpty

/-- No route leads to the home of an address (R357, R360). -/
def State.linkFault (s : State) (pa : Nat) : Option FaultInfo :=
  let lost : Bool := match s.place pa with
    | .remote dev => !s.reachable dev
    | .host => !s.hostReachable
    | _ => false
  if lost then some ⟨.link, ⟨3, pa, 0, 3, 0, 0⟩⟩ else none

/-- An address of another device whose offset its home does not back (R347, R350). -/
def State.unbackedThere (s : State) (pa : Nat) : Bool :=
  match s.place pa with
  | .remote _ => localPlace (pa % 2 ^ 41) == .unbacked
  | _ => false

/-- The answer of a home that cannot serve a read (R354). (DESIGN CHOICE, log 72) -/
def State.homeFault (s : State) (pa : Nat) : Option FaultInfo :=
  let why (c : Cause) : FaultInfo := ⟨c, ⟨3, pa, 0, 3, 0, 0⟩⟩
  match s.place pa, s.linkFault pa with
  | .remote _, none =>
    if s.unbackedThere pa then some (why .translation)
    else match Config.homeAnswer s.clock pa % 4 with
    | 1 => some (why .translation)
    | 2 => some (why .dataError)
    | _ => none
  | _, _ => none

/-- What keeps an access that has issued from being answered: no route leads to the home, or the home lies in a fenced domain; both are
reported (R357, R362). -/
def State.answerFault (s : State) (pa : Nat) : Option FaultInfo :=
  match s.linkFault pa with
  | some i => some i
  | none => match s.place pa with
    | .remote _ => if Config.homeAnswer s.clock pa % 4 = 3 then some ⟨.fencedTarget, ⟨3, pa, 0, 3, 0, 0⟩⟩ else none
    | _ => none

/-- What keeps a read of another device or of the host from being served: no route, or the home's own answer (R354, R357, R362). -/
def State.remoteFault (s : State) (pa : Nat) : Option FaultInfo := (s.answerFault pa).orElse (fun _ => s.homeFault pa)

/-! ### Translation (R322 to R325) -/

inductive Perm where
  | read | write | fetch | both
  /-- whatever the leaf allows: for the write-back of dirty bytes (R277) -/
  | any
deriving DecidableEq, Repr

def TlbEntry.allows (e : TlbEntry) : Perm → Bool
  | .read => e.r
  | .write => e.w
  | .fetch => e.x
  | .both => e.r && e.w
  | .any => true

def TlbEntry.hits (e : TlbEntry) (asid va : Nat) : Bool := e.asid == asid && e.vpage == va / 2 ^ e.shift

inductive Xlat where
  | hit (pa : Nat)
  | miss
  /-- no translation, or a table that cannot be read (R372, R373) -/
  | fault (unreadable : Option FaultInfo)
deriving DecidableEq, Repr

/-- The physical address that an entry gives a virtual one. -/
def State.leafPa (s : State) (e : TlbEntry) (va : Nat) : Nat := s.homePa (e.frame * 2 ^ e.shift + va % 2 ^ e.shift)

/-- The core's entries, then the cluster's, then the die's (R325). -/
def State.tlbFind (s : State) (core asid va : Nat) : Option TlbEntry :=
  ((s.core core).tlb ++ Table.get [] s.clusterTlb (clusterOf core) ++ Table.get [] s.dieTlb (dieOf core)).find?
    (fun e => e.hits asid va)

/-- One byte's translation (R322 to R324). -/
def State.translate (s : State) (core asid va : Nat) (p : Perm) : Xlat :=
  if 2 ^ 57 ≤ va then .fault none
  else match s.tlbFind core asid va with
    | some e => if e.allows p then .hit (s.leafPa e va) else .fault none
    | none => match (s.core core).walkFaults.find? (fun w => w.1 == asid && w.2.1 == va / 65536) with
      | some w => .fault w.2.2
      | none => .miss

/-- Begin a page walk for a miss, unless one for this page is on its way; at most 128 run on a die (R325). -/
def State.startWalk (s : State) (core asid va : Nat) : State :=
  if s.walks.any (fun w => w.core == core && w.asid == asid && w.va / 65536 == va / 65536) then s
  else
    let running := (s.walks.filter (fun w => w.running && dieOf w.core == dieOf core)).length
    { s with walks := s.walks ++ [⟨s.nextId, core, asid, va, decide (running < 128)⟩], nextId := s.nextId + 1 }

/-- Address field of a root or table entry. -/
def entryAddr (e : Nat) : Nat := e / 4096 % 2 ^ 40 * 4096

/-- The page size of a leaf at a level: 1 GiB, 2 MiB, 64 KiB (R323). -/
def leafShift (level : Nat) : Nat := 30 - 9 * (level - 2) + (if level = 4 then 4 else 0)

/-- What a walk finds: a leaf, an entry that raises the translation fault, or a table that cannot be read. -/
inductive Walked where
  | leaf (e : TlbEntry)
  | invalid
  | unreadable (i : FaultInfo)
deriving DecidableEq, Repr

/-- One level of a walk and those below it (R323): n levels are left. Every read of a table meets its frame's errors (R372, R373). -/
def State.walkFrom (s : State) (asid va : Nat) : Nat → Nat → Walked
  | 0, _ => .invalid
  | n + 1, table =>
    let level := 4 - n
    let index := if level = 4 then va / 65536 % 32 else va / 2 ^ (48 - 9 * level) % 512
    let a := table + 8 * index
    match s.place a, s.dataFault true a with
    | .hbm _, some i => .unreadable i
    | .hbm _, none =>
      let e := s.physNat a 8
      let addr := entryAddr e
      if e % 2 = 0 ∨ e / 32 % 128 ≠ 0 ∨ 2 ^ 52 ≤ e then .invalid
      else if e / 2 % 2 = 1 then
        if level < 2 ∨ addr % 2 ^ leafShift level ≠ 0 then .invalid
        else .leaf ⟨asid, va / 2 ^ leafShift level, leafShift level, addr / 2 ^ leafShift level, e / 4 % 2 == 1, e / 8 % 2 == 1, e / 16 % 2 == 1⟩
      else if level = 4 then .invalid
      else State.walkFrom s asid va n addr
    | _, _ => .invalid

/-- A page walk (R322, R323). -/
def State.walkTo (s : State) (asid va : Nat) : Walked :=
  if 2 ^ 57 ≤ va then .invalid
  else
    let a := entryAddr s.mgmt.asidbase.toNat + 8 * asid
    match s.place a, s.dataFault true a with
    | .hbm _, some i => .unreadable i
    | .hbm _, none =>
      let e := s.physNat a 8
      if e % 2 = 0 ∨ e / 2 % 2048 ≠ 0 ∨ 2 ^ 52 ≤ e then .invalid else s.walkFrom asid va 5 (entryAddr e)
    | _, _ => .invalid

/-- The leaf translation of an address, or none. -/
def State.walk (s : State) (asid va : Nat) : Option TlbEntry :=
  match s.walkTo asid va with
  | .leaf e => some e
  | _ => none

/-- A walk's meeting a table that cannot be read. -/
def State.walkLost (s : State) (asid va : Nat) : Option FaultInfo :=
  match s.walkTo asid va with
  | .unreadable i => some i
  | _ => none

/-- The physical address of a byte through the TLBs, or through a walk made at once (R325): for accesses checked before, and for
the engines. (DEDUCED, log 23) -/
def State.resolve (s : State) (core asid va : Nat) (p : Perm) : Option Nat :=
  match s.tlbFind core asid va with
  | some e => if e.allows p && decide (va < 2 ^ 57) then some (s.leafPa e va) else none
  | none =>
    match s.walk asid va with
    | some e => if e.allows p then some (s.leafPa e va) else none
    | none => none

/-- Put a translation into a TLB of n entries, the oldest leaving a full one. (DESIGN CHOICE, log 21) -/
def tlbAdd (n : Nat) (t : List TlbEntry) (e : TlbEntry) : List TlbEntry :=
  let t := t.filter (fun x => x != e)
  (if n ≤ t.length then t.drop 1 else t) ++ [e]

/-- Fill the core's, the cluster's and the die's TLB with a walk's result (R325). (DESIGN CHOICE, log 21) -/
def State.tlbFill (s : State) (core : Nat) (e : TlbEntry) : State :=
  let s := s.mapCore core (fun k => { k with tlb := tlbAdd 64 k.tlb e })
  let c := clusterOf core
  let d := dieOf core
  { s with clusterTlb := Table.set [] s.clusterTlb c (tlbAdd 2048 (Table.get [] s.clusterTlb c) e),
           dieTlb := Table.set [] s.dieTlb d (tlbAdd 32768 (Table.get [] s.dieTlb d) e) }

/-- Outcome of checking an access: physical addresses of its bytes, a walk to wait for, or a fault. -/
inductive Checked where
  | ok (pas : List Nat)
  | walk (va : Nat)
  | fault (i : FaultInfo)
deriving DecidableEq, Repr

def FaultInfo.virt (c : Cause) (va opidx : Nat) : FaultInfo := ⟨c, ⟨1, va, 0, opidx, 0, 0⟩⟩
def FaultInfo.spad (c : Cause) (off opidx : Nat) : FaultInfo := ⟨c, ⟨2, off, 0, opidx, 0, 0⟩⟩
def FaultInfo.bare (c : Cause) : FaultInfo := ⟨c, .none⟩

/-- A fault of memory told with the virtual address and the operand of the access that meets it. -/
def FaultInfo.told (i : FaultInfo) (va opidx : Nat) : FaultInfo := ⟨i.cause, { i.loc with akind := 1, addr := va, opidx := opidx }⟩

/-- The fault of an address without a translation: a table that cannot be read, or the translation fault (R323, R372). -/
def FaultInfo.untranslated (unreadable : Option FaultInfo) (va opidx : Nat) : FaultInfo :=
  match unreadable with
  | some i => i.told va opidx
  | none => .virt .translation va opidx

/-- The fault of a virtual address that `resolve` does not place. -/
def State.lostAt (s : State) (core asid va opidx : Nat) : FaultInfo :=
  .untranslated (if (s.tlbFind core asid va).isNone then s.walkLost asid va else none) va opidx

/-- Translate and protect n bytes from va (R108 check 3); data errors when they are read (check 4). -/
def State.checkVirtual (s : State) (core asid : Nat) (p : Perm) (opidx : Nat) (va : Nat) : Nat → Checked
  | 0 => .ok []
  | n + 1 =>
    let va := va % 2 ^ 64
    match s.translate core asid va p with
    | .fault i => .fault (.untranslated i va opidx)
    | .miss => .walk va
    | .hit pa =>
      match s.physFault asid pa (p == .write || p == .both) (p == .both) with
      | some c => .fault (.virt c va opidx)
      | none =>
        match State.checkVirtual s core asid p opidx (va + 1) n with
        | .ok r => .ok (pa :: r)
        | e => e

/-- The first unusable byte among physical addresses (R108, R372), told with its virtual address; a store consumes no data, and an access
consumes none of the L2's where its core's cache gives the byte. -/
def State.checkData (s : State) (cached : Nat → Bool) (p : Perm) (va opidx : Nat) : List Nat → Option FaultInfo
  | [] => none
  | pa :: r =>
    match s.dataFault (p != .write && !cached pa) pa with
    | some i => some (i.told va opidx)
    | none => State.checkData s cached p (va + 1) opidx r

/-! ### The first-level cache (R39, R261, R344) -/

def lineSet (pa : Nat) : Nat := pa / 128 % 32
def lineTag (pa : Nat) : Nat := pa / 4096

def L1Line.base (l : L1Line) : Nat := l.tag * 4096 + l.set * 128
def L1Line.holds (l : L1Line) (pa : Nat) : Bool := l.tag == lineTag pa && l.set == lineSet pa
def L1Line.byte (l : L1Line) (i : Nat) : Byte := l.data.extractLsb' (8 * i) 8

/-- One bit of a mask set or cleared. -/
def setBit {n : Nat} (m : BitVec n) (i : Nat) (b : Bool) : BitVec n :=
  if b then m ||| BitVec.twoPow n i else m &&& ~~~(BitVec.twoPow n i)

/-- Field of a bit vector replaced. -/
def setField {n : Nat} (x : BitVec n) (lo w v : Nat) : BitVec n :=
  (x &&& ~~~(BitVec.ofNat n ((2 ^ w - 1) * 2 ^ lo))) ||| BitVec.ofNat n (v % 2 ^ w * 2 ^ lo)

def L1Line.setByte (l : L1Line) (i : Nat) (b : Byte) (dirty : Bool) : L1Line :=
  { l with data := setField l.data (8 * i) 8 b.toNat, valid := setBit l.valid i true, dirty := setBit l.dirty i dirty }

def Core.line (k : Core) (pa : Nat) : Option L1Line := k.l1.find? (fun l => l.holds pa)

/-- Replace or add a line by its place; a line with no valid byte leaves its way invalid (R344). -/
def Core.putLine (k : Core) (l : L1Line) : Core :=
  { k with l1 := k.l1.filter (fun m => !(m.granule == l.granule && m.way == l.way && m.set == l.set)) ++ (if l.valid = 0 then [] else [l]) }

/-- A core's cache gives a byte to a load at a scope: a dirty byte at any, a valid one at core scope (R261, R265). -/
def Core.serves (k : Core) (scope : Scope) (pa : Nat) : Bool :=
  match k.line pa with
  | some l => l.dirty.getLsbD (pa % 128) || (scope == .core && l.valid.getLsbD (pa % 128))
  | none => false

/-- Write a line's dirty bytes back to L2 (R261). -/
def State.writeBack (s : State) (l : L1Line) : State :=
  (List.range 128).foldl (fun t i => if l.dirty.getLsbD i then t.physWrite false (l.base + i) (l.byte i) else t) s

/-- The invalid way that a new line takes: lowest granule, then lowest way (R344). -/
def Core.freeWay (k : Core) (set : Nat) : Option (Nat × Nat) :=
  ((List.range (20 - k.granules.toNat)).flatMap (fun g => (List.range 4).map (fun w => (k.granules.toNat + g, w)))).find?
    (fun gw => !(k.l1.any (fun l => l.granule == gw.1 && l.way == gw.2 && l.set == set)))

/-- The least recently used line of a set. (DESIGN CHOICE, log 76) -/
def Core.victim (k : Core) (set : Nat) : Option L1Line :=
  (k.l1.filter (fun l => l.set == set)).foldl
    (fun b l => match b with
      | none => some l
      | some m => if l.lastUse < m.lastUse then some l else some m) none

/-- A new empty line for an address: an invalid way, else the least recently used one, written back (R344). (DESIGN CHOICE, log 76) -/
def State.allocLine (s : State) (core pa : Nat) : State × L1Line :=
  let k := s.core core
  let fresh (g w : Nat) : L1Line := ⟨g, w, lineSet pa, lineTag pa, 0, 0, 0, k.l1Clock⟩
  match k.freeWay (lineSet pa) with
  | some (g, w) => (s, fresh g w)
  | none =>
    match k.victim (lineSet pa) with
    | some l => (s.writeBack l, fresh l.granule l.way)
    | none => (s, fresh 19 0)

/-- Make a line for a load miss valid in every byte, filled from the L2 under the dirty mask (R261). -/
def State.fillLine (s : State) (core : Nat) (pa : Nat) : State :=
  let k := s.core core
  let touch (s : State) (l : L1Line) : State :=
    s.mapCore core (fun k => { k.putLine { l with lastUse := k.l1Clock } with l1Clock := k.l1Clock + 1 })
  let fill (s : State) (l : L1Line) : L1Line :=
    (List.range 128).foldl (fun l i => if l.valid.getLsbD i then l else l.setByte i (s.physRead false (l.base + i)) false) l
  match k.line pa with
  | some l => if l.valid = BitVec.allOnes 128 then touch s l else touch s (fill s l)
  | none => let (s, l) := s.allocLine core pa; touch s (fill s l)

/-- Whether an address may be held by a first-level cache (R39, R348). -/
def State.cacheable (s : State) (pa : Nat) : Bool :=
  match s.place pa with
  | .hbm _ => true
  | _ => false

/-- One byte as a load at a scope reads it (R265): at core scope from the cache; wider, own dirty bytes from the cache and
the others from the scope's point. -/
def State.loadByte (s : State) (core : Nat) (scope : Scope) (pa : Nat) : Byte :=
  match (s.core core).line pa with
  | some l => if (s.core core).serves scope pa then l.byte (pa % 128) else s.physRead (scope == .system) pa
  | none => s.physRead (scope == .system) pa

/-- Bytes on their way to a reader at HBM: the L2's own copies of them pass first, so that no older value is read (R265, R267,
R275). (DEDUCED, log 84) -/
def State.passBytes (s : State) (pas : List Nat) : State :=
  pas.foldl (fun s pa =>
    match s.place pa with
    | .hbm a => s.passByte a
    | _ => s) s

/-- The lines of a load are filled before its bytes are read, unless the bytes it needs are there (R261, R344). -/
def State.prepareLoad (s : State) (core : Nat) (scope : Scope) (pas : List Nat) : State :=
  (if scope = .system then s.passBytes pas else s) |> fun s => pas.foldl (fun s pa =>
    if s.cacheable pa then
      match (s.core core).line pa with
      | some l =>
        if l.valid.getLsbD (pa % 128) then
          s.mapCore core (fun k => { k.putLine { l with lastUse := k.l1Clock } with l1Clock := k.l1Clock + 1 })
        else s.fillLine core pa
      | none => s.fillLine core pa
    else s) s

/-- One byte of a store at a scope (R261, R264). -/
def State.storeByte (s : State) (core : Nat) (scope : Scope) (pa : Nat) (b : Byte) : State :=
  if !s.cacheable pa then s.physWrite true pa b
  else if scope == .core then
    let (s, l) := match (s.core core).line pa with
      | some l => (s, l)
      | none => s.allocLine core pa
    s.mapCore core (fun k =>
      { k.putLine { l.setByte (pa % 128) b true with lastUse := k.l1Clock } with l1Clock := k.l1Clock + 1 })
  else
    let s := s.physWrite (scope == .system) pa b
    match (s.core core).line pa with
    | some l =>
      if l.valid.getLsbD (pa % 128) then s.mapCore core (fun k => k.putLine (l.setByte (pa % 128) b false)) else s
    | none => s

def State.storeBytes (s : State) (core : Nat) (scope : Scope) : List Nat → List Byte → State
  | pa :: ps, b :: bs => State.storeBytes (s.storeByte core scope pa b) core scope ps bs
  | _, _ => s

/-- A release at cluster scope or wider writes every dirty byte back; at system scope past L2 to HBM (R264, R273). -/
def State.releaseCaches (s : State) (core : Nat) (scope : Scope) : State :=
  if scope == .core then s
  else
    let s := (s.core core).l1.foldl (fun s l => s.writeBack l) s
    let s := s.mapCore core (fun k => { k with l1 := k.l1.map (fun l => { l with dirty := 0 }) })
    if scope == .system then s.l2Flush else s

/-- An acquire at cluster scope or wider invalidates every clean byte (R274). -/
def State.acquireCaches (s : State) (core : Nat) (scope : Scope) : State :=
  if scope == .core then s
  else s.mapCore core (fun k =>
    { k with l1 := (k.l1.map (fun l => { l with valid := l.dirty })).filter (fun l => l.dirty != 0) })

/-- Write back the core's dirty bytes among physical addresses (R277), leaving them clean. -/
def State.writeBackBytes (s : State) (core : Nat) (pas : List Nat) : State :=
  pas.foldl (fun s pa =>
    match (s.core core).line pa with
    | some l =>
      if l.dirty.getLsbD (pa % 128) then
        (s.physWrite false pa (l.byte (pa % 128))).mapCore core
          (fun k => k.putLine { l with dirty := setBit l.dirty (pa % 128) false })
      else s
    | none => s) s

/-- Drop the core's clean bytes among physical addresses that an engine wrote (R278). -/
def State.dropClean (s : State) (core : Nat) (pas : List Nat) : State :=
  pas.foldl (fun s pa =>
    match (s.core core).line pa with
    | some l =>
      if l.valid.getLsbD (pa % 128) && !l.dirty.getLsbD (pa % 128) then
        s.mapCore core (fun k => k.putLine { l with valid := setBit l.valid (pa % 128) false })
      else s
    | none => s) s

/-- A scope code of R82. -/
def scopeOf (b : BitVec 3) : Scope :=
  match b.toNat with
  | 0 => .core
  | 1 => .cluster
  | 2 => .die
  | 3 => .device
  | _ => .system

/-- The wider of two scopes (R112). -/
def Scope.wider (a b : Scope) : Scope :=
  let rank : Scope → Nat := fun
    | .core => 0
    | .cluster => 1
    | .die => 2
    | .device => 3
    | .system => 4
  if rank a < rank b then b else a

/-- The narrowest scope holding two cores of the device (R123). -/
def narrowest (a b : Nat) : Scope :=
  if a = b then .core else if clusterOf a = clusterOf b then .cluster else if dieOf a = dieOf b then .die else .device

/-! ### The scratchpad (R38) -/

def Core.spadBytes (k : Core) : Nat := 16384 * k.granules.toNat

/-- A scratchpad interval lies inside (R38). -/
def Core.inSpad (k : Core) (off n : Nat) : Bool := decide (off + n ≤ k.spadBytes)

/-! ### The range scoreboard (R253, R254) -/

def Core.asid (k : Core) : Nat :=
  match k.tile with
  | some t => t.asid
  | none => 0

/-- An entry still holds: it has not been released, or it was in the present cycle (R254). -/
def Range.holds (r : Range) (now : Nat) : Bool :=
  match r.gone with
  | some c => decide (now ≤ c)
  | none => true

/-- A sequencer access of the present cycle overlaps an entry that holds its kind off (R253, R254). -/
def Core.held (k : Core) (now : Nat) (space : Space) (lo len : Nat) (store : Bool) : Bool :=
  k.ranges.any (fun r => r.space == space && (store || r.loads) && decide (r.cycle < now) && r.holds now && overlaps r.lo r.len lo len)

/-- The entries that count: those not released (R253). -/
def Core.liveRanges (k : Core) : List Range := k.ranges.filter (fun r => r.gone.isNone)

/-- An engine command overlaps another owner's entry (R190). -/
def Core.heldFor (k : Core) (own : RangeOwner) (space : Space) (lo len : Nat) : Bool :=
  k.liveRanges.any (fun r => r.owner != own && r.space == space && overlaps r.lo r.len lo len)

def Core.addRange (k : Core) (r : Range) : Core := if r.len = 0 then k else { k with ranges := k.ranges ++ [r] }

/-- Release an owner's entries in a cycle; those released before are forgotten (R254). -/
def Core.dropRanges (k : Core) (now : Nat) (own : RangeOwner) : Core :=
  { k with ranges := (k.ranges.filter (fun r => r.holds now)).map (fun r =>
      if r.owner = own ∧ r.gone = none then { r with gone := some now } else r) }

/-! ### FIFOs and results (R42, R184) -/

def Core.fifo (k : Core) (p : Nat) : List Command := Table.get [] k.fifos p
def Core.setFifo (k : Core) (p : Nat) (l : List Command) : Core := { k with fifos := Table.set [] k.fifos p l }
def Core.results' (k : Core) (p : Nat) : List Word := Table.get [] k.results p
def Core.setResults (k : Core) (p : Nat) (l : List Word) : Core := { k with results := Table.set [] k.results p l }

/-- The engine of a FIFO port: the three vector ports and the NOTIFY place are one to the combiner (R252). -/
def engineOfPort (p : Nat) : Nat := if p ≤ 3 then p else 4

/-- The vector port of a sequencer (R252). -/
def vectorPort : SeqId → Nat
  | .l => 4
  | .x => 5
  | .s => 6
  | .c => 7

def statusCode : Status → Nat
  | .ok => 0
  | .withdrawn => 1
  | .gone => 2
  | .none => 3
  | .faulted => 4

/-- A result entry: status in [63:56], value in [55:0] (R184). -/
def resultWord (st : Status) (v : Nat) : Word := BitVec.ofNat 64 (statusCode st * 2 ^ 56 + v % 2 ^ 56)

/-! ### Causes, fault records and the log (R361, R362, R366 to R369) -/

def Cause.code : Cause → Nat
  | .illegal => 0x01
  | .alignment => 0x02
  | .controlIntegrity => 0x03
  | .software => 0x04
  | .speculation => 0x05
  | .reclaim => 0x06
  | .translation => 0x10
  | .protection => 0x11
  | .scratchRange => 0x12
  | .illegalOperand => 0x13
  | .accConfig => 0x14
  | .bankGroup => 0x15
  | .exactRange => 0x16
  | .barrier => 0x17
  | .scheduleMiss => 0x18
  | .tokenDeadlock => 0x19
  | .freeList => 0x1A
  | .link => 0x1B
  | .dataError => 0x1C
  | .fencedTarget => 0x1D
  | .doubleTrap => 0x1E

/-- Whether a cause writes a fault record (R362). -/
def Cause.recorded : Cause → Bool
  | .software | .speculation | .reclaim => false
  | _ => true

/-- The 64 bytes of a fault record (R368). -/
def faultRecord (tick : Nat) (issuePc seqPc : Word) (core : Nat) (seq : SeqId) (unit : Nat) (rep : Bool) (i : FaultInfo)
    (t : Option Tile) : List Byte :=
  let (asid, queue, lseq) := match t with
    | some t => (t.asid, t.queue, t.lseq)
    | none => (0, 0, 0)
  natBytes 8 tick ++ natBytes 8 issuePc.toNat ++ natBytes 8 seqPc.toNat ++
  natBytes 8 (if i.loc.akind = 0 then 0 else i.loc.addr) ++ natBytes 8 i.loc.iter ++
  natBytes 2 (core % 512) ++ natBytes 1 i.cause.code ++
  natBytes 1 ((if rep then 128 else 0) + i.loc.slot * 16 + i.loc.opidx * 4 + seq.num) ++
  natBytes 1 (i.loc.akind * 16 + unit) ++ natBytes 1 asid ++ natBytes 2 queue ++ natBytes 4 lseq ++
  natBytes 4 i.loc.info ++ natBytes 8 0

/-- Write a record at FLBASE + 64 (FLWR mod FLSIZE) and raise FLWR; with the log full or disabled FLLOST rises instead.
Gives the log index where one was written (R367). (DEDUCED, log 45) (DEDUCED, log 75) -/
def State.logFault (s : State) (rec : List Byte) (launch : Option (Nat × Nat)) : State × Option Nat :=
  let f := s.faults
  if f.flsize = 0 ∨ (f.flwr - f.flrd).toNat = f.flsize.toNat then
    ({ s with faults := { f with fllost := if f.fllost = BitVec.allOnes 64 then f.fllost else f.fllost + 1 } }, none)
  else
    let s := s.physWriteBytes false (f.flbase.toNat + 64 * (f.flwr.toNat % f.flsize.toNat)) rec
    let ls := match launch with
      | some (q, n) => s.launches.map (fun l => if l.queue = q ∧ l.lseq = n then { l with nfault := l.nfault + 1 } else l)
      | none => s.launches
    ({ s with faults := { f with flwr := f.flwr + 1 }, launches := ls }, some f.flwr.toNat)

/-- ECAUSE (R361). -/
def ecauseOf (c : Cause) (rep : Bool) (info : Nat) (lost : Bool) : Word :=
  BitVec.ofNat 64 (info % 65536 * 65536 + (if lost then 512 else 0) + (if rep then 256 else 0) + c.code)

def Core.launchOf (k : Core) : Option (Nat × Nat) := k.tile.map (fun t => (t.queue, t.lseq))

/-- Write the record of a cause, where it has one, and give the ECAUSE value (R361, R362, R367). -/
def State.raiseCause (s : State) (core : Nat) (seq : SeqId) (unit : Nat) (rep : Bool) (issuePc : Word) (i : FaultInfo) :
    State × Word × Option Nat :=
  let k := s.core core
  -- the line of a retired L2 way is read afresh from now on (R372)
  let s := if i.cause = .dataError ∧ i.loc.info / 2 ^ 27 = 2 then
      { s with poisoned := s.poisoned.filter (fun x => x.2 != i.loc.info % 2 ^ 27) }
    else s
  if i.cause.recorded then
    -- the write of the record is a release at device scope (R367)
    let s := s.releaseCaches core .device
    let (s, ix) := s.logFault (faultRecord s.tick issuePc (k.seq seq).pc core seq unit rep i k.tile) k.launchOf
    match ix with
    | some n => (s, ecauseOf i.cause rep n false, some n)
    | none => (s, ecauseOf i.cause rep 0 true, none)
  else (s, ecauseOf i.cause rep i.loc.info false, none)

/-! ### Strict fetch (R75, R390) -/

/-- A core is in strict fetch during start-up and built-in test, and inside handlers while RECOV is set (SFCTL, R390). -/
def State.strict (s : State) (core : Nat) : Bool :=
  s.mgmt.sfctl.getLsbD 0 || s.mgmt.sfctl.getLsbD 1 ||
  allSeqs.any (fun q => ((s.core core).seq q).recovery != 0)

/-! ### Taking a trap (R94, R363, R75, R370) -/

/-- The tile ends by fault: its sequencers issue no further word (R370 step 1); TILE_END_BY_FAULT does the rest. -/
def Core.kill (k : Core) : Core := { k with tile := k.tile.map (fun t => { t with dead := true }) }

/-- A cluster's count changes, and its neighbours are to see it within 128 ticks (R257). -/
def State.noteCount (s : State) (cluster : Nat) : State :=
  if Table.get 0 s.leewayDue cluster = 0 then { s with leewayDue := Table.set 0 s.leewayDue cluster (s.tick + 1) } else s

/-- A count of a launch has fallen: no neighbour goes on seeing a greater one (R122). -/
def State.forgetCount (s : State) (cluster : Nat) (launch : Nat × Nat) : State :=
  { s with leeway := (List.range 32).foldl (fun t reader =>
      Table.set [] t (32 * reader + cluster) ((Table.get [] t (32 * reader + cluster)).filter (fun x => x.1 != launch))) s.leeway }

/-- The count of a core's launch in its cluster falls, or may fall (R122, R257). -/
def State.lowerPhase (s : State) (core : Nat) : State :=
  match (s.core core).launchOf with
  | some l => (s.forgetCount (clusterOf core) l).noteCount (clusterOf core)
  | none => s

/-- Neighbours of a core whose waiting LEEWAY is abandoned see its raised count no longer (R122, R259). -/
def State.retractCount (s : State) (core : Nat) : State := if (s.core core).leewayWait then s.lowerPhase core else s

/-- A waiting LEEWAY that is abandoned has raised no count (R122, R259). -/
def Core.abandon (k : Core) (q : SeqId) : Core :=
  if q = .c ∧ k.leewayWait then { k with phase := k.phase - 1, leewayWait := false } else k

/-- A trap is taken at a copy that waits: the copies that have acted are kept, and the others act when the handler returns to the word (R233,
R292). -/
def Core.interrupt (k : Core) (q : SeqId) (epc : Word) : Core :=
  let rd := k.round
  if rd.st = .running ∧ rd.owner = q ∧ rd.nextSlot ≠ 0 then
    { k with round := { rd with interrupted := some (epc, rd.nextSlot, rd.target0, rd.taken0, rd.outcome), nextSlot := 0 } }
  else k

/-- Enter the handler of a sequencer: EPC and ECAUSE, the PC at TVEC (R94, R363); a double trap in strict fetch (R75);
with TVEC = 0 the tile ends by fault (R363, R370). It is no control transfer, and held fetch lines stay (R74, R282).
(DEDUCED, log 105) -/
def State.enterHandler (s : State) (core : Nat) (q : SeqId) (epc ecause : Word) (resumes : List Nat) : State :=
  let r := (s.core core).seq q
  let covered := s.mgmt.sfctl.getLsbD 2 && (ecause.toNat % 256 == 0x1C || ecause.toNat % 256 == 0x1D)
  if r.tvec = 0 then s.mapCore core Core.kill
  else if (s.strict core || covered) && r.tvec.toNat % 64 != 0 then
    let k := s.core core
    let (s, _) := (s.releaseCaches core .device).logFault
      (faultRecord s.tick epc epc core q 7 false (.bare .doubleTrap) k.tile) k.launchOf
    s.mapCore core Core.kill
  else (if q = .c then s.retractCount core else s).mapCore core (fun k => ((k.abandon q).interrupt q epc).mapSeq q (fun r =>
    { r with epc := epc, ecause := ecause, pc := r.tvec, inHandler := true, recovery := if r.recovery ≠ 0 ∨ covered then r.recovery + 1 else 0, resumes := r.resumes ++ resumes,
             halted := false, segment := none, scattered := 0, drain := none, waitSince := none, waitOn := none }))

/-- Trap(cause) at the present word (R94): the record is written before the cause is delivered. (DEDUCED, log 45) -/
def State.takeTrap (s : State) (i : FaultInfo) : State :=
  let (s, ec, _) := s.raiseCause s.cur.core s.cur.seq 7 false s.pc i
  let s := s.mapMe (fun k => { k with walkFaults := [] })
  s.enterHandler s.cur.core s.cur.seq s.pc ec []

/-- A reported fault for a sequencer (R93, R364): recorded now, delivered later by REPORTED_FAULT_DELIVERY. (DEDUCED, log 75) -/
def State.reportTo (s : State) (core : Nat) (seq : SeqId) (unit : Nat) (issuePc : Word) (i : FaultInfo) (stops : Option Nat) :
    State × Option Nat :=
  let (s, ec, ix) := s.raiseCause core seq unit true issuePc i
  let p : PendingFault := { ecause := ec, tick := s.tick, order := s.clock, stops := stops }
  (s.mapCore core (fun k => k.mapSeq seq (fun r => { r with pending := r.pending ++ [p] })), ix)

/-- The expired block whose trap comes first: earliest deadline, then lowest slot (R194). -/
def Core.nextExpired (k : Core) : Option (Nat × Block) :=
  (k.blocks.filter (fun b => b.2.pinned && b.2.expired)).foldl
    (fun (b : Option (Nat × Block)) x => match b with
      | none => some x
      | some y => if x.2.deadline < y.2.deadline then some x else some y) none

/-- What a sequencer is to take at its word boundary, outside a handler: its earliest reported fault, or on C-seq a reclaim trap,
in ascending tick of raising, the fault first in one tick (R194, R364). -/
inductive Pending where
  | nothing
  | fault (p : PendingFault)
  | reclaim (slot : Nat) (b : Block)

/-- The faults of a sequencer whose moment has come (R364). (DEDUCED, log 47) -/
def Core.due (k : Core) (q : SeqId) : Pending :=
  if (k.seq q).inHandler then .nothing
  else match (k.seq q).pending, (if q = .c then k.nextExpired else none) with
    | [], none => .nothing
    | p :: _, none => .fault p
    | [], some (i, b) => .reclaim i b
    | p :: _, some (i, b) => if p.tick ≤ b.deadline then .fault p else .reclaim i b

/-- Deliver what is due at a sequencer's word boundary (R364): EPC is the word not yet issued. -/
def State.deliver (s : State) (core : Nat) (q : SeqId) : State :=
  let r := (s.core core).seq q
  match (s.core core).due q with
  | .nothing => s
  | .fault p =>
    (s.mapCore core (fun k => k.mapSeq q (fun r => { r with pending := r.pending.drop 1 }))).enterHandler core q r.pc p.ecause p.stops.toList
  | .reclaim slot b => s.enterHandler core q r.pc (ecauseOf .reclaim false (b.generation.toNat * 64 + slot) false) []

/-! ### Lists kept by the model -/

def State.post (s : State) (m : Message) : State :=
  { s with posts := s.posts ++ [⟨s.nextId, m, s.tick, 0, none⟩], nextId := s.nextId + 1 }

def State.unpost (s : State) (id : Nat) : State := { s with posts := s.posts.filter (fun p => p.id != id) }

end Sys2Proof.Machine
end

