-- ==== Sys2Proof/Machine/Operands.lean ====
section
/-! DEFINITION. Operand forms: conditions (R103), shifts (R63), masks and stage predicates (R32, R33, R79), vector registers with
their renaming and the Reckoner slots' held writes (R29, R30, R234), and effective addresses (R108). -/

namespace Sys2Proof.Machine

/-- COND of R103 on two 64-bit patterns. -/
def condHolds (c : Nat) (a b : Word) : Bool :=
  match c with
  | 0 => a == b
  | 1 => a != b
  | 2 => a.slt b
  | 3 => !a.slt b
  | 4 => !b.slt a
  | 5 => b.slt a
  | 6 => a.ult b
  | 7 => !a.ult b
  | 8 => !b.ult a
  | 9 => b.ult a
  | _ => false

/-- Shifts of a w-bit pattern by a full unsigned amount (R63). -/
def shlNat (w x n : Nat) : Nat := if w ≤ n then 0 else x * 2 ^ n % 2 ^ w
def shrNat (w x n : Nat) : Nat := if w ≤ n then 0 else x % 2 ^ w / 2 ^ n
def sraNat (w x n : Nat) : Nat :=
  let top := if w ≤ n then w - 1 else n
  wrapInt w (sext w x / (2 ^ top : Nat))

/-- The instruction after a word or a record (R73). -/
def State.pc16 (s : State) : Word := s.pc + 16
def State.pc64 (s : State) : Word := s.pc + 64

/-- ea := Bits(G(AG) + SExt(OFF, 32), 64) (R108). -/
def State.ea (s : State) (ag : BitVec 6) (off : BitVec 32) : Word := s.g ag + off.signExtend 64

/-- target := PC + 16 SExt(DISP, 32) (R83). -/
def State.dispTarget (s : State) (disp : BitVec 32) : Word := s.pc + 16 * disp.signExtend 64

/-! ### Stopping a Reckoner slot (R235) -/

/-- A slot j >= 1 and every slot above it stop (R235). -/
def Core.squash (k : Core) (j : Nat) : Core :=
  { k with round := { k.round with
      sq := k.round.sq ||| BitVec.ofNat 8 (2 ^ k.round.w - 2 ^ (if j = 0 then 1 else j)) } }

def State.squash (s : State) : State := s.mapMe (fun k => k.squash s.cur.slot)

/-- A fault of slot j is held and stops the slots above it; the slot skips its later words (R235). -/
def State.holdFault (s : State) (i : FaultInfo) (pc : Word) : State :=
  s.mapMe (fun k =>
    let t := k.slot s.cur.slot
    let i := { i with loc := { i.loc with slot := s.cur.slot } }
    if t.fault.isSome then k
    else (k.setSlot s.cur.slot { t with fault := some i, faultPc := pc, faultSeq := s.cur.seq }).squash (s.cur.slot + 1))

/-- A slot takes part in the next word: not stopped, holding no fault (R233, R235). -/
def Core.slotLive (k : Core) (j : Nat) : Bool :=
  decide (j = 0) || (decide (j < k.round.w) && !k.round.sq.getLsbD j && (k.slot j).fault.isNone)

/-! ### Masks (R32, R33, R79, R234) -/

/-- A mask by its code: 0 EM, 1 CM, 2 to 9 k0 to k7 (R83). -/
def State.maskReg (s : State) (code : Nat) : Mask :=
  let k := s.me
  let arch : Mask := match code with
    | 0 => k.em
    | 1 => k.cm
    | n => Table.get 0 k.k (n - 2)
  if s.cur.slot = 0 then arch
  else
    let t := k.slot s.cur.slot
    match code with
    | 0 => t.em.getD arch
    | 1 => t.cm.getD arch
    | n => (Table.get none t.k (n - 2)).getD arch

def State.setMaskReg (s : State) (code : Nat) (m : Mask) : State :=
  s.mapMe (fun k =>
    if s.cur.slot = 0 then
      match code with
      | 0 => { k with em := m }
      | 1 => { k with cm := m }
      | n => { k with k := Table.set 0 k.k (n - 2) m }
    else
      let t := k.slot s.cur.slot
      k.setSlot s.cur.slot (match code with
        | 0 => { t with em := some m }
        | 1 => { t with cm := some m }
        | n => { t with k := Table.set none t.k (n - 2) (some m) }))

/-- The stage predicate that a header names holds, or it names none (R79). -/
def State.predicate (s : State) (h : Header) : Bool := h.msrc != 3 || s.mySeq.sg.getLsbD h.spi.toNat

/-- The lanes' mask source (R79). -/
def State.activeMask (s : State) (h : Header) : Mask :=
  match h.msrc.toNat with
  | 0 => BitVec.allOnes 1024
  | 2 => s.maskReg 1
  | _ => s.maskReg 0

/-! ### Vector registers (R29, R30, R234) -/

/-- VPhys(n) with ROT (R30). -/
def rename (rot : BitVec 1) (rrb : BitVec 9) (n : Nat) : Nat :=
  if rot = 1 ∧ 512 ≤ n then 512 + (n - 512 + rrb.toNat) % 512 else n

/-- The bits of the bytes that a byte mask names. -/
def byteBits (m : BitVec 512) : VReg :=
  BitVec.ofNat 4096 ((List.range 512).foldr (fun i n => (if m.getLsbD i then 255 else 0) + 256 * n) 0)

/-- One register's contents with the bytes of another under a byte mask. -/
def mergeBytes (m : BitVec 512) (new old : VReg) : VReg := (new &&& byteBits m) ||| (old &&& ~~~byteBits m)

/-- This cycle's writes to a vector register (R31). -/
def Core.writesOf (k : Core) (now n : Nat) : List VWrite := k.vlog.filter (fun w => w.cycle == now && w.reg == n)

/-- A vector register as a sequencer's word reads it in a cycle: other sequencers' writes of the same cycle are not seen (R31). -/
def Core.vSeen (k : Core) (now : Nat) (q : SeqId) (n : Nat) : VReg :=
  match k.writesOf now n with
  | [] => Table.get 0 k.v n
  | w :: ws => (w :: ws).foldl (fun x w => if w.seq = q then mergeBytes w.bytes w.new x else x) w.old

/-- Write bytes of a vector register: in one cycle each byte keeps the later writer's in the order C, L, X, S (R31). -/
def Core.putV (k : Core) (now : Nat) (q : SeqId) (n : Nat) (x : VReg) (bytes : BitVec 512) : Core :=
  let old := Table.get 0 k.v n
  let new := match k.writesOf now n with
    | [] => x
    | ws => mergeBytes (ws.foldl (fun m w => if q.num < w.seq.num then m &&& ~~~w.bytes else m) bytes) x old
  { k with v := Table.set 0 k.v n new,
           vlog := k.vlog.filter (fun w => w.cycle == now) ++ [⟨now, n, q, old, x, bytes⟩] }

def State.v (s : State) (n : Nat) : VReg :=
  let arch : VReg := s.me.vSeen s.cycle s.cur.seq n
  if s.cur.slot = 0 then arch else (Table.get none (s.me.slot s.cur.slot).v n).getD arch

/-- Write a vector register, of which an access or a word wrote some bytes; a seventeenth held register stops the slot (R31, R234,
R235). -/
def State.setV (s : State) (n : Nat) (x : VReg) (bytes : BitVec 512) : State :=
  if s.cur.slot = 0 then s.mapMe (fun k => k.putV s.cycle s.cur.seq n x bytes)
  else
    let t := s.me.slot s.cur.slot
    if (Table.get none t.v n).isNone && decide (16 ≤ t.v.length) then s.squash
    else s.mapMe (fun k => k.setSlot s.cur.slot { t with v := Table.set none t.v n (some x) })

/-- Elem(v, i, w) (R29). -/
def elem (x : VReg) (i w : Nat) : Nat := (x.extractLsb' (w * i) w).toNat

/-- The number whose n fields of w bits from lane i on are f, or the old register's where f gives none. -/
def lanesFrom (w : Nat) (old : VReg) (f : Nat → Option Nat) (i : Nat) : Nat → Nat
  | 0 => 0
  | n + 1 => (match f i with | some x => x % 2 ^ w | none => elem old i w) + 2 ^ w * lanesFrom w old f (i + 1) n

/-- A register built lane by lane (R9, R29). -/
def buildV (w : Nat) (old : VReg) (f : Nat → Option Nat) : VReg := BitVec.ofNat 4096 (lanesFrom w old f 0 (4096 / w))

/-- The bytes of the lanes of w bits that a word writes (R9, R31). -/
def laneBytes (w : Nat) (written : Nat → Bool) : BitVec 512 :=
  BitVec.ofNat 512 ((List.range 512).foldr (fun b n => (if written (8 * b / w) || (w == 4 && written (2 * b + 1)) then 1 else 0) + 2 * n) 0)

/-- OR of the flags of lanes 0 to n - 1 (R60). -/
def laneFlags (f : Nat → Option (Nat × BitVec 5)) : Nat → BitVec 5
  | 0 => 0
  | n + 1 => laneFlags f n ||| (match f n with | some x => x.2 | none => 0)

/-- Bytes of a vector register. -/
def vBytes (x : VReg) : List Byte := natBytes 512 x.toNat

/-- Bits of a mask from a predicate on lanes. -/
def maskOf (p : Nat → Bool) : Nat → Nat → Nat
  | _, 0 => 0
  | i, n + 1 => (if p i then 1 else 0) + 2 * maskOf p (i + 1) n

def buildMask (p : Nat → Bool) : Mask := BitVec.ofNat 1024 (maskOf p 0 1024)

/-! ### Loads through the Reckoner's store buffers (R234) -/

/-- The byte that slots 1 to j hold for an address: the highest slot's latest store. -/
def slotByte (stores : List SlotStore) (j : Nat) (sp : Space) (a : Nat) : Option Byte :=
  (stores.foldl (fun (best : Nat × Option Byte) t =>
    if t.space = sp ∧ t.slot ≤ j ∧ best.1 ≤ t.slot ∧ t.addr ≤ a ∧ a < t.addr + t.data.length then
      (t.slot, some (t.data.getD (a - t.addr) 0)) else best) (0, none)).2

/-- A slot's store: buffered; past 4 KiB the slot stops (R231, R235). Every store counts its length, bytes written before too. (DESIGN
CHOICE, log 85) -/
def State.slotStore (s : State) (sp : Space) (a : Nat) (data : List Byte) : State :=
  let held := (s.me.round.stores.filter (fun t => t.slot == s.cur.slot)).foldl (fun n t => n + t.data.length) 0
  if 4096 < held + data.length then s.squash
  else s.mapMe (fun k => { k with round := { k.round with stores := k.round.stores ++ [⟨s.cur.slot, sp, a, data⟩] } })

/-! ### Scratchpad access (R38, R262) -/

/-- XLoad(a, n), with the store buffers of the slot (R94, R234). -/
def State.xload (s : State) (a n : Nat) : List Byte :=
  let bs := s.me.spad.readBytes a n
  if s.cur.slot = 0 then bs
  else bs.mapIdx (fun i b => (slotByte s.me.round.stores s.cur.slot .spad (a + i)).getD b)

/-- XStore(a, n, x) (R94). -/
def State.xstore (s : State) (a : Nat) (data : List Byte) : State :=
  if s.cur.slot = 0 then s.mapMe (fun k => { k with spad := k.spad.writeBytes a data }) else s.slotStore .spad a data

def State.xloadNat (s : State) (a n : Nat) : Nat := bytesNat (s.xload a n)

end Sys2Proof.Machine
end

