-- ==== Sys2Proof/Machine/Flags.lean ====
section
/-! DEFINITION. The sticky floating flags and the accumulator's saturation flag: raising them, for a slot or for the core
(R45, R46, R59, R60, R234), and the rounding mode in force (R56, R94). -/

namespace Sys2Proof.Machine

/-- What is raised in a cycle is kept, so that a write to the register in the same cycle comes before it (R46). -/
def Core.noteRaised (k : Core) (now : Nat) (f : BitVec 5) (aovf : Bool) (drains : Nat) : Core :=
  let k := if k.raisedAt = now then k else { k with raisedAt := now, raisedFlags := 0, raisedAovf := false, raisedDrains := 0 }
  { k with raisedFlags := k.raisedFlags ||| f, raisedAovf := k.raisedAovf || aovf, raisedDrains := k.raisedDrains + drains }

/-- Raise(f) (R46, R94): a slot other than 0 holds its flags. -/
def State.raiseFlags (s : State) (f : BitVec 5) : State :=
  if f = 0 then s
  else s.mapMe (fun k =>
    if s.cur.slot = 0 then { k.noteRaised s.cycle f false 0 with fflags := k.fflags ||| f }
    else let t := k.slot s.cur.slot; k.setSlot s.cur.slot { t with fflags := t.fflags ||| f })

/-- AOVF := 1 (R36, R65). -/
def State.raiseAovf (s : State) (b : Bool) : State :=
  if b then s.mapMe (fun k =>
    if s.cur.slot = 0 then { k.noteRaised s.cycle 0 true 0 with aovf := true }
    else let t := k.slot s.cur.slot; k.setSlot s.cur.slot { t with aovf := true })
  else s

/-- Mode(rmo): FRM when rmo = 0, otherwise the mode of R82. -/
def State.mode (s : State) (rmo : BitVec 3) : RMode :=
  match rmo.toNat with
  | 0 => rmodeOf s.me.frm.toNat
  | n => rmodeOf (n - 1)

end Sys2Proof.Machine
end

