-- ==== Sys2Proof/Machine/Special.lean ====
section
/-! DEFINITION. The special functions of R149 and the powers of two of R150: exact results by interval arithmetic on integers, given as a
significand with an exponent and a sticky mark, rounded once by the caller. -/

namespace Sys2Proof.Machine
open Sys2Proof

/-- A positive result: m 2^e, a little more where sticky; or none, where the enclosure could not decide. -/
structure Approx where
  m : Nat
  e : Int
  sticky : Bool
deriving DecidableEq, Repr

/-- Fraction bits of the fixed-point enclosures. -/
def fracBits : Nat := 640
/-- Fraction bits of a delivered result. -/
def outBits : Nat := 320

/-- Floor of ln 2 times 2^640. -/
def ln2 : Nat :=
  0xb17217f7d1cf79abc9e3b39803f2f6af40f343267298b62d8a0d175b8baafa2be7b876206debac98559552fb4afa1b10ed2eae35c138214427573b291169b8253e96ca16224ae8c51acbda11317c387e

def ceilDiv (a b : Nat) : Nat := (a + b - 1) / b

/-- Sum of the Taylor terms of e^t from a term on, each bounded below and above: n terms more. -/
def taylor (lo hi : Nat) : Nat → Nat → Nat → Nat → Nat × Nat
  | 0, _, tlo, thi => (tlo, 2 * thi + 2)
  | n + 1, k, tlo, thi =>
    let r := taylor lo hi n (k + 1) (tlo * lo / 2 ^ fracBits / (k + 1)) (ceilDiv (ceilDiv (thi * hi) (2 ^ fracBits)) (k + 1))
    (tlo + r.1, thi + r.2)

/-- Enclosure of e^t for 0 ≤ t ≤ 1/2 or a little more, from an enclosure of t. -/
def expSmall (t : Nat × Nat) : Nat × Nat := taylor t.1 t.2 125 0 (2 ^ fracBits) (2 ^ fracBits)

def squares : Nat → Nat × Nat → Nat × Nat
  | 0, x => x
  | n + 1, x => squares n (x.1 * x.1 / 2 ^ fracBits, ceilDiv (x.2 * x.2) (2 ^ fracBits))

/-- Enclosure of e^t for 0 ≤ t ≤ 256. -/
def expWide (t : Nat × Nat) : Nat × Nat := squares 9 (expSmall (t.1 / 512, ceilDiv t.2 512))

/-- m 2^e in fixed point, bounded below and above. -/
def fixed (m : Nat) (e : Int) : Nat × Nat :=
  let q : Int := e + fracBits
  if 0 ≤ q then (m * 2 ^ q.toNat, m * 2 ^ q.toNat) else (m / 2 ^ (-q).toNat, ceilDiv m (2 ^ (-q).toNat))

/-- An enclosure with fracBits bits as a result with outBits bits that is not exact. -/
def decided (x : Nat × Nat) : Option Approx :=
  let cut := 2 ^ (fracBits - outBits)
  if x.1 / cut = (x.2 - 1) / cut then some ⟨x.1 / cut, -(outBits : Int), true⟩ else none

/-- A result next below 1, and one above 0 smaller than every format's half smallest subnormal. -/
def nearOne : Approx := ⟨2 ^ 64 - 1, -64, true⟩
def nearZero : Approx := ⟨2 ^ 64, -400, true⟩

/-- Whether m 2^e is at least 2^k. -/
def atLeastPow (m : Nat) (e k : Int) : Bool := m != 0 && decide (k ≤ e + bitLength m - 1)

/-- 2^x for x = ± m 2^e. -/
def exp2Of (neg : Bool) (m : Nat) (e : Int) : Option Approx :=
  if atLeastPow m e 9 then some (if neg then nearZero else ⟨2 ^ 64, 400, true⟩)
  else
    let d := if e < 0 then (-e).toNat else 0
    let x := signedNat neg (if e < 0 then m else m * 2 ^ e.toNat)
    let i := x / (2 ^ d : Nat)
    let f := (x % (2 ^ d : Nat)).toNat
    if f = 0 then some ⟨1, i, false⟩
    else
      let t := (f * ln2 / 2 ^ d, ceilDiv (f * (ln2 + 1)) (2 ^ d))
      match decided (squares 1 (expSmall (t.1 / 2, ceilDiv t.2 2))) with
      | some a => some { a with e := a.e + i }
      | none => none

/-- Bits of log2 y for y in [1, 2) given by an enclosure: n bits more, most significant first. -/
def logBits : Nat → Nat × Nat → Nat → Option Nat
  | 0, _, acc => some acc
  | n + 1, y, acc =>
    let two := 2 * 2 ^ fracBits
    let z := (y.1 * y.1 / 2 ^ fracBits, ceilDiv (y.2 * y.2) (2 ^ fracBits))
    if two ≤ z.1 then logBits n (z.1 / 2, ceilDiv z.2 2) (2 * acc + 1)
    else if z.2 < two then logBits n z (2 * acc)
    else none

/-- log2 of m 2^e, m > 0: a sign with a result. -/
def log2Of (m : Nat) (e : Int) : Option (Bool × Approx) :=
  let k := bitLength m - 1
  let E : Int := e + k
  if m = 2 ^ k then some (decide (E < 0), ⟨E.natAbs, 0, false⟩)
  else
    match logBits 128 (m * 2 ^ (fracBits - k), m * 2 ^ (fracBits - k)) 0 with
    | none => none
    | some f =>
      let v : Int := E * 2 ^ 128 + f
      if 0 ≤ v then some (false, ⟨v.toNat, -128, true⟩) else some (true, ⟨(-(v + 1)).toNat, -128, true⟩)

/-- 1 / (m 2^e), m > 0. -/
def rcpOf (m : Nat) (e : Int) : Approx :=
  let n := bitLength m + 64
  ⟨2 ^ n / m, -e - n, decide (2 ^ n % m ≠ 0)⟩

/-- 1 / sqrt(m 2^e), m > 0. -/
def rsqOf (m : Nat) (e : Int) : Approx :=
  let odd := e % 2 = 1
  let m' := if odd then 2 * m else m
  let e' := if odd then e - 1 else e
  let n := bitLength m' + 64
  let r := isqrt (2 ^ (2 * n) / m')
  ⟨r, -(e' / 2) - n, decide (r * r * m' ≠ 2 ^ (2 * n))⟩

/-- tanh of m 2^e, m > 0. -/
def tanhOf (m : Nat) (e : Int) : Option Approx :=
  if atLeastPow m e 7 then some nearOne
  else if !atLeastPow m e (-64) then some ⟨m * 2 ^ 64 - 1, e - 64, true⟩
  else
    let x := expWide (fixed m (e + 1))
    let one := 2 ^ fracBits
    decided ((x.1 - one) * one / (x.1 + one), ceilDiv ((x.2 - one) * one) (x.2 + one))

/-- 1 / (1 + e^-x) of x = ± m 2^e, m > 0. -/
def sigmOf (neg : Bool) (m : Nat) (e : Int) : Option Approx :=
  if atLeastPow m e 7 then some (if neg then nearZero else nearOne)
  else
    let x := expWide (fixed m e)
    let one := 2 ^ fracBits
    if neg then decided (one * one / (x.2 + one), ceilDiv (one * one) (x.1 + one))
    else decided (x.1 * one / (x.1 + one), ceilDiv (x.2 * one) (x.2 + one))

/-- Enc of a result, or the opaque rounding where the enclosure could not decide. (PRESUMED, log 4) -/
def encApprox (f : Fmt) (mode : RMode) (neg : Bool) (fn pattern : Nat) : Option Approx → Nat × BitVec 5
  | some a => f.encFin mode false neg a.m a.e a.sticky
  | none => (Config.special fn f.mbits pattern % 2 ^ f.width, flagNX)

/-- A special function by its FN on a pattern (R149): the result and its flags. (PRESUMED, log 4) -/
def specialFn (fn : Nat) (f : Fmt) (mode : RMode) (pattern : Nat) : Nat × BitVec 5 :=
  let enc := encApprox f mode
  let sgn (neg : Bool) (x : Nat) : Nat := if neg then 2 ^ (f.ebits + f.mbits) + x else x
  let one := (f.enc mode false (.fin false 1 0)).1
  match f.val pattern with
  | .nan s => (f.nan, if s then flagNV else 0)
  | .inf neg =>
    match fn with
    | 0 => (if neg then 0 else f.infPattern, 0)
    | 1 => if neg then (f.nan, flagNV) else (f.infPattern, 0)
    | 2 => (sgn neg 0, 0)
    | 3 => if neg then (f.nan, flagNV) else (0, 0)
    | 4 => (sgn neg one, 0)
    | _ => (if neg then 0 else one, 0)
  | .fin neg m e =>
    if m = 0 then
      match fn with
      | 0 => (one, 0)
      | 1 => (sgn true f.infPattern, flagDZ)
      | 2 | 3 => (sgn neg f.infPattern, flagDZ)
      | 4 => (sgn neg 0, 0)
      | _ => ((f.enc mode false (.fin false 1 (-1))).1, 0)
    else
      match fn with
      | 0 => enc false 0 pattern (exp2Of neg m e)
      | 1 =>
        if neg then (f.nan, flagNV)
        else match log2Of m e with
          | some (n, a) => enc n 1 pattern (some a)
          | none => enc false 1 pattern none
      | 2 => enc neg 2 pattern (some (rcpOf m e))
      | 3 => if neg then (f.nan, flagNV) else enc false 3 pattern (some (rsqOf m e))
      | 4 => enc neg 4 pattern (tanhOf m e)
      | _ => enc false 5 pattern (sigmOf neg m e)

end Sys2Proof.Machine
end

