-- ==== Sys2Proof/Machine/LaneOps.lean ====
section
/-! DEFINITION. What one lane of the vector instructions computes (R135 to R143, R149, R150): patterns in, a pattern and flags out. -/

namespace Sys2Proof.Machine
open Sys2Proof

abbrev Lane := Nat × BitVec 5

/-! ### Arithmetic (R135) -/

/-- The exact integer value of an operation of MAJ 0x40 by its FN. -/
def intOp (fn : Nat) (a b c : Int) : Int :=
  match fn with
  | 0 => a + b
  | 1 => a - b
  | 2 => a * b
  | 3 => a * b + c
  | 4 => a * b - c
  | 5 => if b < a then b else a
  | 6 => if a < b then b else a
  | 7 => a.natAbs
  | _ => -a

def arithInt (fn : Nat) (t : BitVec 4) (sat : Bool) (a b c : Nat) : Nat :=
  let x := intOp fn (intVal t a) (intVal t b) (intVal t c)
  wrapInt (typeWidth t) (if sat then satInt (isSigned t) (typeWidth t) x else x)

/-- Whether a counts as smaller, -0 below +0 (R135). -/
def fLess (a b : FVal) : Bool :=
  FVal.lt a b || (match a, b with
    | .fin true 0 _, .fin false 0 _ => true
    | _, _ => false)

/-- VMIN and VMAX of two patterns. -/
def fPick (max : Bool) (f : Fmt) (a b : Nat) : Lane :=
  let x := f.val a
  let y := f.val b
  if x.isNan || y.isNan then (f.nan, if x.isSnan || y.isSnan then flagNV else 0)
  else if max then (if fLess x y then b else a, 0)
  else (if fLess y x then b else a, 0)

def arithFloat (fn : Nat) (f : Fmt) (mode : RMode) (a b c : Nat) : Lane :=
  let round (r : FVal × BitVec 5) : Lane := let e := f.enc mode false r.1; (e.1, e.2 ||| r.2)
  let x := f.val a
  let y := f.val b
  match fn with
  | 0 => round (FVal.add mode x y)
  | 1 => round (FVal.add mode x y.negate)
  | 2 => round (FVal.mul x y)
  | 3 => round (FVal.fma mode x y (f.val c))
  | 4 => round (FVal.fma mode x y (f.val c).negate)
  | 5 => fPick false f a b
  | 6 => fPick true f a b
  | 7 => match x with
    | .fin _ m e => f.enc mode false (.fin false m e)
    | .inf _ => f.enc mode false (.inf false)
    | .nan s => f.enc mode false (.nan s)
  | _ => f.enc mode false x.negate

/-- One lane of MAJ 0x40. -/
def arithLane (fn : Nat) (t : BitVec 4) (sat : Bool) (mode : RMode) (a b c : Nat) : Lane :=
  if isI t then (arithInt fn t sat a b c, 0) else arithFloat fn (fmtOf t) mode a b c

/-! ### Logic and shifts (R136) -/

/-- One lane of MAJ 0x41: the shifts take the amount n. -/
def logicLane (fn w a b n : Nat) : Nat :=
  match fn with
  | 0 => a &&& b
  | 1 => a ||| b
  | 2 => a ^^^ b
  | 3 => 2 ^ w - 1 - a % 2 ^ w
  | 4 => shlNat w a n
  | 5 => shrNat w a n
  | _ => sraNat w a n

/-! ### Compare (R137) -/

def compareInt (c : Nat) (t : BitVec 4) (a b : Nat) : Bool :=
  let w := typeWidth t
  if 2 ≤ c ∧ c ≤ 5 then condHolds c (BitVec.ofInt 64 (sext w a)) (BitVec.ofInt 64 (sext w b))
  else condHolds c (BitVec.ofNat 64 (a % 2 ^ w)) (BitVec.ofNat 64 (b % 2 ^ w))

def compareFloat (c : Nat) (f : Fmt) (a b : Nat) : Bool × BitVec 5 :=
  let x := f.val a
  let y := f.val b
  let unordered := x.isNan || y.isNan
  let r := match c with
    | 0 => FVal.eqv x y
    | 1 => !FVal.eqv x y
    | 2 => FVal.lt x y
    | 3 => !unordered && !FVal.lt x y
    | 4 => !unordered && !FVal.lt y x
    | _ => FVal.lt y x
  (r, if unordered && (decide (2 ≤ c) || x.isSnan || y.isSnan) then flagNV else 0)

/-! ### Conversion (R62, R139 to R141) -/

/-- Code bits of an MXINT type (R54). -/
def mxBits (t : BitVec 4) : Nat :=
  match t.toNat with
  | 13 => 4
  | 14 => 6
  | _ => 8

def mxCode (t : BitVec 4) (n : Bool) (x : Nat) : Int :=
  if n then (x % 2 ^ mxBits t : Nat) else sext (mxBits t) x

/-- Any format to any other (R62): destination and source types, MXINT unsignedness and scale, SAT, mode. (DEDUCED, log 19) -/
def convertLane (dt st : BitVec 4) (n : Bool) (scale : Nat) (sat : Bool) (mode : RMode) (x : Nat) : Lane :=
  let wd := typeWidth dt
  let v : FVal :=
    if isI st then FVal.ofInt (intVal st x) 0 false
    else if isX st then mxVal (mxCode st n x) scale
    else (fmtOf st).val x
  if isI dt then
    if isI st then (wrapInt wd (satInt (isSigned dt) wd (intVal st x)), 0)
    else let r := FVal.toInt mode (isSigned dt) wd v; (wrapInt wd r.1, r.2)
  else if isX dt then
    let r := FVal.toMx mode (!n) (mxBits dt) scale v; (wrapInt wd r.1, r.2)
  else (fmtOf dt).enc mode sat v

/-- VNARROW (R141). -/
def narrowLane (dt st : BitVec 4) (sat : Bool) (x : Nat) : Nat :=
  let wd := typeWidth dt
  if sat then wrapInt wd (satInt (isSigned dt) wd (intVal st x)) else x % 2 ^ wd

/-- VSAT: the range's type, the element's type (R141). -/
def satLane (range element : BitVec 4) (x : Nat) : Nat :=
  wrapInt (typeWidth element) (satInt (isSigned range) (typeWidth range) (intVal element x))

/-- VCLAMP: min(max(a, b), c) (R141). -/
def clampLane (t : BitVec 4) (a b c : Nat) : Lane :=
  let r := arithLane 6 t false .rne a b 0
  let q := arithLane 5 t false .rne r.1 c 0
  (q.1, q.2 ||| r.2)

/-! ### Sums of products (R64, R142) -/

/-- Flags and special value of a group of products (R64): none where every product is finite. -/
def groupSpecial (ps : List (FVal × FVal)) : Option FVal × BitVec 5 :=
  let prods := ps.map (fun p => FVal.mul p.1 p.2)
  let nan := prods.any (fun p => p.1.isNan)
  let pos := prods.any (fun p => p.1 == .inf false)
  let neg := prods.any (fun p => p.1 == .inf true)
  let nv := prods.foldl (fun f p => f ||| p.2) 0 ||| (if pos && neg then flagNV else 0)
  if nan || (pos && neg) then (some (.nan false), nv)
  else if pos then (some (.inf false), nv)
  else if neg then (some (.inf true), nv)
  else (none, nv)

/-- Exact sum of a group of products with R64's rule for the sign of zero. (DEDUCED, log 13) -/
def groupSum (ps : List (FVal × FVal)) : FVal × BitVec 5 :=
  match groupSpecial ps with
  | (some v, f) => (v, f)
  | (none, f) =>
    let prods := ps.map (fun p => (FVal.mul p.1 p.2).1)
    let allNeg := !prods.isEmpty && prods.all (fun v => match v with
      | .fin true 0 _ => true
      | _ => false)
    let sum := prods.foldl (fun a v => (FVal.add .rne a v).1) (.fin false 0 0)
    match sum with
    | .fin _ 0 e => (.fin allNeg 0 e, f)
    | v => (v, f)

/-- VDOT4 of one lane (R142): the addend and the four pairs of elements. (DEDUCED, log 13) -/
def dotLane (t : BitVec 4) (bN : Bool) (sat : Bool) (mode : RMode) (c : Nat) (ps : List (Nat × Nat)) : Lane :=
  if isI t then
    let x := ps.foldl (fun x p => x + intVal t p.1 * (if bN then ((p.2 % 256 : Nat) : Int) else sext 8 p.2)) (sext 32 c)
    (wrapInt 32 (if sat then satInt true 32 x else x), 0)
  else
    let f := fmtOf t
    let vs := ps.map (fun p => (f.val p.1, f.val p.2))
    let x := fmt32.val c
    let r : FVal × BitVec 5 := match groupSpecial vs with
      | (some v, fl) => let r := FVal.add mode x v; (r.1, r.2 ||| fl)
      | (none, fl) => vs.foldl (fun a p => let r := FVal.add mode a.1 (FVal.mul p.1 p.2).1; (r.1, a.2 ||| r.2)) (x, fl)
    let e := fmt32.enc mode false r.1
    (e.1, e.2 ||| r.2)

/-! ### Reductions (R143) -/

/-- Two present values combined: op 0 sum, 1 min, 2 max. -/
def combineFn (op : Nat) : Nat := if op = 0 then 0 else if op = 1 then 5 else 6
def combineInt (op : Nat) (a b : Int) : Int := intOp (combineFn op) a b 0
def combineFloat (op : Nat) (f : Fmt) (mode : RMode) (a b : Nat) : Lane :=
  arithFloat (combineFn op) f mode a b 0

/-- One level of the tree: positions 2i and 2i + 1. -/
def treeLevel {α : Type} (f : α → α → α × BitVec 5) : List (Option α) → List (Option α) × BitVec 5
  | [] => ([], 0)
  | [x] => ([x], 0)
  | x :: y :: r =>
    let rest := treeLevel f r
    match x, y with
    | some a, some b => let c := f a b; (some c.1 :: rest.1, c.2 ||| rest.2)
    | some a, none => (some a :: rest.1, rest.2)
    | none, z => (z :: rest.1, rest.2)

/-- The value that the tree leaves after n levels. -/
def tree {α : Type} (f : α → α → α × BitVec 5) : Nat → List (Option α) → Option α × BitVec 5
  | 0, l => (l.headD none, 0)
  | n + 1, l => let r := treeLevel f l; let q := tree f n r.1; (q.1, q.2 ||| r.2)

/-- VSCAN: the running values of a list of lanes. -/
def scan {α : Type} (f : α → α → α × BitVec 5) : Option α → List (Option α) → List (Option α) × BitVec 5
  | _, [] => ([], 0)
  | run, none :: r => let q := scan f run r; (none :: q.1, q.2)
  | run, some a :: r =>
    let c : α × BitVec 5 := match run with
      | none => (a, 0)
      | some x => f x a
    let q := scan f (some c.1) r
    (some c.1 :: q.1, c.2 ||| q.2)

/-- VRED with no active lane (R143). -/
def emptyReduce (op : Nat) (t : BitVec 4) : Nat :=
  let w := typeWidth t
  match op with
  | 0 => 0
  | 1 => if isI t then wrapInt w (intMax (isSigned t) w) else (fmtOf t).infPattern
  | _ => if isI t then wrapInt w (intMin (isSigned t) w) else 2 ^ (w - 1) + (fmtOf t).infPattern

/-- VRED's value over the active lanes; the value of an only active lane is written unchanged, a NaN with its own pattern and no flag
(R51, R61, R143). (DEDUCED, log 93) -/
def reduce (op : Nat) (t : BitVec 4) (sat : Bool) (mode : RMode) (xs : List (Option Nat)) : Lane :=
  let w := typeWidth t
  if isI t then
    match tree (fun a b => (combineInt op a b, (0 : BitVec 5))) 10 (xs.map (fun x => x.map (intVal t))) with
    | (some v, _) => (wrapInt w (if sat then satInt (isSigned t) w v else v), 0)
    | (none, _) => (emptyReduce op t, 0)
  else
    match tree (combineFloat op (fmtOf t) mode) 10 xs with
    | (some v, f) => (v, f)
    | (none, _) => (emptyReduce op t, 0)

/-- VSCAN's values; the first active lane's is written unchanged, a NaN with its own pattern and no flag (R51, R61, R143). (DEDUCED,
log 93) -/
def scanLanes (op : Nat) (t : BitVec 4) (sat : Bool) (mode : RMode) (xs : List (Option Nat)) : List (Option Nat) × BitVec 5 :=
  let w := typeWidth t
  if isI t then
    let r := scan (fun a b => (combineInt op a b, (0 : BitVec 5))) none (xs.map (fun x => x.map (intVal t)))
    (r.1.map (fun x => x.map (fun v => wrapInt w (if sat then satInt (isSigned t) w v else v))), 0)
  else scan (combineFloat op (fmtOf t) mode) none xs

/-! ### Attention merge (R150) -/

/-- 2^d rounded to FP32 for the exact difference d of two maxima. -/
def pow2Diff (m1 m : FVal) : Lane :=
  match m1, m with
  | .inf true, _ => (0, 0)
  | .fin n1 a1 e1, .fin n2 a2 e2 =>
    match addFin .rne n1 a1 e1 (!n2) a2 e2 with
    | .fin n a e => if a = 0 then (0x3F800000, 0) else encApprox fmt32 .rne false 6 ((a * 2 ^ 12 + (e + 2048).toNat) * 2 + (if n then 1 else 0)) (exp2Of n a e)
    | _ => (0x3F800000, 0)
  | _, _ => (0x3F800000, 0)

/-- Two triples (m, s, a) merged. -/
def mergeLane (x y : Nat × Nat × Nat) : (Nat × Nat × Nat) × BitVec 5 :=
  let f := fmt32
  let v := [x.1, x.2.1, x.2.2, y.1, y.2.1, y.2.2].map f.val
  let m1 := f.val x.1
  let m2 := f.val y.1
  let top := m1 == .inf false || m2 == .inf false
  if v.any FVal.isNan || top then
    ((f.nan, f.nan, f.nan), if v.any FVal.isSnan || top then flagNV else 0)
  else if m1 == .inf true && m2 == .inf true then ((2 ^ 31 + f.infPattern, 0, 0), 0)
  else
    let mp := (fPick true f x.1 y.1).1
    let m := f.val mp
    let f1 := pow2Diff m1 m
    let f2 := pow2Diff m2 m
    let dot (a b : Nat) : Lane :=
      let p := FVal.mul (f.val a) (f.val f1.1)
      let q := FVal.mul (f.val b) (f.val f2.1)
      let r := FVal.add .rne p.1 q.1
      let e := f.enc .rne false r.1
      (e.1, e.2 ||| p.2 ||| q.2 ||| r.2)
    let s := dot x.2.1 y.2.1
    let a := dot x.2.2 y.2.2
    ((mp, s.1, a.1), f1.2 ||| f2.2 ||| s.2 ||| a.2)

end Sys2Proof.Machine
end

