-- ==== Sys2Proof/Machine/MatrixOps.lean ====
section
/-! DEFINITION. The matrix engine's arithmetic: operand layouts (R162, R163), floating and sliced products (R64 to R66, R164), counting
(R68 to R71, R165, R166), and the accumulator array (R34, R35). -/

namespace Sys2Proof.Machine
open Sys2Proof

/-! ### The accumulator array -/

def tilesOf : AccConf → Nat
  | .fp => 12
  | .exact => 4
  | .count => 1

/-- Columns (and rows) of a tile. -/
def tileSide : AccConf → Nat
  | .count => 32
  | _ => 64

def Core.element (k : Core) (t i : Nat) : BitVec 96 := Table.get 0 k.acc (4096 * t + i)

/-- Replace a tile's elements by a function of their index. -/
def Core.setTile (k : Core) (t n : Nat) (f : Nat → BitVec 96) : Core :=
  let lo := 4096 * t
  let mid := ((List.range n).map (fun i => (lo + i, f i))).filter (fun x => x.2 != 0)
  { k with acc := k.acc.filter (fun x => decide (x.1 < lo)) ++ mid ++ k.acc.filter (fun x => decide (lo + 4096 ≤ x.1)) }

def Core.setLive (k : Core) (t : Nat) (b : Bool) : Core := { k with live := setBit k.live t b }

/-- Zero a tile; it is no longer live (R170). -/
def Core.clearTile (k : Core) (t : Nat) : Core := (k.setTile t 0 (fun _ => 0)).setLive t false

/-- A saturating addition into an exact element (R65), and whether it saturated. -/
def addExact (x : BitVec 96) (v : Int) : BitVec 96 × Bool :=
  let y := x.toInt + v
  let z := clampInt (-(2 ^ 95 : Nat)) (2 ^ 95 - 1 : Nat) y
  (BitVec.ofInt 96 z, decide (y ≠ z))

/-! ### Operands (R162, R163) -/

/-- Types and geometries of an issue. -/
structure MTypes where
  ta : BitVec 4
  tb : BitVec 4
  sga : Bool
  sgb : Bool
  bka : Nat
  bkb : Nat
deriving DecidableEq, Repr

/-- Block sizes of BKA and BKB codes (R82). -/
def blockOf (c : Nat) : Nat :=
  match c with
  | 0 => 16
  | 1 => 32
  | 2 => 64
  | _ => 128

def MTypes.mx (t : MTypes) : Bool := isX t.ta

/-- The combinations of R163. -/
def MTypes.accepted (t : MTypes) : Bool :=
  let plain := t.bka == 16 && t.bkb == 16 && !t.sga && !t.sgb
  (t.ta == 11 && t.tb == 11 && plain) || (t.ta == 10 && t.tb == 10 && plain) || (isQ t.ta && isQ t.tb && plain) || (isX t.ta && isX t.tb)

/-- Elements of a K-slice (R163). -/
def MTypes.ks (t : MTypes) : Nat :=
  if t.ta = 13 ∧ t.tb = 13 then 256 else if isF t.ta then 64 else 128

/-- Products per cell and cycle. -/
def MTypes.rate (t : MTypes) : Nat :=
  if isF t.ta then 1
  else if isQ t.ta then 2
  else 32 / (mxBits t.ta / 2 * (mxBits t.tb / 2))

/-- Bytes of an operand with n rows: codes, then scales of an MXINT operand. -/
def operandBytes (ty : BitVec 4) (ks n bk : Nat) : Nat :=
  n * (ks * typeWidth ty / 8) + (if isX ty then n * (ks / bk) else 0)

/-- Pattern of element k of row r of an operand's bytes. -/
def rowElem (bs : Array Byte) (ty : BitVec 4) (ks r k : Nat) : Nat :=
  let rb := ks * typeWidth ty / 8
  match typeWidth ty with
  | 4 => (bs.getD (r * rb + k / 2) 0).toNat / 16 ^ (k % 2) % 16
  | 8 => (bs.getD (r * rb + k) 0).toNat
  | _ => (bs.getD (r * rb + 2 * k) 0).toNat + 256 * (bs.getD (r * rb + 2 * k + 1) 0).toNat

/-- Scale of row r, block q. -/
def rowScale (bs : Array Byte) (ty : BitVec 4) (ks n bk r q : Nat) : Nat :=
  (bs.getD (n * (ks * typeWidth ty / 8) + r * (ks / bk) + q) 0).toNat

/-! ### MMA (R64, R66, R164) -/

/-- One output of a floating MMA: groups of eight products, each added with one rounding. -/
def mmaFloat (t : MTypes) (a b : Array Byte) (r c : Nat) (acc : Nat) : Lane :=
  let fa := fmtOf t.ta
  let fb := fmtOf t.tb
  (List.range (t.ks / 8)).foldl (fun (x : Lane) g =>
    let ps := (List.range 8).map (fun j =>
      (fa.val (rowElem a t.ta t.ks r (8 * g + j)), fb.val (rowElem b t.tb t.ks c (8 * g + j))))
    let sum := groupSum ps
    let y := FVal.add .rne (fmt32.val x.1) sum.1
    let e := fmt32.enc .rne false y.1
    (e.1, x.2 ||| sum.2 ||| y.2 ||| e.2)) (acc, 0)

/-- Segments of a slice: K indices cut at every block boundary of A and of B, each with its first index and its length. -/
def MTypes.segments (t : MTypes) : List (Nat × Nat) :=
  let n := if t.bka < t.bkb then t.bka else t.bkb
  (List.range (t.ks / n)).map (fun g => (n * g, n))

/-- The first exact-range fault of an output (R55, R66, R164): operand index, A's where NaN blocks of both meet. (DESIGN CHOICE, log 94) -/
def mmaFault (t : MTypes) (eb : Int) (a b : Array Byte) (r c : Nat) : Option Nat :=
  t.segments.findSome? (fun g =>
    let ea := rowScale a t.ta t.ks 64 t.bka r (g.1 / t.bka)
    let eb' := rowScale b t.tb t.ks 64 t.bkb c (g.1 / t.bkb)
    if ea = 255 then some 0
    else if eb' = 255 then some 1
    else
      let s := ((ea : Int) - 127) + ((eb' : Int) - 127) - eb
      if s < 0 ∨ 63 < s then some 3 else none)

/-- One output of a sliced MMA. -/
def mmaExact (t : MTypes) (eb : Int) (a b : Array Byte) (r c : Nat) (acc : BitVec 96) : BitVec 96 × Bool :=
  t.segments.foldl (fun (x : BitVec 96 × Bool) g =>
    let ea := rowScale a t.ta t.ks 64 t.bka r (g.1 / t.bka)
    let eb' := rowScale b t.tb t.ks 64 t.bkb c (g.1 / t.bkb)
    let s := (((ea : Int) - 127) + ((eb' : Int) - 127) - eb).toNat
    let sum := (List.range g.2).foldl (fun (v : Int) k =>
      v + mxCode t.ta t.sga (rowElem a t.ta t.ks r (g.1 + k)) * mxCode t.tb t.sgb (rowElem b t.tb t.ks c (g.1 + k))) 0
    let y := addExact x.1 (sum * 2 ^ s)
    (y.1, x.2 || y.2)) (acc, false)

/-! ### Counting (R68 to R71) -/

/-- Magnitudes of the classes (R68), N4 × S4 and S4 × N4, then S4 × S4. -/
def classesNS : List Nat :=
  [1, 2, 3, 4, 5, 6, 7, 8, 9, 10, 11, 12, 13, 14, 15, 16, 18, 20, 21, 22, 24, 25, 26, 27, 28, 30] ++
  [32, 33, 35, 36, 39, 40, 42, 44, 45, 48, 49, 50, 52, 54, 55, 56, 60, 63, 64, 65, 66, 70, 72, 75, 77, 78, 80] ++
  [84, 88, 90, 91, 96, 98, 104, 105, 112, 120]

def classesSS : List Nat :=
  [1, 2, 3, 4, 5, 6, 7, 8, 9, 10, 12, 14, 15, 16, 18, 20, 21, 24, 25, 28, 30, 32, 35, 36, 40, 42, 48, 49, 56, 64]

def classesOf (comb : Nat × Nat) : List Nat := if comb = (0, 0) then classesSS else classesNS

/-- The counting state of a core while a step runs. -/
structure Counting where
  counters : Table (BitVec 18)
  comb : Option (Nat × Nat)
  w : Int
  bound : Nat
  drains : Word
  core : Core
  aovf : Bool
  /-- automatic drains of this issue -/
  autos : Nat

def Counting.liveBank (x : Counting) : Bool := !x.counters.isEmpty

/-- What the bank holds for an output (R71). -/
def bankSum (counters : Table (BitVec 18)) (cls : List Nat) (o : Nat) : Int :=
  (counters.filter (fun c => decide (64 * o ≤ c.1) && decide (c.1 < 64 * o + 64))).foldl
    (fun s c => s + c.2.toInt * (cls.getD (c.1 - 64 * o) 0 : Nat)) 0

/-- Drain the bank into acc0 and clear it; CBOUND := 0 (R71). -/
def Counting.drain (x : Counting) (eb : Int) : Counting :=
  let cls := classesOf (x.comb.getD (0, 0))
  let sh := (x.w - eb).toNat
  let news := (List.range 1024).map (fun o => addExact (x.core.element 0 o) (bankSum x.counters cls o * 2 ^ sh))
  let arr := news.toArray
  { x with counters := [], bound := 0,
           core := (x.core.setTile 0 1024 (fun o => (arr.getD o (0, false)).1)).setLive 0 true,
           aovf := x.aovf || news.any (fun y => y.2) }

/-- An automatic drain that sets w (R70). -/
def Counting.autoDrain (x : Counting) (eb w : Int) : Counting :=
  let y := x.drain eb
  { y with w := w, drains := y.drains + 1, autos := y.autos + 1 }

/-- A nonzero pair of a step: output, class, sign, combined exponent. -/
structure CPair where
  o : Nat
  cls : Nat
  neg : Bool
  c : Int
deriving DecidableEq, Repr

/-- Count the pairs of one pass (R69). -/
def Counting.pass (x : Counting) (ps : List CPair) (p : Int) : Counting :=
  { x with
    counters := ps.foldl (fun t q =>
      let d : Int := (if q.neg then -1 else 1) * 2 ^ (q.c - x.w).toNat
      let key := 64 * q.o + q.cls
      Table.set 0 t key (BitVec.ofInt 18 ((Table.get 0 t key).toInt + d))) x.counters
    bound := x.bound + 64 * 2 ^ (p - x.w).toNat }

def maxInt (l : List Int) (d : Int) : Int := l.foldl (fun a b => if a < b then b else a) (l.headD d)
def minInt (l : List Int) (d : Int) : Int := l.foldl (fun a b => if b < a then b else a) (l.headD d)

/-- The passes of a step (R70 steps 4 and 5): n more at most. -/
def Counting.passes (eb : Int) : Nat → Counting → List CPair → Counting
  | 0, x, _ => x
  | n + 1, x, ps =>
    let now := ps.filter (fun q => decide (q.c ≤ x.w + 7))
    let later := ps.filter (fun q => !decide (q.c ≤ x.w + 7))
    let x := if now.isEmpty then x else x.pass now (maxInt (now.map (fun q => q.c)) x.w)
    if later.isEmpty then x else Counting.passes eb n (x.autoDrain eb (minInt (later.map (fun q => q.c)) x.w)) later

/-- The nonzero pairs of K indices 64 s to 64 s + 63 (R69). -/
def stepPairs (t : MTypes) (a b : Array Byte) (st : Nat) : List CPair :=
  let cls := classesOf (if t.sga then 1 else 0, if t.sgb then 1 else 0)
  (List.range 1024).flatMap (fun o =>
    (List.range 64).filterMap (fun j =>
      let k := 64 * st + j
      let x := mxCode t.ta t.sga (rowElem a t.ta 256 (o / 32) k)
      let y := mxCode t.tb t.sgb (rowElem b t.tb 256 (o % 32) k)
      if x = 0 ∨ y = 0 then none
      else
        let ea := rowScale a t.ta 256 32 t.bka (o / 32) (k / t.bka)
        let eb := rowScale b t.tb 256 32 t.bkb (o % 32) (k / t.bkb)
        some ⟨o, cls.findIdx (fun m => m == (x * y).natAbs), decide (x * y < 0), ((ea : Int) - 127) + ((eb : Int) - 127)⟩))

/-- A NaN block that a step's slice covers (R55): operand index, A's where blocks of both are covered. (DESIGN CHOICE, log 94) -/
def stepNan (t : MTypes) (a b : Array Byte) (st : Nat) : Option Nat :=
  let blocks (bk : Nat) : List Nat := ((List.range 64).map (fun j => (64 * st + j) / bk)).eraseDups
  let has (bs : Array Byte) (ty : BitVec 4) (bk : Nat) : Bool :=
    (List.range 32).any (fun r => (blocks bk).any (fun q => rowScale bs ty 256 32 bk r q == 255))
  if has a t.ta t.bka then some 0 else if has b t.tb t.bkb then some 1 else none

/-- One MMAC step (R70, R166): the new state, or the operand index of an exact-range fault. -/
def countStep (t : MTypes) (eb : Int) (a b : Array Byte) (st : Nat) (x : Counting) : Except Nat Counting :=
  match stepNan t a b st with
  | some m => .error m
  | none =>
    let ps := stepPairs t a b st
    let cs := ps.map (fun p => p.c)
    if ps.any (fun p => decide (p.c < eb) || decide (eb + 63 < p.c)) then .error 3
    else if ps.isEmpty then .ok x
    else
      let comb := (if t.sga then 1 else 0, if t.sgb then 1 else 0)
      let cmin := minInt cs 0
      let cmax := maxInt cs 0
      let x := if x.liveBank && x.comb != some comb then
          let y := x.autoDrain eb x.w
          { y with comb := none }
        else x
      if !x.liveBank then .ok (Counting.passes eb 9 { x with w := cmin, bound := 0, comb := some comb } ps)
      else
        let top := if cmax < x.w + 7 then cmax else x.w + 7
        let x := if cmin < x.w ∨ 7 < cmax - x.w ∨ 131071 < x.bound + 64 * 2 ^ (top - x.w).toNat then x.autoDrain eb cmin else x
        .ok (Counting.passes eb 9 x ps)

end Sys2Proof.Machine
end

