-- ==== Sys2Proof/Machine/Issue.lean ====
section
/-! DEFINITION. Issuing one word: the checks of decoding's row 5 (R86), FIXED segments (R246, R247), crossings (R250), tokens (R78),
the register scoreboard (R242, R243), waiting and missing (R244, R248), the copies of a Reckoner round (R233), and what
every word does when it retires. A word's own effect is the body that it hands to `issueWord`. -/

namespace Sys2Proof.Machine
open Sys2Proof

/-- What an instruction's description says about its issue. -/
structure Issue where
  /-- sequencers that may issue it (R102, R131, R157, R182, R210) -/
  who : List SeqId
  /-- whether it has lanes (R79) -/
  lanes : Bool
  /-- latency L (R241) -/
  lat : Nat
  /-- g-registers read and written by the sequencer itself -/
  srcs : List (BitVec 6)
  dsts : List (BitVec 6)
  /-- bytes of the word or record (R73) -/
  size : Nat
  /-- STAMP of a record (R247) -/
  stamp : Option Nat
  /-- the FIFO port it enters: its TKS pushes are made when the command completes (R78, R241) -/
  engine : Option Nat
  /-- the word or record itself, where it enters a FIFO -/
  cmd : Option Instr
  /-- an operand absent from the present configuration (R86 row 6) -/
  absent : Option FaultInfo
  /-- HALT, which waits in a FIXED region too (R248) -/
  patient : Bool
  /-- acts once for a round (R233): the round words of MAJ 0xB2 but RKSTAT -/
  once : Bool
  /-- illegal in a slot other than 0 (R130, R156, R181, R209, R240) -/
  noSpec : Bool
  /-- tokens it pushes and pops itself, by peer (R114) -/
  pushes : List (SeqId × Nat)
  pops : List (SeqId × Nat)

/-- A sequencer word with no lanes. -/
def Issue.scalar (srcs dsts : List (BitVec 6)) : Issue :=
  { who := allSeqs, lanes := false, lat := 1, srcs := srcs, dsts := dsts, size := 16, stamp := none, engine := none, cmd := none, absent := none,
    patient := false, once := false, noSpec := false, pushes := [], pops := [] }

/-- A word that enters an engine's FIFO: it reads GA, GB and GC. -/
def engineIssue (i : Instr) (port : Nat) (who : List SeqId) (noSpec : Bool) (o : EngOps) : Issue :=
  { Issue.scalar [o.ga, o.gb, o.gc] [] with who := who, engine := some port, cmd := some i, noSpec := noSpec }

/-- A record header that enters an engine's FIFO: it reads its bases, and it is issued once for a round (R92). -/
def recordIssue (i : Instr) (port : Nat) (who : List SeqId) (lanes : Bool) (r : RecOps) : Issue :=
  { Issue.scalar [r.da.base, r.db.base, r.dc.base, r.xg] [] with
    who := who, lanes := lanes, size := 64, stamp := some r.stamp.toNat, engine := some port, cmd := some i, once := true }

/-- How a body ends. -/
inductive Eff where
  /-- the effect is done; the next word of this copy -/
  | done (s : State) (next : Word)
  /-- the effect is done, and it is a taken control transfer to a word -/
  | jump (s : State) (next : Word)
  /-- the word waits: what for, as `Sequencer.waitOn` -/
  | wait (s : State) (on : Option Nat)
  /-- the word waits for a page walk, which no FIXED region counts as a miss -/
  | walk (va : Nat)
  /-- a precise cause -/
  | trap (i : FaultInfo)

/-! ### Tokens (R40, R78) -/

/-- Token queue 3 source + rank of the destination among the source's peers (R44 TQLEV). -/
def tokenQueue (src dst : SeqId) : Nat := 3 * src.num + (src.peers.findIdx (fun q => q == dst))

def Core.tokensOf (k : Core) (q : Nat) : List Token := Table.get [] k.tokens q

/-- A vector memory record. -/
def Command.memoryRecord (c : Command) : Bool :=
  match c.instr with
  | .vectorMemoryRecord _ _ _ => true
  | _ => false

/-- A vector memory record of loads. -/
def Command.loadRecord (c : Command) : Bool :=
  match c.instr with
  | .vectorMemoryRecord fn _ _ => fn.toNat % 2 == 0
  | _ => false

/-- A sequencer's vector memory records that have not completed; they stand in its program order at their headers (R147, R154).
(DEDUCED, log 80) -/
def Core.memoryRecords (k : Core) (q : SeqId) : List Command :=
  (k.fifo (vectorPort q)).filter (fun c => c.memoryRecord && c.seq == q)

/-- VQPOP, which the later accesses of its sequencer follow (R270). -/
def Command.popsData (c : Command) : Bool :=
  match c.instr with
  | .vqpop _ _ => true
  | _ => false

/-- No access of a list, and no vector memory record or data-queue pop in it, is still unperformed. -/
def Core.performed (k : Core) (ids : List Nat) : Bool :=
  !(k.loads.any (fun a => ids.contains a.id)) && !(k.stores.any (fun a => ids.contains a.id)) &&
  !([SeqId.l, .s].any (fun q => (k.memoryRecords q).any (fun c => ids.contains c.id))) &&
  !([5, 6].any (fun p => (k.fifo p).any (fun c => c.popsData && c.result.isNone && ids.contains c.id)))

/-- Unperformed loads of a sequencer (R111). -/
def Core.openLoads (k : Core) (q : SeqId) : List Nat :=
  (k.loads.filter (fun a => a.seq == q)).map (fun a => a.id) ++
  ((k.memoryRecords q).filter (fun c => c.loadRecord)).map (fun c => c.id)

/-- Unperformed accesses of a sequencer: those that its next push comes after (R270). -/
def Core.openAccesses (k : Core) (q : SeqId) : List Nat :=
  ((k.loads ++ k.stores).filter (fun a => a.seq == q)).map (fun a => a.id) ++ (k.memoryRecords q).map (fun c => c.id)

/-- Unperformed loads, and accesses, that stand in a sequencer's queues: those that its FENCE waits for, which waits for no record in a
FIFO (R111). -/
def Core.queuedLoads (k : Core) (q : SeqId) : List Nat := (k.loads.filter (fun a => a.seq == q)).map (fun a => a.id)
def Core.queuedAccesses (k : Core) (q : SeqId) : List Nat := ((k.loads ++ k.stores).filter (fun a => a.seq == q)).map (fun a => a.id)

/-- Unperformed accesses of a sequencer's own words; the records that engines have accepted run on (R129). -/
def Core.wordAccesses (k : Core) (q : SeqId) : List Nat :=
  (k.queuedAccesses q).filter (fun i => !(k.memoryRecords q).any (fun c => c.own.contains i))

/-- A token's push has taken place, and what comes before it has taken effect (R78, R241, R270). -/
def Core.tokenReady (k : Core) (now : Nat) (t : Token) : Bool := decide (t.ready ≤ now) && k.performed t.deps

/-- How many tokens of a queue can be popped now. -/
def Core.poppable (k : Core) (now : Nat) (q : Nat) : Nat := ((k.tokensOf q).filter (fun t => k.tokenReady now t)).length

/-- The tokens that a pop of n takes: those pushed first. -/
def Core.firstTokens (k : Core) (now q n : Nat) : List Token := ((k.tokensOf q).filter (fun t => k.tokenReady now t)).take n

/-- Room of a queue for n more, counting reserved places (R78). -/
def Core.hasRoom (k : Core) (q n : Nat) : Bool :=
  decide ((k.tokensOf q).length + Table.get 0 k.reserved q + n ≤ 15)

def Core.popTokens (k : Core) (now q n : Nat) : Core :=
  { k with tokens := Table.set [] k.tokens q ((k.firstTokens now q n).foldl (fun l t => l.erase t) (k.tokensOf q)) }

/-- Tokens stand in the order of the cycles in which they are pushed (R241). -/
def Core.pushTokens (k : Core) (q n : Nat) (t : Token) : Core :=
  let old := k.tokensOf q
  { k with tokens := Table.set [] k.tokens q
            (old.filter (fun x => decide (x.ready ≤ t.ready)) ++ List.replicate n t ++ old.filter (fun x => decide (t.ready < x.ready))) }

def Core.reserve (k : Core) (q : Nat) : Core := { k with reserved := Table.set 0 k.reserved q (Table.get 0 k.reserved q + 1) }

/-- A command's reserved place becomes a token (R78). -/
def Core.pushReserved (k : Core) (q at_ : Nat) (deps : List Nat) : Core :=
  { k.pushTokens q 1 ⟨at_, deps, []⟩ with reserved := Table.set 0 k.reserved q (Table.get 0 k.reserved q - 1) }

/-- Peers named by a three-bit field (R78). -/
def named (q : SeqId) (bits : BitVec 3) : List SeqId :=
  (q.peers.zipIdx.filter (fun p => bits.getLsbD p.2)).map (fun p => p.1)

/-- Tokens to pop from each peer: the header's, then the word's own (R114). -/
def popCounts (q : SeqId) (h : Header) (own : List (SeqId × Nat)) : List (Nat × Nat) :=
  q.peers.map (fun p => (tokenQueue p q, ((named q h.tkp).filter (fun y => y == p)).length +
    ((own.filter (fun y => y.1 == p)).map (fun x => x.2)).sum))

def pushCounts (q : SeqId) (h : Header) (own : List (SeqId × Nat)) : List (Nat × Nat) :=
  q.peers.map (fun p => (tokenQueue q p, ((named q h.tks).filter (fun y => y == p)).length +
    ((own.filter (fun y => y.1 == p)).map (fun x => x.2)).sum))

/-! ### Timing of the present word -/

/-- Cycle of the first issue of a record in a segment with base cycle n0 (R247): n0 + ceil(STAMP k / 8). -/
def stampCycle (n0 stamp k : Nat) : Nat := n0 + (stamp * k + 7) / 8

/-- Issue cycle of the present FIXED word inside a segment: after the previous issue, or at the record's stamp. -/
def State.dueCycle (s : State) (p : Issue) : Option Nat :=
  match s.mySeq.segment with
  | none => none
  | some (n0, _) =>
    match p.stamp with
    | some st => some (stampCycle n0 st (s.kOf s.cur.core))
    | none => s.mySeq.lastIssue.map (fun c => c + 1)

/-- Commands numbered below a bound are still held by an engine or being performed, or a faulted one's entry is still to be pushed
(R250, R365). -/
def Core.commandsBelow (k : Core) (bound : Nat) : Bool :=
  (List.range 8).any (fun p => (k.fifo p).any (fun c => decide (c.id < bound)) ||
    (match Table.get none k.stopped p with
     | some st => st.resumed && st.command.any (fun c => decide (c.id < bound))
     | none => false))

/-- Every earlier word of the sequencer has retired (R129, R250). -/
def Core.retired (k : Core) (q : SeqId) (now : Nat) : Bool :=
  (k.seq q).outstanding.isEmpty && (k.wordAccesses q).isEmpty && (k.seq q).ready.all (fun r => decide (r.2 ≤ now))

/-- A register that may be read and written now (R241, R242). -/
def Sequencer.usable (r : Sequencer) (now : Nat) (n : BitVec 6) : Bool :=
  n == 0 || (decide (Table.get 0 r.ready n.toNat ≤ now) && !r.outstanding.contains n.toNat)

/-- A party of the core has waited longer for the same place than one that waits since a cycle: sequencers in the order C, L, X, S
with their own vector words, then the remote command inbox (R244). (DEDUCED, log 86) -/
def Core.olderThan (k : Core) (on since rank : Nat) : Bool :=
  let before (w : Option (Nat × Nat)) (r : Nat) : Bool := match w with
    | some (o, t) => o == on && (decide (t < since) || (decide (t = since) && decide (r < rank)))
    | none => false
  allSeqs.any (fun o => match (k.seq o).waitOn, (k.seq o).waitSince with
    | some p, some t => before (some (p, t)) o.num
    | _, _ => false) ||
  [4, 5, 6].any (fun p => (k.fifo p).any (fun c => before c.waitSince c.seq.num)) ||
  k.inbox.any (fun b => before b.since 4)

/-- Another party of the core has waited longer for a place that a sequencer's word needs (R244). -/
def Core.older (k : Core) (q : SeqId) (on now : Nat) : Bool := k.olderThan on ((k.seq q).waitSince.getD now) q.num

/-- Note that the present word waits: its age is that of its first wait, whatever it waited for (R244). (DEDUCED, log 106) -/
def State.markWait (s : State) (on : Option Nat) : State :=
  s.mapMySeq (fun r => { r with waitSince := some (r.waitSince.getD s.cycle), waitOn := on })

/-- The word has a further turn in the present cycle, after the other sequencers' (R41). -/
def State.mayRetry (s : State) : Bool := s.mySeq.turnAt == some s.cycle && s.mySeq.turns == 1

/-- What the checks before a word's own effect come to. -/
inductive Gate where
  | trap (i : FaultInfo)
  /-- this turn does not issue it: the cycle is taken, or its cycle has not come -/
  | stay
  /-- a record's segment begins in this cycle, and its stamp is still to come (R246, R247) -/
  | base
  | wait (on : Option Nat) (drain : Option Nat)
  | miss
  | skip
  | go
deriving DecidableEq, Repr

/-- The pops that the present word has still to take: none after the base of a segment that it begins (R246). -/
def State.popsLeft (s : State) (p : Issue) (h : Header) : List (Nat × Nat) :=
  if s.mySeq.poppedAt = some s.pc then [] else popCounts s.cur.seq h p.pops

/-- The conditions of R243 that a word's header and registers set: pops, room for its pushes, its registers; in a FIXED region a
failing one is a miss (R248). A place that another sequencer frees in the same cycle serves it still (R41). -/
def gateReady (p : Issue) (h : Header) (s : State) : Gate :=
  let k := s.me
  let now := s.cycle
  let pops := s.popsLeft p h
  let pushes := pushCounts s.cur.seq h p.pushes
  let full (c : Nat × Nat) : Bool := c.2 != 0 && !k.hasRoom c.1 c.2
  let fails (on : Option Nat) : Gate := if h.m == 1 && !p.patient then .miss else .wait on none
  if p.stamp.isSome && h.m == 0 && s.mgmt.throttled then .wait none none
  else if !pops.all (fun c => decide (c.2 ≤ k.poppable now c.1)) then
    fails ((pops.find? (fun c => decide (k.poppable now c.1 < c.2))).map (fun c => 16 + c.1))
  else if pushes.any full then
    if s.mayRetry then .wait ((pushes.find? full).map (fun c => 16 + c.1)) none else fails ((pushes.find? full).map (fun c => 16 + c.1))
  else if !(p.srcs ++ p.dsts).all (fun n => s.mySeq.usable now n) then fails none
  else .go

/-- The checks of a word that its sequencer takes up in a cycle: R247 in a FIXED segment, the base of a segment (R246), the stage
predicate (R79), then the conditions of R243. -/
def gateTimed (p : Issue) (h : Header) (s : State) : Gate :=
  let now := s.cycle
  let off := !s.predicate h
  let ready : Gate := if off then .skip else gateReady p h s
  if h.m = 0 then ready
  else if s.mySeq.segment.isSome then
    match s.dueCycle p with
    | none => ready
    | some d =>
      if now < d then .stay
      else if off then .skip
      else if (decide (d < now) || (p.stamp.isSome && (match s.mySeq.lastIssue with | some c => decide (d ≤ c) | none => false))) && !p.patient
        then .miss
      else ready
  else
    let pops := s.popsLeft p h
    if s.mgmt.throttled && !p.patient then .wait none none
    else if !off && !pops.all (fun c => decide (c.2 ≤ s.me.poppable now c.1)) then
      .wait ((pops.find? (fun c => decide (s.me.poppable now c.1 < c.2))).map (fun c => 16 + c.1)) none
    else match p.stamp with
      | some st => if now < stampCycle now st (s.kOf s.cur.core) then .base else ready
      | none => ready

/-- The checks before a word's effect, for the copy of slot s.cur.slot (R79, R86 rows 5 and 6, R233, R243, R246 to R248, R250). The word
counts as fetched in the cycle in which its sequencer first takes it up. (DEDUCED, log 87) -/
def gate (p : Issue) (h : Header) (s : State) : Gate :=
  let k := s.me
  let r := s.mySeq
  let now := s.cycle
  if !p.who.contains s.cur.seq || (h.rot == 1 && s.cur.seq != .x) || ((h.msrc == 1 || h.msrc == 2) && !p.lanes) then .trap (.bare .illegal)
  else match p.absent with
  | some i => .trap i
  | none =>
    if s.cur.slot ≠ 0 then .go
    else if (match r.lastIssue with | some c => decide (now ≤ c) | none => false) then .stay
    else
      let crossing := match r.lastM with
        | some m => m != (h.m == 1)
        | none => false
      let bound := r.drain.getD s.nextId
      -- at the base of its segment the word has drained
      let based : Bool := h.m == 1 && r.segment.isSome
      if crossing && !based && (!k.retired s.cur.seq now || k.commandsBelow bound) then .wait none (some bound)
      else gateTimed p h s

/-! ### Retiring a copy -/

/-- The 128-byte line of an address. -/
def lineAddr (a : Word) : Nat := a.toNat / 128 * 128

/-- Fetch goes on at an address: lines behind are let go, and a control transfer refetches its target's line (R248, R282). -/
def Sequencer.goTo (r : Sequencer) (next : Word) (transfer : Bool) : Sequencer :=
  { r with
    pc := next
    lines := r.lines.filter (fun l =>
      if transfer then l.addr != lineAddr next else decide (lineAddr next ≤ l.addr) && decide (l.addr ≤ lineAddr next + 256)) }

/-- The next live slot of the round above j, if the owner's word has copies. -/
def Core.nextCopy (k : Core) (j : Nat) : Option Nat :=
  (List.range k.round.w).find? (fun i => decide (j < i) && k.slotLive i)

/-- Whether the present sequencer's words are carried out for every live slot (R233). -/
def State.inRound (s : State) (once : Bool) : Bool := s.me.round.st == .running && s.me.round.owner == s.cur.seq && !once

/-- The accesses that the word at a place made: the last of those still unperformed (R241). -/
def Core.ownAccess (k : Core) (q : SeqId) (pc : Word) : List Nat :=
  (((k.loads ++ k.stores).filter (fun a => a.seq == q && a.pc == pc)).map (fun a => a.id)).max?.toList

/-- Remote and host writes, not yet acknowledged, that core order places before what a sequencer does next: its own, those of S-seq
before L-seq's MARKs, and those that it has inherited with what it popped; a vector memory record stands for those that it makes (R112, R270,
R273, R352). (DEDUCED, log 35) -/
def Core.postedBefore (k : Core) (q : SeqId) : List Nat :=
  (k.memoryRecords q).map (fun c => c.id) ++ (k.seq q).inherits.filter (fun i => k.posted.any (fun e => e.record == some i)) ++
  (k.posted.filter (fun e => (e.seq == q && e.command.isNone) || (k.seq q).inherits.contains e.id ||
    (q == .l && e.seq == .s && e.command.isNone &&
      (match k.seqS.marks[k.seqL.marks.length - 1]? with
       | some m => k.seqL.marks.length != 0 && decide (e.id < m.2)
       | none => k.seqL.marks.length != 0)))).map (fun e => e.id)

/-- Writes among some, or of vector memory records among them, are still unacknowledged or still to be made (R352). -/
def Core.unacknowledged (k : Core) (ids : List Nat) : Bool :=
  k.posted.any (fun e => ids.contains e.id || e.record.any (fun c => ids.contains c)) ||
  [SeqId.l, .s].any (fun q => (k.memoryRecords q).any (fun c => ids.contains c.id))

/-- What a sequencer pops brings the writes that stand before it (R270). -/
def Core.inherit (k : Core) (q : SeqId) (ids : List Nat) : Core :=
  k.mapSeq q (fun r => { r with inherits := ((r.inherits ++ ids).filter (fun i => k.unacknowledged [i])).eraseDups })

/-- Take tokens from queues for a sequencer (R78, R270). -/
def Core.takeTokens (k : Core) (q : SeqId) (now : Nat) (pops : List (Nat × Nat)) : Core :=
  pops.foldl (fun k c => k.popTokens now c.1 c.2)
    (k.inherit q (pops.flatMap (fun c => (k.firstTokens now c.1 c.2).flatMap (fun t => t.deps))))

/-- Pops, pushes, readiness and issue bookkeeping of slot 0's copy (R78, R241, R246). -/
def State.account (s : State) (p : Issue) (h : Header) : State :=
  let q := s.cur.seq
  let now := s.cycle
  s.mapMe (fun k =>
    let k := k.takeTokens q now (s.popsLeft p h)
    let t : Token := ⟨now + p.lat, k.openAccesses q ++ k.postedBefore q, k.ownAccess q s.pc⟩
    let k := if p.engine.isSome then ((named q h.tks).map (tokenQueue q)).foldl (fun k t => k.reserve t) k
      else (pushCounts q h p.pushes).foldl (fun k c => if c.2 = 0 then k else k.pushTokens c.1 c.2 t) k
    k.mapSeq q (fun r =>
      { r with
        ready := p.dsts.foldl (fun t n => if n = 0 then t else Table.set 0 t n.toNat (now + p.lat))
          (r.ready.filter (fun x => decide (now < x.2))),
        lastIssue := some now, lastM := some (h.m == 1), poppedAt := none, scattered := 0, drain := none, waitSince := none, waitOn := none,
        segment := if h.m = 1 then some (r.segment.getD (now, s.tick)) else none }))

/-- The sequencer goes on at an address, by a taken transfer or not (R246, R248, R282). -/
def State.goOn (s : State) (next : Word) (taken : Bool) : State :=
  s.mapMySeq (fun r => { r.goTo next taken with segment := if taken then none else r.segment })

/-- A handler has returned: to a word between whose copies its trap was taken, whose other copies act now, or elsewhere (R233, R292). -/
def Core.resumeCopies (k : Core) (q : SeqId) : Core :=
  match k.round.interrupted with
  | none => k
  | some (pc, slot, target, taken, outcome) =>
    if (k.seq q).inHandler then k
    else if (k.seq q).pc = pc then
      { k with round := { k.round with interrupted := none, nextSlot := slot, target0 := target, taken0 := taken, outcome := outcome } }
    else { k with round := { k.round with interrupted := none } }

/-- End of the copy of the present slot: the next live slot's copy comes next, or the word is complete (R233, R241). -/
def State.retire (s : State) (p : Issue) (h : Header) (next : Word) (taken : Bool) : State :=
  let s0 := if s.cur.slot = 0 then s.account p h else s
  let s1 := if s.inRound p.once then
      if s.cur.slot = 0 then s0.mapMe (fun k => { k with round := { k.round with target0 := next, taken0 := taken } })
      else if next = s.me.round.target0 then s0 else s0.squash
    else s0
  if s.inRound p.once then
    match s1.me.nextCopy s.cur.slot with
    | some j => s1.mapMe (fun k => { k with round := { k.round with nextSlot := j } })
    | none =>
      (s1.goOn s1.me.round.target0 s1.me.round.taken0).mapMe (fun k => { k with round := { k.round with nextSlot := 0 } }.resumeCopies s.cur.seq)
  else s1.goOn next taken

/-- A precise cause in the present copy (R94, R235, R363): slot 0 takes the trap; another slot holds the fault, or stops for
a trap of speculation, and the word goes on with the next slot. -/
def State.trapCopy (s : State) (p : Issue) (h : Header) (i : FaultInfo) : State :=
  if s.cur.slot = 0 then
    (s.takeTrap i).mapMySeq (fun r => { r with lastM := some (h.m == 1), lastIssue := some s.cycle })
  else
    let s1 := if i.cause = .speculation then s.squash else s.holdFault i s.pc
    s1.retire p h s.me.round.target0 s.me.round.taken0

/-! ### Entering an engine's FIFO (R42, R43, R183, R252) -/

/-- Room for one more command: 16 entries not yet performed, one in the NOTIFY place. -/
def Core.fifoRoom (k : Core) (port : Nat) : Bool := decide (((k.fifo port).filter (fun c => c.result.isNone)).length < (if port = 7 then 1 else 16))

/-- An engine accepts a command after its NOTIFY for the present event: it belongs to an event to come (R43). -/
def joinLater (e : Nat) (notify : Bool) : List Generation → List Generation
  | [] => [⟨setBit 0 e true, setBit 0 e notify, 0⟩]
  | g :: r =>
    if g.notified.getLsbD e then g :: joinLater e notify r
    else { g with participating := setBit g.participating e true, notified := setBit g.notified e notify } :: r

/-- An engine accepts a command, a NOTIFY or another: its FIFO takes part in the present event, or in a later one (R43). -/
def Core.takePart (k : Core) (e : Nat) (notify : Bool) : Core :=
  if k.notified.getLsbD e then { k with later := joinLater e notify k.later }
  else { k with participating := setBit k.participating e true, notified := setBit k.notified e notify }

/-- NOTIFY (R124). -/
def Command.notifies (c : Command) : Bool :=
  match c.instr with
  | .notify _ _ => true
  | _ => false

/-- Enter a command after those that entered before its cycle, and in its cycle after those of the sequencers that go before its own (R183);
the FIFO takes part in a completion event (R43). -/
def enterOrdered (c : Command) (l : List Command) : List Command :=
  let later (b : Command) : Bool := b.cycle == c.cycle && decide (c.seq.num < b.seq.num) && !b.started && b.result.isNone
  l.take (l.length - (l.reverse.takeWhile later).length) ++ c :: (l.reverse.takeWhile later).reverse

/-- Enter a command into a FIFO, which takes part in a completion event (R43). -/
def Core.accept (k : Core) (port : Nat) (c : Command) : Core :=
  (k.setFifo port (enterOrdered c (k.fifo port))).takePart (engineOfPort port) c.notifies

/-- The command of the present word, with the values its description reads at acceptance. -/
def State.command (s : State) (i : Instr) (h : Header) (vals : List Word) (due : Option Nat) : Command :=
  { id := s.nextId, instr := i, seq := s.cur.seq, slot := s.cur.slot, pc := s.pc, cycle := s.cycle, due := due, vals := vals,
    mask := s.activeMask h, rrb := s.me.rrb,
    w := if s.me.round.st = .running then s.me.round.w else 1, copy := [], remote := none, started := false, iter := 0,
    phase := 0, result := none, nextCycle := 0, waits := s.me.openAccesses s.cur.seq, own := [],
    out := [], failed := none, single := false, waitSince := none, behind := s.me.postedBefore s.cur.seq, wrote := [], shared := [] }

/-- The command of a word in format ENG: G(GA), G(GB), G(GC). -/
def State.engCommand (s : State) (i : Instr) (h : Header) (o : EngOps) : Command :=
  s.command i h [s.g o.ga, s.g o.gb, s.g o.gc] (if h.m = 1 then some s.cycle else none)

/-- A schedule-miss fault (R248): precise at a word that the sequencer carries out; reported for one that goes to an engine, in whose
FIFO it stands without effect until the commands before it are done, and stops the FIFO then (R186, R365). (DEDUCED, log 22) -/
def State.missWord (s : State) (p : Issue) (h : Header) : State :=
  match p.engine, p.cmd with
  | some port, some i =>
    let c := { s.command i h [] none with failed := some (.bare .scheduleMiss) }
    let t := { s.mapMe (fun k => k.setFifo port (enterOrdered c (k.fifo port))) with nextId := s.nextId + 1 }
    (t.account { p with pushes := [], pops := [], dsts := [] } { h with tkp := 0 }).goOn (s.pc + BitVec.ofNat 64 p.size) false
  | _, _ => (s.takeTrap (.bare .scheduleMiss)).mapMySeq (fun r => { r with lastM := some true, lastIssue := some s.cycle })

/-! ### Issuing -/

/-- Carry out one word, or one copy of it, in the present turn. -/
def issueWord (p : Issue) (h : Header) (body : State → Eff) (s : State) : Host.Outcome State Fault Refusal :=
  match gate p h s with
  | .trap i => .next (if s.cur.slot = 0 then s.takeTrap i else s.trapCopy p h i)
  | .stay => .next s
  | .base => .next (((s.markWait none).mapMe (fun k => k.takeTokens s.cur.seq s.cycle (s.popsLeft p h))).mapMySeq
      (fun r => { r with segment := some (s.cycle, s.tick), drain := none, poppedAt := some s.pc }))
  | .wait on drain =>
    .next ((s.markWait on).mapMySeq (fun r => { r with drain := match drain with | some d => some d | none => r.drain }))
  | .miss => .next (s.missWord p h)
  | .skip => .next ((s.account { p with pushes := [], pops := [], dsts := [], engine := none }
      { h with tkp := 0, tks := 0 }).mapMySeq (fun r => r.goTo (r.pc + BitVec.ofNat 64 p.size) false))
  | .go =>
    if s.cur.slot ≠ 0 ∧ p.noSpec then .next (s.trapCopy p h (.bare .speculation))
    else match body s with
      | .done t next => .next (t.retire p h next false)
      | .jump t next => .next (t.retire p h next true)
      | .trap i => .next (s.trapCopy p h i)
      | .walk va => .next ((s.startWalk s.cur.core s.me.asid va).markWait none)
      | .wait t on =>
        if h.m = 1 ∧ s.cur.slot = 0 ∧ p.patient = false then
          if s.mayRetry then .next s else .next (s.missWord p h)
        else .next (t.markWait on)

/-- ADRAIN, which leaves the array to the next command while its latency runs out (R173). -/
def Command.drains (c : Command) : Bool :=
  match c.instr with
  | .adrain _ _ => true
  | _ => false

/-- The engine can begin a command of a FIXED region in its cycle (R183, R248, R252): its FIFO is not stopped, the port is free, and no
earlier command stands in its way. -/
def Core.beginsAtOnce (k : Core) (port : Nat) (c : Command) : Bool :=
  match c.due with
  | none => true
  | some d => (Table.get none k.stopped port).isNone && decide (Table.get 0 k.portFree port ≤ d) &&
      (if port < 4 then (k.fifo port).all (fun b => port == 3 && b.drains && b.result.isSome) else (k.fifo port).all (fun b => b.result.isSome))

/-- Enter a FIFO, or wait for room (R243, R244), as a party that has waited since a cycle. -/
def State.enterAs (s : State) (port : Nat) (c : Command) (size since rank : Nat) : Eff :=
  if s.me.fifoRoom port && !s.me.olderThan port since rank && s.me.beginsAtOnce port c then
    .done { s.mapMe (fun k => k.accept port c) with nextId := s.nextId + 1 } (s.pc + BitVec.ofNat 64 size)
  else .wait s (some port)

/-- The present word's command enters a FIFO. -/
def State.enter (s : State) (port : Nat) (c : Command) (size : Nat) : Eff :=
  s.enterAs port c size (s.mySeq.waitSince.getD s.cycle) s.cur.seq.num

end Sys2Proof.Machine
end

