-- ==== Sys2Proof/Machine/LaunchOps.lean ====
section
/-! DEFINITION. Shared operations over queues and launches: register fields (R305), the packet's fields (R309), tiles in walk order
(R314), what holds a launch back (R307, R311), and completion records (R310). -/

namespace Sys2Proof.Machine
open Sys2Proof

def State.queue (s : State) (q : Nat) : Queue := Table.get Queue.reset s.queues q
def State.setQueue (s : State) (q : Nat) (x : Queue) : State := { s with queues := Table.set Queue.reset s.queues q x }
def State.mapQueue (s : State) (q : Nat) (f : Queue → Queue) : State := s.setQueue q (f (s.queue q))

/-! ### QCFG (R305) -/
def Queue.asid (x : Queue) : Nat := x.qcfg.toNat % 256
def Queue.prio (x : Queue) : Nat := x.qcfg.toNat / 256 % 8
def Queue.weight (x : Queue) : Nat := x.qcfg.toNat / 65536 % 256
def Queue.floor (x : Queue) : Nat := x.qcfg.toNat / 2 ^ 24 % 256
def Queue.ctxn (x : Queue) : Nat := x.qcfg.toNat / 2 ^ 32 % 256

/-- A ring address: bit 63 names host memory, the rest is the address (R304); as a 52-bit physical address (R347). -/
def ringAddress (base : Word) : Nat :=
  let a := base.toNat % 2 ^ 63
  if base.getLsbD 63 then 2 ^ 50 + a % 2 ^ 50 else a

/-! ### The launch packet (R309) -/
def Launch.field (l : Launch) (lo n : Nat) : Nat := bytesNat ((l.packet.drop lo).take n)
def Launch.lid (l : Launch) : Nat := l.field 4 4
def Launch.extent (l : Launch) (i : Nat) : Nat := l.field (24 + 2 * i) 2
def Launch.first (l : Launch) : Nat := l.field 32 4 % 512
def Launch.ncore (l : Launch) : Nat := l.field 32 4 / 65536 % 1024
def Launch.ord (l : Launch) : Bool := l.field 1 1 % 2 == 1
def Launch.fence (l : Launch) : Bool := l.field 1 1 / 2 % 2 == 1
def Launch.dep (l : Launch) : Nat := l.field 40 2
def Launch.scratch (l : Launch) : Nat := l.field 36 4
/-- Number of tiles of the grid. -/
def Launch.tiles (l : Launch) : Nat := l.extent 0 * l.extent 1 * l.extent 2 * l.extent 3
def Launch.includes (l : Launch) (core : Nat) : Bool := decide (l.first ≤ core) && decide (core < l.first + l.ncore)

/-- Indices (i1, i2, i3, i4) of the tile at a place in walk order (R314). -/
def Launch.indices (l : Launch) (n : Nat) : Nat × Nat × Nat × Nat :=
  let e1 := l.extent 0; let e2 := l.extent 1; let e3 := l.extent 2; let e4 := l.extent 3
  if l.ord then (n / (e4 * e3 * e2), n / (e4 * e3) % e2, n / e4 % e3, n % e4)
  else (n % e1, n / e1 % e2, n / (e1 * e2) % e3, n / (e1 * e2 * e3))

/-- Whether a launch is refused, faulted or torn down, so that it dispatches no further tile (R310, R311, R321). -/
def Launch.stopped (l : Launch) : Bool := l.faulted || l.aborted || l.refusedWith != 0

/-! ### Completion records (R310, R311) -/
def State.recordAddress (s : State) (q n : Nat) : Nat :=
  ringAddress (s.queue q).cbase + 64 * (n % (s.queue q).cent.toNat)

/-- A posted write of a record that overlaps bytes has not been acknowledged (R310, R360). -/
def State.recordPending (s : State) (a n : Nat) : Bool := s.records.any (fun r => overlaps r.addr r.data.length a n)

/-- A launch's completion record is on its way (R360). -/
def State.recorded (s : State) (l : Launch) : Bool := s.records.any (fun r => r.launch == some (l.queue, l.lseq))

/-- STATUS byte of an earlier launch's record, read at system scope (R311). -/
def State.depStatus (s : State) (l : Launch) : Nat :=
  (s.physRead true (s.recordAddress l.queue (l.lseq - l.dep) + 4)).toNat

/-- The predecessor's record is being written. -/
def State.depPending (s : State) (l : Launch) : Bool := s.recordPending (s.recordAddress l.queue (l.lseq - l.dep) + 4) 1

/-- DEP holds the launch back: its predecessor's record has not been written. Asked until its first tile is dispatched (R311). -/
def State.depHeld (s : State) (l : Launch) : Bool := l.next == 0 && decide (0 < l.dep) && (s.depPending l || s.depStatus l == 0)

/-- The predecessor ended with another status than OK (R311). -/
def State.depFailed (s : State) (l : Launch) : Bool := l.next == 0 && decide (0 < l.dep) && !s.depPending l && s.depStatus l != 0 && s.depStatus l != 1

/-- DEP or FENCE holds the launch back (R309, R311). -/
def State.launchHeld (s : State) (l : Launch) : Bool :=
  s.depHeld l || (l.next == 0 && l.fence && (s.launches.takeWhile (fun m => !(m.queue == l.queue && m.lseq == l.lseq))).any (fun m => m.queue == l.queue))

/-- The launch has a tile left to dispatch (R312). -/
def Launch.hasTile (l : Launch) : Bool := !l.stopped && decide (l.next < l.tiles)

/-- A tile of the launch has met the fault that ends it, or its core is fenced: no further tile is dispatched (R310, R374). -/
def State.tileLost (s : State) (l : Launch) : Bool :=
  s.cores.any (fun x => x.2.launchOf == some (l.queue, l.lseq) &&
    ((match x.2.tile with
      | some t => t.dead
      | none => false) || s.faults.fcore.getLsbD x.1 || s.faults.fclu.getLsbD (clusterOf x.1)))

/-- A queue's launch with a dispatchable tile (R310 to R312, R318). -/
def State.dispatchable (s : State) (q : Nat) : Option Launch :=
  if (s.queue q).state = .enabled ∨ (s.queue q).state = .faulted then
    s.launches.find? (fun l => l.queue == q && l.hasTile && !s.launchHeld l && !s.depFailed l && !s.tileLost l && !s.recorded l)
  else none

/-- Queues that no longer have a dispatchable tile are no longer those for which a tile has yielded (R318). -/
def State.settleYields (s : State) : State :=
  let settle (k : Core) : Core :=
    match k.tile with
    | none => k
    | some t =>
      if t.yieldedFor.isEmpty then k
      else { k with tile := some { t with yieldedFor := t.yieldedFor.filter (fun q => (s.dispatchable q).isSome) } }
  { s.mapCores (fun _ k => settle k) with contexts := s.contexts.map (fun x => { x with state := settle x.state }) }

end Sys2Proof.Machine
end

