-- ==== Sys2Proof/Machine/Fifo.lean ====
section
/-! DEFINITION. Shared operations of the engines' FIFOs: which commands push a result (R184), completing and faulting commands
(R93, R161, R186, R365), resuming a stopped FIFO, the completion combiner (R43), and the acts of a push (R183, R277). -/

namespace Sys2Proof.Machine
open Sys2Proof

/-- Whether a command pushes a result entry: RS = 1, or NTAKE (R184). Records carry RS in word 0's bit 109. -/
def pushesResult : Instr → Bool
  | .ntake _ _ => true
  | .xcopy _ o | .xgath _ o | .xscat _ o | .xfill _ o | .publish _ o | .ndecl _ o | .reclaim _ o | .rextend _ o
  | .coll _ o | .sortk _ o | .echoose _ o | .rcsnap _ o | .lattn _ o | .chnew _ o | .chfork _ o | .chflat _ o
  | .chappend _ o | .chlook _ o | .chtrunc _ o | .chseal _ o | .chfree _ o | .chgive _ o | .bmset _ o | .bmperm _ o
  | .bmlook _ o => o.imm.getLsbD 15
  | .xcopyRecord _ r | .xgathRecord _ r | .xscatRecord _ r | .xfillRecord _ r | .publishRecord _ r | .collRecord _ r
  | .sortkRecord _ r | .lattnRecord _ r => r.opx.getLsbD 7
  | _ => false

/-- The header of an encoded instruction. -/
def headerOf (i : Instr) : Header :=
  match i.parts with
  | some (_, _, h, _) => h
  | none => .plain

/-- Engine codes 0 to 3 push onto their result FIFO; while it holds 16 entries the engine holds the command (R184). -/
def Core.resultRoom (k : Core) (engine : Nat) : Bool := decide ((k.results' engine).length < 16)
/-- Push a result entry, with the number of the command whose it is (R277). -/
def Core.pushResult (k : Core) (engine : Nat) (x : Word) (id : Nat) : Core :=
  { k.setResults engine (k.results' engine ++ [x]) with resultOf := Table.set [] k.resultOf engine (Table.get [] k.resultOf engine ++ [id]) }

/-- Drop a command from its FIFO, releasing its ranges in a cycle (R190, R253, R254). -/
def Core.dropCommand (k : Core) (now port : Nat) (c : Command) : Core :=
  (k.setFifo port ((k.fifo port).filter (fun d => d.id != c.id))).dropRanges now (.command c.id)

/-- g-registers that a command still had to write are no longer awaited. -/
def Core.release (k : Core) (q : SeqId) (regs : List Nat) : Core :=
  k.mapSeq q (fun r => { r with outstanding := regs.foldl (fun l n => l.erase n) r.outstanding })

/-- Resume a stopped FIFO at the handler's ERET: push FAULTED for its command if it has a result, else wait for room (R365). -/
def Core.resume (k : Core) (port : Nat) : Core :=
  match Table.get none k.stopped port with
  | none => k
  | some st =>
    match (st.command.filter (fun c => pushesResult c.instr)) with
    | none => { k with stopped := Table.set none k.stopped port none }
    | some c =>
      if k.resultRoom (engineOfPort port) then
        { k.pushResult (engineOfPort port) (resultWord .faulted st.logIndex) c.id with stopped := Table.set none k.stopped port none }
      else { k with stopped := Table.set none k.stopped port (some { st with resumed := true }) }

/-- A NOTIFY of an engine retires: it has reached the first event that waits for it (R43). -/
def reachLater (e : Nat) : List Generation → List Generation
  | [] => []
  | g :: r =>
    if g.notified.getLsbD e && !g.reached.getLsbD e then { g with reached := setBit g.reached e true } :: r else g :: reachLater e r

def Core.reach (k : Core) (e : Nat) : Core :=
  if k.reached.getLsbD e then { k with later := reachLater e k.later } else { k with reached := setBit k.reached e true }

/-- The combiner's bits after an event: those of the commands that belong to the next one (R43). -/
def Core.nextGeneration (k : Core) : Core :=
  match k.later with
  | [] => { k with participating := 0, reached := 0, notified := 0 }
  | g :: r => { k with participating := g.participating, reached := g.reached, notified := g.notified, later := r }

/-- Every participating FIFO has reached: an event is raised and the ten bits clear, but for what belongs to the next event, which follows
where all of that has been reached already; at 15 events not yet taken the next is held (R43, R125). n bounds the events. -/
def Core.raiseEvents (k : Core) (tick : Nat) : Nat → Core
  | 0 => k
  | n + 1 =>
    if k.participating ≠ 0 ∧ k.participating &&& ~~~k.reached = 0 ∧ k.events.length < 15 then
      { k.nextGeneration with events := k.events ++ [tick] }.raiseEvents tick n
    else k

/-- The combiner (R43). -/
def State.combine (s : State) (core : Nat) : State := s.mapCore core (fun k => k.raiseEvents s.tick (k.later.length + 1))

/-- Push the tokens of a completed command into its reserved places (R78, R241: the cycle after). Only slot 0's copy pushes. -/
def State.commandTokens (s : State) (core : Nat) (c : Command) : State :=
  if c.slot = 0 ∧ c.remote = none ∧ !c.single then
    s.mapCore core (fun k => ((named c.seq (headerOf c.instr).tks).map (tokenQueue c.seq)).foldl
      (fun k q => k.pushReserved q (s.cycleOf core + 1)
        (c.waits ++ c.behind ++ (k.posted.filter (fun e => e.command == some c.id)).map (fun e => e.id))) k)
  else s

/-- Give back the reserved places of a command that faulted: it makes no TKS push (R365). -/
def Core.unreserve (k : Core) (c : Command) : Core :=
  if c.slot = 0 ∧ c.remote = none ∧ !c.single then
    ((named c.seq (headerOf c.instr).tks).map (tokenQueue c.seq)).foldl
      (fun k q => { k with reserved := Table.set 0 k.reserved q (Table.get 0 k.reserved q - 1) }) k
  else k

/-- The iteration vector of issue n (without its slot) as ITER packs it (R92, R368). -/
def iterOf (t0 t1 t2 n : Nat) : Nat :=
  n % t0 + n / t0 % t1 * 2 ^ 16 + n / (t0 * t1) % t2 * 2 ^ 32 + n / (t0 * t1 * t2) % 65536 * 2 ^ 48

/-- A reported fault of the command at the head of a FIFO (R93, R161, R186, R365): recorded, the FIFO stopped until the
handler's ERET, the command gone without tokens; a fault of a Reckoner slot is held instead (R235). -/
def State.faultCommand (s : State) (core port : Nat) (c : Command) (i : FaultInfo) : State :=
  if c.slot ≠ 0 then
    let t := { s with cur := ⟨core, c.seq, c.slot⟩ }
    let found := (t.me.slot c.slot).fault.isNone
    let u := if i.cause = .speculation then t.squash else t.holdFault i c.pc
    u.mapCore core (fun k =>
      let k := if found then k.setSlot c.slot { k.slot c.slot with faultUnit := engineOfPort port } else k
      k.dropCommand (s.cycleOf core) port c)
  else
    let q := if c.remote.isSome then .c else c.seq
    let (s, ix) := s.reportTo core q (engineOfPort port) c.pc i (some port)
    s.mapCore core (fun k =>
      { (k.dropCommand (s.cycleOf core) port c).unreserve c with
        stopped := Table.set none k.stopped port (some ⟨some c, ix.getD 0, false⟩) })

/-- Replace a command in its FIFO. -/
def Core.putCommand (k : Core) (port : Nat) (c : Command) : Core :=
  k.setFifo port ((k.fifo port).map (fun d => if d.id = c.id then c else d))

/-- The head command of a FIFO that may be worked on: the FIFO is not stopped. -/
def Core.headCommand (k : Core) (port : Nat) : Option Command :=
  match Table.get none k.stopped port with
  | some _ => none
  | none => (k.fifo port).head?

/-- Before a command reads: the release and the write-back of its push (R183, R277). -/
def State.commandRelease (s : State) (core : Nat) (scope : Scope) (virt : List Nat) : State :=
  (s.releaseCaches core scope).writeBackBytes core virt

end Sys2Proof.Machine
end

