-- ==== Sys2Proof/Machine/Records.lean ====
section
/-! DEFINITION. Loop-nest records: their acceptance and expansion into issues (R88, R89, R92, R93), and how the performing of a command
ends. -/

namespace Sys2Proof.Machine
open Sys2Proof

/-- How a turn of an engine's command ends. -/
inductive Perf where
  /-- not now; the state may have a page walk begun -/
  | wait (s : State)
  /-- a reported cause; what came before it has taken effect (R93) -/
  | fault (s : State) (i : FaultInfo)
  /-- performed so far -/
  | go (s : State) (c : Command)

/-- The parts of a record. -/
def recordOf (i : Instr) : Option (Nat × Nat × Header × RecOps) :=
  match i.parts with
  | some (maj, fn, h, .record r) => some (maj, fn, h, r)
  | _ => none

/-- Number of issues of a record with slot count w (R92). -/
def recTotal (r : RecOps) (w : Nat) : Nat := r.t0.toNat * r.t1.toNat * r.t2.toNat * r.t3.toNat * w

/-- An iteration vector and its slot (R92). -/
structure Iter where
  i0 : Nat
  i1 : Nat
  i2 : Nat
  i3 : Nat
  j : Nat
deriving DecidableEq, Repr

/-- Issue n of a record. -/
def recIter (r : RecOps) (w n : Nat) : Iter :=
  let m := n / w
  let t0 := r.t0.toNat
  let t1 := r.t1.toNat
  let t2 := r.t2.toNat
  ⟨m % t0, m / t0 % t1, m / (t0 * t1) % t2, m / (t0 * t1 * t2), n % w⟩

/-- ITER of R368. -/
def Iter.pack (i : Iter) : Nat := i.i0 + i.i1 * 2 ^ 16 + i.i2 * 2 ^ 32 + i.i3 * 2 ^ 48

/-- An operand of an issue (R89). -/
inductive Located where
  | none
  | virt (a : Nat)
  | spad (a : Nat)
  | reg (n : Nat)
  | fault (i : FaultInfo)
deriving DecidableEq, Repr

/-- Unit index u of an operand (R92). -/
def unitIndex (d : Descriptor) (slotted : Bool) (i : Iter) : Int :=
  d.off.toInt + i.i0 * d.s0.toInt + i.i1 * d.s1.toInt + i.i2 * d.s2.toInt + i.i3 * d.s3.toInt + (if slotted then (i.j : Int) else 0)

/-- Locate (R89): alignment to min(2^ULOG, 512), and the register's range. (DEDUCED, log 11) -/
def locate (kind : BitVec 2) (d : Descriptor) (base : Word) (u : Int) (opidx : Nat) : Located :=
  let a := ((base.toNat + u * 2 ^ d.ulog.toNat) % 2 ^ 64).toNat
  let unit := if d.ulog.toNat < 9 then 2 ^ d.ulog.toNat else 512
  match kind.toNat with
  | 0 => .none
  | 1 => if a % unit ≠ 0 then .fault (.virt .alignment a opidx) else .virt a
  | 2 => if a % unit ≠ 0 then .fault (.spad .alignment a opidx) else .spad a
  | _ => if u < 0 ∨ 1024 ≤ u then .fault ⟨.illegalOperand, { FaultAt.none with opidx := opidx }⟩ else .reg u.toNat

/-- Operands A, B, C of an issue, from the bases read at acceptance. (DEDUCED, log 11) -/
def recOperand (r : RecOps) (vals : List Word) (i : Iter) (m : Nat) : Located :=
  match m with
  | 0 => locate r.ka r.da (vals.getD 0 0) (unitIndex r.da (r.slot.getLsbD 0) i) 0
  | 1 => locate r.kb r.db (vals.getD 1 0) (unitIndex r.db (r.slot.getLsbD 1) i) 1
  | _ => locate r.kc r.dc (vals.getD 2 0) (unitIndex r.dc (r.slot.getLsbD 2) i) 2

/-- The fault of an issue: its iteration vector and its slot (R93, R368). -/
def Iter.fault (i : Iter) (f : FaultInfo) : FaultInfo := { f with loc := { f.loc with iter := i.pack, slot := i.j } }

/-- The command that a record's header makes: bases and XG read once (R92). -/
def State.recordCommand (s : State) (i : Instr) (h : Header) (r : RecOps) : Command :=
  { s.command i h [s.g r.da.base, s.g r.db.base, s.g r.dc.base, s.g r.xg] (if h.m = 1 then some s.cycle else none) with
    phase := s.mySeq.marks.length }

/-- A record header: accepted once for a round (R92, R233), into an engine's FIFO. -/
def recordWord (i : Instr) (port : Nat) (who : List SeqId) (lanes : Bool) (h : Header) (r : RecOps) (body : State → Eff)
    (s : State) : Host.Outcome State Fault Refusal :=
  issueWord (recordIssue i port who lanes r) h (fun s =>
    match body s with
    | .done t _ => t.enter port (t.recordCommand i h r) 64
    | e => e) s

/-- A record with no checks of its own at its header. -/
def plainRecord (i : Instr) (port : Nat) (who : List SeqId) (lanes : Bool) (h : Header) (r : RecOps) (s : State) :
    Host.Outcome State Fault Refusal :=
  recordWord i port who lanes h r (fun s => .done s s.pc) s

/-! ### The accesses of a vector memory record (R147, R154) -/

/-- Numbers that a vector memory record keeps for its accesses behind its own: issue n has the n-th of them. (DEDUCED, log 80) -/
def Command.numbers (c : Command) : Nat :=
  match c.instr with
  | .vectorMemoryRecord _ _ r => recTotal r c.w
  | _ => 0

/-- The bytes that issue n of a vector memory record reaches: their space, and address and length by active lane. -/
def Command.issueSpans (c : Command) (n : Nat) : Option (Space × List (Nat × Nat)) :=
  match c.instr with
  | .vectorMemoryRecord fn _ r =>
    let i := recIter r c.w n
    let w := typeWidth r.tc
    let lanes (ea : Nat) : List (Nat × Nat) :=
      ((List.range (4096 / w)).filter (fun l => c.mask.getLsbD l)).map (fun l => ((ea + l * w / 8) % 2 ^ 64, (w + 7) / 8))
    if fn.toNat % 2 = 1 ∧ i.j ≠ 0 then none
    else match recOperand r c.vals i (if fn.toNat % 2 = 1 then 2 else 0) with
      | .virt a => some (.virt, lanes a)
      | .spad a => some (.spad, lanes a)
      | _ => none
  | _ => none

/-! ### Ranges (R160, R190, R253, R254) -/

/-- A range that a command enters: space, first byte, length, whether it holds off loads too. -/
structure Span where
  space : Space
  lo : Nat
  len : Nat
  loads : Bool
deriving DecidableEq, Repr

/-- A command that enters its FIFO enters its ranges too; with fewer than that many of the 64 entries free it waits (R253). -/
def State.withSpans (s : State) (c : Command) (spans : List Span) (entry : Eff) : Eff :=
  let spans := spans.filter (fun x => x.len != 0)
  if 64 < s.me.liveRanges.length + spans.length then .wait s none
  else match entry with
    | .done t next =>
      .done (t.mapMe (fun k => spans.foldl (fun k x => k.addRange ⟨.command c.id, x.space, x.lo, x.len, x.loads, s.cycle, none⟩) k)) next
    | e => e

/-- The present word's command enters a FIFO with its ranges. -/
def State.enterWith (s : State) (port : Nat) (c : Command) (size : Nat) (spans : List Span) : Eff :=
  s.withSpans c spans (s.enter port c size)

/-- An entry that a command waits for (R190): another's, and not of a command accepted later. (DEDUCED, log 18) -/
def Range.blocks (c : Command) (r : Range) : Bool :=
  match r.owner with
  | .command id => decide (id < c.id)
  | .block _ | .counter _ => decide (r.cycle ≤ c.cycle)
  | _ => true

/-- A command of some number is being performed. -/
def Core.begun (k : Core) (id : Nat) : Bool := (List.range 7).any (fun p => (k.fifo p).any (fun d => d.id == id && d.started))

/-- An entry that an issue of the matrix engine waits for (R160): any that another holds; a command that was accepted later and has not
begun waits for the issue instead (R190). (DEDUCED, log 18) -/
def Core.matrixWaits (k : Core) (c : Command) (r : Range) : Bool :=
  match r.owner with
  | .command id => decide (id < c.id) || (decide (id ≠ c.id) && k.begun id)
  | _ => true

/-- The entry of a block that the command itself has published (R190). -/
def Core.ownBlock (k : Core) (c : Command) (r : Range) : Bool :=
  match r.owner with
  | .block i => (Table.get Block.free k.blocks i).command == c.id
  | _ => false

/-- Bytes overlap an entry that a command waits for in a cycle; one released in it holds the command off still (R160, R190, R254). -/
def Core.blocked (k : Core) (now : Nat) (c : Command) (space : Space) (lo len : Nat) : Bool :=
  k.ranges.any (fun r => r.holds now && !k.ownBlock c r &&
    (if (k.fifo 3).any (fun d => d.id == c.id) then k.matrixWaits c r else Range.blocks c r) &&
    r.space == space && overlaps r.lo r.len lo len)

def Core.spansBlocked (k : Core) (now : Nat) (c : Command) (spans : List Span) : Bool :=
  spans.any (fun x => k.blocked now c x.space x.lo x.len)

/-- Lowest and highest unit index of an operand over all issues. -/
def unitHull (r : RecOps) (d : Descriptor) (slotted : Bool) (w : Nat) : Int × Int :=
  let levels : List (Int × Nat) := [(d.s0.toInt, r.t0.toNat), (d.s1.toInt, r.t1.toNat), (d.s2.toInt, r.t2.toNat), (d.s3.toInt, r.t3.toNat)]
  let ends := levels.map (fun l => l.1 * ((l.2 : Int) - 1)) ++ (if slotted then [(w : Int) - 1] else [])
  (d.off.toInt + (ends.map (fun x => if x < 0 then x else 0)).sum, d.off.toInt + (ends.map (fun x => if 0 < x then x else 0)).sum)

/-- The interval from the lowest to the highest byte that a record's issues touch through an operand, each touching `ext` bytes. -/
def recSpan (r : RecOps) (vals : List Word) (w m ext : Nat) (loads : Bool) : List Span :=
  let (kind, d) := match m with
    | 0 => (r.ka, r.da)
    | 1 => (r.kb, r.db)
    | _ => (r.kc, r.dc)
  if recTotal r w = 0 ∨ (kind ≠ 1 ∧ kind ≠ 2) then []
  else
    let (lo, hi) := unitHull r d (r.slot.getLsbD m) w
    let base := (vals.getD m 0).toNat + lo * 2 ^ d.ulog.toNat
    [⟨if kind = 1 then .virt else .spad, (base % 2 ^ 64).toNat, ((hi - lo) * 2 ^ d.ulog.toNat).toNat + ext, loads⟩]

/-- Write a g-register that a command had still to give, for its slot; later words may read it from a cycle on (R241, R242). -/
def Core.giveG (k : Core) (seq : SeqId) (slot n : Nat) (v : Word) (from_ : Nat) : Core :=
  let k := k.mapSeq seq (fun r => { r with
    outstanding := r.outstanding.erase n
    ready := if n = 0 ∨ slot ≠ 0 then r.ready else Table.set 0 r.ready n from_ })
  if n = 0 then k
  else if slot = 0 then k.mapSeq seq (fun r => r.setG n v)
  else let t := k.slot slot; k.setSlot slot { t with g := Table.set 0 t.g n v }

/-- A port is next free after some cycles (R134, R173). -/
def Core.occupy (k : Core) (port until_ : Nat) : Core := { k with portFree := Table.set 0 k.portFree port until_ }

/-- A performed command's status and value. -/
def Command.finish (c : Command) (st : Status) (v : Nat) : Command := { c with result := some ⟨st, v⟩ }

end Sys2Proof.Machine
end

