-- ==== Sys2Proof/Machine/Integer.lean ====
section
/-! DEFINITION. Integer arithmetic, logic, bits and immediates, conditional set and select (MAJ 0x01 to 0x05; R104 to R106). -/

namespace Sys2Proof.Machine
open Sys2Proof

abbrev Result := Host.Outcome State Fault Refusal

/-- A REG word of two sources and a destination. -/
def regWord (h : Header) (o : RegOps) (lat : Nat) (f : Word → Word → Word) (s : State) : Result :=
  issueWord { Issue.scalar [o.ag, o.bg] [o.dg] with lat := lat } h
    (fun s => .done (s.setG o.dg (f (s.g o.ag) (s.g o.bg))) s.pc16) s

/-- An IMM word of one source, the immediate and a destination. -/
def immWord (h : Header) (o : ImmOps) (f : Word → Word → Word) (s : State) : Result :=
  issueWord (Issue.scalar [o.ag] [o.dg]) h (fun s => .done (s.setG o.dg (f (s.g o.ag) o.imm)) s.pc16) s

/-- q(x, y), the quotient truncated toward zero (R104). -/
def divTrunc (x y : Int) : Int := Int.tdiv x y

def signedDiv (a b : Word) : Word := if b = 0 then BitVec.allOnes 64 else BitVec.ofInt 64 (divTrunc a.toInt b.toInt)
def signedRem (a b : Word) : Word :=
  if b = 0 then a else BitVec.ofInt 64 (a.toInt - b.toInt * divTrunc a.toInt b.toInt)
def unsignedDiv (a b : Word) : Word := if b = 0 then BitVec.allOnes 64 else BitVec.ofNat 64 (a.toNat / b.toNat)
def unsignedRem (a b : Word) : Word := if b = 0 then a else BitVec.ofNat 64 (a.toNat % b.toNat)

/-- ADD (R104). -/
def execAdd (h : Header) (o : RegOps) (s : State) : Result := regWord h o 1 (fun a b => a + b) s
/-- SUB (R104). -/
def execSub (h : Header) (o : RegOps) (s : State) : Result := regWord h o 1 (fun a b => a - b) s
/-- MUL, latency 3 (R104, R241). -/
def execMul (h : Header) (o : RegOps) (s : State) : Result := regWord h o 3 (fun a b => a * b) s
/-- MULH: (sa sb) div 2^64 (R104). -/
def execMulh (h : Header) (o : RegOps) (s : State) : Result :=
  regWord h o 3 (fun a b => BitVec.ofInt 64 (a.toInt * b.toInt / 2 ^ 64)) s
/-- MULHN: (a b) div 2^64 (R104). -/
def execMulhn (h : Header) (o : RegOps) (s : State) : Result :=
  regWord h o 3 (fun a b => BitVec.ofNat 64 (a.toNat * b.toNat / 2 ^ 64)) s
/-- DIV, latency 20 (R104, R241). -/
def execDiv (h : Header) (o : RegOps) (s : State) : Result := regWord h o 20 signedDiv s
/-- DIVN (R104). -/
def execDivn (h : Header) (o : RegOps) (s : State) : Result := regWord h o 20 unsignedDiv s
/-- REM (R104). -/
def execRem (h : Header) (o : RegOps) (s : State) : Result := regWord h o 20 signedRem s
/-- REMN (R104). -/
def execRemn (h : Header) (o : RegOps) (s : State) : Result := regWord h o 20 unsignedRem s
/-- NEG: -sa (R104). -/
def execNeg (h : Header) (o : RegOps) (s : State) : Result := regWord h o 1 (fun a _ => -a) s
/-- MIN: the smaller of sa and sb (R104). -/
def execMin (h : Header) (o : RegOps) (s : State) : Result := regWord h o 1 (fun a b => if b.slt a then b else a) s
/-- MAX (R104). -/
def execMax (h : Header) (o : RegOps) (s : State) : Result := regWord h o 1 (fun a b => if a.slt b then b else a) s
/-- MINN: the smaller of a and b (R104). -/
def execMinn (h : Header) (o : RegOps) (s : State) : Result := regWord h o 1 (fun a b => if b.ult a then b else a) s
/-- MAXN (R104). -/
def execMaxn (h : Header) (o : RegOps) (s : State) : Result := regWord h o 1 (fun a b => if a.ult b then b else a) s

/-! ### Logic and bits (R105) -/

def shl64 (a b : Word) : Word := BitVec.ofNat 64 (shlNat 64 a.toNat b.toNat)
def shr64 (a b : Word) : Word := BitVec.ofNat 64 (shrNat 64 a.toNat b.toNat)
def sra64 (a b : Word) : Word := BitVec.ofNat 64 (sraNat 64 a.toNat b.toNat)
/-- Rotation left by b mod 64. -/
def rol64 (a b : Word) : Word :=
  let n := b.toNat % 64
  BitVec.ofNat 64 (a.toNat * 2 ^ n + a.toNat / 2 ^ (64 - n))

/-- Number of leading zero bits among the n lowest. -/
def leadingZeros (a : Word) : Nat → Nat
  | 0 => 0
  | n + 1 => if a.getLsbD n then 0 else leadingZeros a n + 1

/-- Number of zero bits from bit 64 - n upward. -/
def trailingZeros (a : Word) : Nat → Nat
  | 0 => 0
  | n + 1 => if a.getLsbD (63 - n) then 0 else trailingZeros a n + 1

/-- Number of one bits among the n lowest. -/
def onesNat (a : Nat) : Nat → Nat
  | 0 => 0
  | n + 1 => a % 2 + onesNat (a / 2) n

/-- SEXT: n := b (R105). -/
def sextWord (a b : Word) : Word :=
  let n := b.toNat
  if n = 0 then 0 else if 64 ≤ n then a else BitVec.ofInt 64 (sext n a.toNat)

/-- ZEXT: n := b (R105). -/
def zextWord (a b : Word) : Word :=
  let n := b.toNat
  if n = 0 then 0 else if 64 ≤ n then a else BitVec.ofNat 64 (a.toNat % 2 ^ n)

/-- AND (R105). -/
def execAnd (h : Header) (o : RegOps) (s : State) : Result := regWord h o 1 (fun a b => a &&& b) s
/-- OR (R105). -/
def execOr (h : Header) (o : RegOps) (s : State) : Result := regWord h o 1 (fun a b => a ||| b) s
/-- XOR (R105). -/
def execXor (h : Header) (o : RegOps) (s : State) : Result := regWord h o 1 (fun a b => a ^^^ b) s
/-- ANDN (R105). -/
def execAndn (h : Header) (o : RegOps) (s : State) : Result := regWord h o 1 (fun a b => a &&& ~~~b) s
/-- SHL (R105). -/
def execShl (h : Header) (o : RegOps) (s : State) : Result := regWord h o 1 shl64 s
/-- SHR (R105). -/
def execShr (h : Header) (o : RegOps) (s : State) : Result := regWord h o 1 shr64 s
/-- SRA (R105). -/
def execSra (h : Header) (o : RegOps) (s : State) : Result := regWord h o 1 sra64 s
/-- ROL (R105). -/
def execRol (h : Header) (o : RegOps) (s : State) : Result := regWord h o 1 rol64 s
/-- SEXT (R105). -/
def execSext (h : Header) (o : RegOps) (s : State) : Result := regWord h o 1 sextWord s
/-- ZEXT (R105). -/
def execZext (h : Header) (o : RegOps) (s : State) : Result := regWord h o 1 zextWord s
/-- NOT (R105). -/
def execNot (h : Header) (o : RegOps) (s : State) : Result :=
  regWord h o 1 (fun a _ => ~~~a) s
/-- CLZ (R105). -/
def execClz (h : Header) (o : RegOps) (s : State) : Result :=
  regWord h o 1 (fun a _ => BitVec.ofNat 64 (leadingZeros a 64)) s
/-- CTZ (R105). -/
def execCtz (h : Header) (o : RegOps) (s : State) : Result :=
  regWord h o 1 (fun a _ => BitVec.ofNat 64 (trailingZeros a 64)) s
/-- POPC (R105). -/
def execPopc (h : Header) (o : RegOps) (s : State) : Result :=
  regWord h o 1 (fun a _ => BitVec.ofNat 64 (onesNat a.toNat 64)) s

/-- AND with an immediate (R105). -/
def execAndImm (h : Header) (o : ImmOps) (s : State) : Result := immWord h o (fun a b => a &&& b) s
/-- OR with an immediate (R105). -/
def execOrImm (h : Header) (o : ImmOps) (s : State) : Result := immWord h o (fun a b => a ||| b) s
/-- XOR with an immediate (R105). -/
def execXorImm (h : Header) (o : ImmOps) (s : State) : Result := immWord h o (fun a b => a ^^^ b) s
/-- ANDN with an immediate (R105). -/
def execAndnImm (h : Header) (o : ImmOps) (s : State) : Result := immWord h o (fun a b => a &&& ~~~b) s
/-- SHL with an immediate (R105). -/
def execShlImm (h : Header) (o : ImmOps) (s : State) : Result := immWord h o shl64 s
/-- SHR with an immediate (R105). -/
def execShrImm (h : Header) (o : ImmOps) (s : State) : Result := immWord h o shr64 s
/-- SRA with an immediate (R105). -/
def execSraImm (h : Header) (o : ImmOps) (s : State) : Result := immWord h o sra64 s
/-- ROL with an immediate (R105). -/
def execRolImm (h : Header) (o : ImmOps) (s : State) : Result := immWord h o rol64 s
/-- SEXT with an immediate (R105). -/
def execSextImm (h : Header) (o : ImmOps) (s : State) : Result := immWord h o sextWord s
/-- ZEXT with an immediate (R105). -/
def execZextImm (h : Header) (o : ImmOps) (s : State) : Result := immWord h o zextWord s

/-! ### Immediates, conditional set and select (R106) -/

/-- ADDI. -/
def execAddi (h : Header) (o : ImmOps) (s : State) : Result := immWord h o (fun a b => a + b) s
/-- LI. -/
def execLi (h : Header) (o : ImmOps) (s : State) : Result := immWord h o (fun _ b => b) s
/-- LEA: PC + SExt(IMM, 64). -/
def execLea (h : Header) (o : ImmOps) (s : State) : Result :=
  issueWord (Issue.scalar [] [o.dg]) h (fun s => .done (s.setG o.dg (s.pc + o.imm)) s.pc16) s
/-- CSET: 1 if COND holds, else 0. -/
def execCset (h : Header) (o : RegOps) (s : State) : Result :=
  regWord h o 1 (fun a b => if condHolds o.cond.toNat a b then 1 else 0) s
/-- SEL: G(AG) if G(CG) is not zero, else G(BG). -/
def execSel (h : Header) (o : RegOps) (s : State) : Result :=
  issueWord (Issue.scalar [o.ag, o.bg, o.cg] [o.dg]) h
    (fun s => .done (s.setG o.dg (if s.g o.cg ≠ 0 then s.g o.ag else s.g o.bg)) s.pc16) s

end Sys2Proof.Machine
end

