-- ==== Sys2Proof/Machine/Control.lean ====
section
/-! DEFINITION. Control transfer (R74, R75, R113), software-pipelined loops (R155), control and status registers (R44 to R46, R127),
TRAP and ERET (R128), HALT, NOP and YIELD (R129), and the masks (R126). -/

namespace Sys2Proof.Machine
open Sys2Proof

/-- An alignment trap at a transfer, with its target (R74, R75). (DEDUCED, log 36) -/
def targetTrap (t : Word) : Eff := .trap (.virt .alignment t.toNat 3)

/-- A target that no transfer takes: it is no multiple of 16, or in strict fetch of 64 (R74, R75). -/
def State.badTarget (s : State) (t : Word) : Bool := t.toNat % 16 != 0 || (s.strict s.cur.core && t.toNat % 64 != 0)

/-- A taken transfer (R74, R75). (DEDUCED, log 36) -/
def transfer (s : State) (t : Word) (go : State) : Eff := if s.badTarget t then targetTrap t else .jump go t

/-- J (R113). -/
def execJ (h : Header) (o : JmpOps) (s : State) : Result :=
  issueWord (Issue.scalar [] []) h (fun s => transfer s (s.dispTarget o.disp) s) s

/-- B (R113). -/
def execB (h : Header) (o : JmpOps) (s : State) : Result :=
  issueWord (Issue.scalar [o.ag, o.bg] []) h
    (fun s => if condHolds o.cond.toNat (s.g o.ag) (s.g o.bg) then transfer s (s.dispTarget o.disp) s else .done s s.pc16) s

/-- The outcome at the head of the sequencer's own queue, if it can be popped now (R40, R241, R270). -/
def Core.outcomeHead (k : Core) (q : SeqId) (now : Nat) : Option Bool :=
  match Table.get [] k.outcomes q.num with
  | t :: _ => if t.ready ≤ now && k.performed t.deps then some t.taken else none
  | [] => none

/-- Pop an outcome, with what stands before its push (R270). -/
def Core.popOutcome (k : Core) (q : SeqId) : Core :=
  let deps := ((Table.get [] k.outcomes q.num).take 1).flatMap (fun t => t.deps)
  { k.inherit q deps with outcomes := Table.set [] k.outcomes q.num ((Table.get [] k.outcomes q.num).drop 1) }

/-- BRQ (R113): slot 0 pops the outcome; every slot takes it (R233). -/
def execBrq (h : Header) (o : JmpOps) (s : State) : Result :=
  issueWord (Issue.scalar [] []) h (fun s =>
    let branch (s : State) (out : Bool) : Eff :=
      if out = (o.cond == 1) then transfer s (s.dispTarget o.disp) s else .done s s.pc16
    if s.cur.slot = 0 then
      match s.me.outcomeHead s.cur.seq s.cycle with
      | none => .wait s none
      | some b =>
        branch (s.mapMe (fun k => { k.popOutcome s.cur.seq with round := { k.round with outcome := b } })) b
    else branch s s.me.round.outcome) s

/-- LOOP (R113): a misaligned target of the taken transfer traps before any effect. -/
def execLoop (h : Header) (o : JmpOps) (s : State) : Result :=
  issueWord (Issue.scalar [o.dg] [o.dg]) h (fun s =>
    let c := s.g o.dg
    if c = 0 then .done s s.pc16
    else if c - 1 ≠ 0 then transfer s (s.dispTarget o.disp) (s.setG o.dg (c - 1))
    else .done (s.setG o.dg (c - 1)) s.pc16) s

/-- JR (R113). -/
def execJr (h : Header) (o : JmpOps) (s : State) : Result :=
  issueWord (Issue.scalar [o.ag] []) h (fun s => transfer s (s.g o.ag) s) s

/-- The shadow stack belongs to the sequencer; a copy for a higher slot sees slot 0's push or pop as made (R28, R233). (DEDUCED, log 88) -/
def State.pushShadow (s : State) (a : Word) : State :=
  if s.cur.slot = 0 then s.mapMySeq (fun r => { r with shadow := a :: r.shadow }) else s

def callTo (o : JmpOps) (s : State) (t : Word) : Eff :=
  if s.badTarget t then targetTrap t
  else if s.cur.slot = 0 ∧ 64 ≤ s.mySeq.shadow.length then .trap (.bare .controlIntegrity)
  else .jump ((s.pushShadow s.pc16).setG o.dg s.pc16) t

/-- CALL (R28, R113). -/
def execCall (h : Header) (o : JmpOps) (s : State) : Result :=
  issueWord (Issue.scalar [] [o.dg]) h (fun s => callTo o s (s.dispTarget o.disp)) s

/-- CALLR (R28, R113). -/
def execCallr (h : Header) (o : JmpOps) (s : State) : Result :=
  issueWord (Issue.scalar [o.ag] [o.dg]) h (fun s => callTo o s (s.g o.ag)) s

/-! ### The return that ends a run of the reckoning routine (R232) -/

/-- Numbers of the carried registers. -/
def Round.carriedRegs (r : Round) : List Nat := (List.range 64).filter (fun n => r.carried.getLsbD n)

/-- The carried registers of a sequencer. -/
def Sequencer.carries (r : Sequencer) (regs : List Nat) : Table Word :=
  regs.foldl (fun t n => Table.set 0 t n (r.getG n)) []

/-- Registers with some of them replaced. -/
def withRegs (g : Table Word) (regs : List Nat) (from_ : Table Word) : Table Word :=
  regs.foldl (fun t n => Table.set 0 t n (Table.get 0 from_ n)) g

/-- End of a run of the routine: the next run, or the round starts running (R232). -/
def State.endRun (s : State) : State × Word :=
  let k := s.me
  let rd := k.round
  let r := s.mySeq
  let regs := rd.carriedRegs
  let guesses := Table.set [] rd.guesses rd.run (r.carries regs)
  if rd.run + 1 < rd.w then
    ((s.mapMe (fun k => { k with round := { rd with guesses := guesses, run := rd.run + 1 } })).pushShadow (rd.pc + 16), rd.routine)
  else
    let g0 := withRegs r.g regs rd.carries0
    let slots := (List.range rd.w).foldl (fun t j =>
      if j = 0 then t else Table.set Slot.empty t j { Slot.empty with g := withRegs g0 regs (Table.get [] guesses j) }) []
    (s.mapMe (fun k => { k.setSeq s.cur.seq { r with g := g0 } with
       round := { rd with guesses := guesses, st := .running, slots := slots, matched := 0, sq := 0, confirmed := false,
                          nextSlot := 0 } }), rd.pc + 16)

/-- RET (R28, R113): the shadow stack's top must be a target and then equal G(AG); a copy for a higher slot compares with the address that slot 0 popped.
(DEDUCED, log 88) -/
def execRet (h : Header) (o : JmpOps) (s : State) : Result :=
  issueWord (Issue.scalar [o.ag] []) h (fun s =>
    if s.cur.slot ≠ 0 then
      (if s.g o.ag = s.me.round.target0 then transfer s (s.g o.ag) s else .trap (.bare .controlIntegrity))
    else match s.mySeq.shadow with
      | [] => .trap (.bare .controlIntegrity)
      | t :: rest =>
        if s.badTarget t then targetTrap t
        else if t ≠ s.g o.ag then .trap (.bare .controlIntegrity)
        else
          let u := s.mapMySeq (fun r => { r with shadow := rest })
          let rd := s.me.round
          if rd.st = .guessing ∧ rd.owner = s.cur.seq ∧ rest.length = rd.depth then
            -- the guess reads the carried registers; the slots copy every register (R232, R242)
            if s.mySeq.outstanding.any (fun n => rd.run + 1 = rd.w || rd.carried.getLsbD n) then .wait s none
            else
              let (v, next) := u.endRun
              transfer s next v
          else transfer s t u) s

/-! ### LOOPP and BRP (R30, R33, R155) -/

/-- LOOPP. -/
def execLoopp (h : Header) (o : JmpOps) (s : State) : Result :=
  issueWord { Issue.scalar [o.ag] [o.dg] with noSpec := true } h (fun s =>
    let t := s.g o.ag
    if 2 ^ 32 - 16 < t.toNat then .trap (.bare .illegalOperand)
    else if t = 0 then
      transfer s (s.dispTarget o.disp) ((s.setG o.dg 0).mapMySeq (fun r => { r with sg := 0 }))
    else .done ((s.setG o.dg (t <<< 32)).mapMySeq (fun r => { r with sg := 1 })) s.pc16) s

/-- Stage predicates of pass p of T iterations in S stages: sgj when j < S and 0 ≤ p - j < T (R155). -/
def stagePredicates (t p st : Nat) : BitVec 16 :=
  BitVec.ofNat 16 (((List.range 16).filter (fun j => decide (j < st) && decide (j ≤ p) && decide (p - j < t))).map
    (fun j => 2 ^ j)).sum

/-- BRP: on X-seq it lowers RRB by Q, taken or not (R30, R155). -/
def execBrp (h : Header) (o : JmpOps) (s : State) : Result :=
  issueWord { Issue.scalar [o.dg] [o.dg] with noSpec := true } h (fun s =>
    let t := (s.g o.dg).toNat / 2 ^ 32
    let p := (s.g o.dg).toNat % 2 ^ 32 + 1
    let st := o.imm.toNat % 256
    let q := o.imm.toNat / 256 % 256
    let u := if s.cur.seq = .x then s.mapMe (fun k => { k with rrb := BitVec.ofNat 9 (k.rrb.toNat + 512 - q) }) else s
    let v := u.setG o.dg (BitVec.ofNat 64 (t * 2 ^ 32 + p))
    if p < t + st - 1 then
      transfer s (s.dispTarget o.disp) (v.mapMySeq (fun r => { r with sg := stagePredicates t p st }))
    else .done (v.mapMySeq (fun r => { r with sg := 0 })) s.pc16) s

/-! ### Control and status registers (R44, R45) -/

def Core.accfg (k : Core) : Nat :=
  let conf := match k.conf with
    | .fp => 0
    | .exact => 1
    | .count => 2
  let tiles := match k.conf with
    | .fp => 12
    | .exact => 4
    | .count => 1
  conf + k.eb.toNat * 4 + k.live.toNat % 2 ^ tiles * 2 ^ 16 + (if k.counters.isEmpty then 0 else 2 ^ 28)

def RoundState.code : RoundState → Nat
  | .closed => 0
  | .guessing => 1
  | .running => 2

/-- RKSTATE with the SLOT field that RKSTAT shows (R231, R238). -/
def Round.word (r : Round) (slot : Nat) : Word :=
  BitVec.ofNat 64 (r.st.code * 4 + r.owner.num * 16 + slot * 2 ^ 6 + r.acc * 2 ^ 9 + r.w * 2 ^ 12 +
    (r.matched.toNat ||| (if r.st = .running then 1 else 0)) * 2 ^ 16 + r.sq.toNat * 2 ^ 24 + r.epoch.toNat * 2 ^ 32)

/-- Token counts, four bits a queue: the tokens that have been pushed (R44, R78, R241). -/
def Core.tqlev (k : Core) (now : Nat) : Nat :=
  ((List.range 12).map (fun q =>
    ((k.tokensOf q).filter (fun t => decide (t.ready ≤ now) && k.performed t.own)).length * 16 ^ q)).sum

/-- A register's value by its number, none for a number not in the table (R44). -/
def State.csr (s : State) (n : Nat) : Option Word :=
  let k := s.me
  let r := s.mySeq
  match n with
  | 0x000 => some (BitVec.ofNat 64 (8 * s.cycle / s.kOf s.cur.core))
  | 0x001 => some (BitVec.ofNat 64 s.cur.core)
  | 0x002 => some (BitVec.ofNat 64 s.cur.seq.num)
  | 0x008 => some (BitVec.ofNat 64 k.domain.toNat)
  | 0x009 => some (BitVec.ofNat 64 k.rrb.toNat)
  | 0x00A => some (BitVec.ofNat 64 r.sg.toNat)
  | 0x010 => some (BitVec.ofNat 64 k.fflags.toNat)
  | 0x011 => some (BitVec.ofNat 64 k.frm.toNat)
  | 0x012 => some (if k.aovf then 1 else 0)
  | 0x018 => some (BitVec.ofNat 64 k.accfg)
  | 0x019 => some (BitVec.ofNat 64 k.cwb.toNat)
  | 0x01A => some (BitVec.ofNat 64 k.cbound.toNat)
  | 0x01B => some k.cdrains
  | 0x020 => some (BitVec.ofNat 64 k.granules.toNat)
  | 0x028 => some (BitVec.ofNat 64 k.helmcfg.toNat)
  | 0x029 => some (BitVec.ofNat 64 k.pwincfg.toNat)
  | 0x030 => some r.tvec
  | 0x031 => some r.epc
  | 0x032 => some r.ecause
  | 0x038 => some (k.round.word 0)
  | 0x040 => some (BitVec.ofNat 64 (k.tqlev s.cycle))
  | 0x041 => some (BitVec.ofNat 64 ((List.range 4).map (fun q => (Table.get [] k.outcomes q).length * 32 ^ q)).sum)
  | 0x042 => some (BitVec.ofNat 64 (k.dataLX.length + k.dataXS.length * 16))
  | _ => none

/-- DOMAIN as barrier and leeway words of a cycle find it: a write acts on those that issue after it (R46). -/
def Core.domainAt (k : Core) (now : Nat) : BitVec 8 :=
  match k.domainBefore with
  | some (c, d) => if c = now then d else k.domain
  | none => k.domain

/-- A write by number: none where the number, the register's access, the sequencer or the value is refused (R30, R44, R45).
Reserved bits ignore writes (R4). What the same cycle has raised stays raised (R46). (DEDUCED, log 44) -/
def State.writeCsr (s : State) (n : Nat) (x : Word) : Option State :=
  match n with
  | 0x008 =>
    if x.toNat / 16 % 16 = 0 ∨ 4 ≤ x.toNat % 8 then none
    else some (s.mapMe (fun k => { k with domain := BitVec.ofNat 8 (x.toNat % 256) &&& 0xF7, domainBefore := some (s.cycle, k.domainAt s.cycle) }))
  | 0x009 => if s.cur.seq = .x then some (s.mapMe (fun k => { k with rrb := BitVec.ofNat 9 x.toNat })) else none
  | 0x00A => some (s.mapMySeq (fun r => { r with sg := BitVec.ofNat 16 x.toNat }))
  | 0x010 => some (s.mapMe (fun k => { k with fflags := BitVec.ofNat 5 x.toNat ||| (if k.raisedAt = s.cycle then k.raisedFlags else 0) }))
  | 0x011 => some (s.mapMe (fun k => { k with frm := BitVec.ofNat 2 x.toNat }))
  | 0x012 => some (s.mapMe (fun k => { k with aovf := x.getLsbD 0 || (decide (k.raisedAt = s.cycle) && k.raisedAovf) }))
  | 0x01B => some (s.mapMe (fun k => { k with cdrains := x + (if k.raisedAt = s.cycle then BitVec.ofNat 64 k.raisedDrains else 0) }))
  | 0x030 => some (s.mapMySeq (fun r => { r with tvec := x &&& ~~~(15 : Word) }))
  | 0x031 => some (s.mapMySeq (fun r => { r with epc := x }))
  | 0x032 => some (s.mapMySeq (fun r => { r with ecause := x &&& 0xFFFF03FF }))
  | _ => none

/-- CSRR (R127). A CSR number that is not in R44's table traps where the word acts, as an operand value does: one that its predicate skips does not
trap. (DESIGN CHOICE, log 110) -/
def execCsrr (h : Header) (o : ImmOps) (s : State) : Result :=
  issueWord (Issue.scalar [] [o.dg]) h (fun s =>
    match s.csr o.imm.toNat with
    | some v => .done (s.setG o.dg v) s.pc16
    | none => .trap (.bare .illegal)) s

/-- CSRW (R127). -/
def execCsrw (h : Header) (o : ImmOps) (s : State) : Result :=
  issueWord { Issue.scalar [o.ag] [] with noSpec := true } h (fun s =>
    match s.writeCsr o.imm.toNat (s.g o.ag) with
    | some t => .done t s.pc16
    | none => .trap (.bare .illegal)) s

/-- CSRX: write and read the earlier value in one step (R127). -/
def execCsrx (h : Header) (o : ImmOps) (s : State) : Result :=
  issueWord { Issue.scalar [o.ag] [o.dg] with noSpec := true } h (fun s =>
    match s.csr o.imm.toNat, s.writeCsr o.imm.toNat (s.g o.ag) with
    | some v, some t => .done (t.setG o.dg v) s.pc16
    | _, _ => .trap (.bare .illegal)) s

/-! ### TRAP, ERET, HALT, NOP, YIELD (R128, R129) -/

/-- TRAP: Trap(software trap) with IMM[15:0] in ECAUSE[31:16]. -/
def execTrap (h : Header) (o : ImmOps) (s : State) : Result :=
  issueWord (Issue.scalar [] []) h
    (fun _ => .trap ⟨.software, { FaultAt.none with info := o.imm.toNat % 65536 }⟩) s

/-- ERET: PC := EPC (R74, R75, R128). Reported faults may be delivered again and stopped FIFOs resume (R364, R365). -/
def execEret (h : Header) (o : ImmOps) (s : State) : Result :=
  let _ := o
  issueWord (Issue.scalar [] []) h (fun s =>
    let r := s.mySeq
    let u := s.mapMe (fun k =>
      if s.cur.slot = 0 then
        (r.resumes.foldl (fun k p => k.resume p) k).mapSeq s.cur.seq
          (fun r => { r with inHandler := false, recovery := r.recovery - 1, resumes := [] })
      else k)
    transfer s r.epc u) s

/-- Every earlier word of the sequencer has retired: its accesses, its awaited registers, its latencies (R129). -/
def State.allRetired (s : State) : Bool := s.me.retired s.cur.seq s.cycle

/-- HALT waits until every earlier word of the sequencer has retired; then it fetches no further word (R129). The PC stays at
the HALT (R194, R364). -/
def execHalt (h : Header) (o : ImmOps) (s : State) : Result :=
  let _ := o
  issueWord { Issue.scalar [] [] with noSpec := true, patient := true } h (fun s =>
    if s.allRetired then .done (s.mapMySeq (fun r => { r with halted := true })) s.pc else .wait s none) s

/-- NOP. -/
def execNop (h : Header) (o : ImmOps) (s : State) : Result :=
  let _ := o
  issueWord (Issue.scalar [] []) h (fun s => .done s s.pc16) s

/-- The other queues that hold a dispatchable tile (R318). -/
def State.dispatchableQueues (s : State) (t : Tile) : List Nat :=
  ((s.launches.map (fun l => l.queue)).eraseDups).filter (fun q => q != t.queue &&
    (match s.dispatchable q with
     | some _ => true
     | none => false))

/-- Another queue of equal or higher priority holds a dispatchable tile (R129, R318). -/
def State.outranked (s : State) (t : Tile) : Bool :=
  s.launches.any (fun l => l.queue != t.queue && decide (t.prio ≤ (s.queue l.queue).prio) &&
    (match s.dispatchable l.queue with
     | some _ => true
     | none => false))

/-- YIELD: on C-seq the tile is marked while another queue outranks it; otherwise a NOP (R129). -/
def execYield (h : Header) (o : ImmOps) (s : State) : Result :=
  let _ := o
  issueWord (Issue.scalar [] []) h (fun s =>
    match s.me.tile with
    | some t =>
      if s.cur.seq = .c ∧ s.outranked t then
        .done (s.mapMe (fun k => { k with tile := some { t with yielded := true, yieldedFor := s.dispatchableQueues t } })) s.pc16
      else .done s s.pc16
    | none => .done s s.pc16) s

/-! ### Masks (R126) -/

/-- A VCMP of X-seq has not yet written CM (R242). -/
def Core.cmPending (k : Core) : Bool :=
  (k.fifo 5).any (fun c => match c.instr with
    | .vcmp _ _ => true
    | _ => false)

/-- Key of a register in `Core.vready`. -/
def vreadyKey (q : SeqId) (p : Nat) : Nat := 2048 * q.num + p

/-- CM has a compare of X-seq outstanding, or its latency holds it (R134, R242). -/
def Core.cmAwaited (k : Core) (now : Nat) : Bool := k.cmPending || decide (now < Table.get 0 k.vready (vreadyKey .x 1024))

/-- A mask word of X-seq over some masks; one that names CM waits for the compares before it and their latency (R134, R242, R243). -/
def maskWord (h : Header) (lat : Nat) (srcs dsts : List (BitVec 6)) (masks : List (BitVec 6)) (f : State → State)
    (s : State) : Result :=
  issueWord { Issue.scalar srcs dsts with who := [.x], lat := lat } h
    (fun s => if masks.contains 1 && s.me.cmAwaited s.cycle then .wait s none else .done (f s) s.pc16) s

/-- MSAVE: kd := ma. -/
def execMsave (h : Header) (o : RegOps) (s : State) : Result :=
  maskWord h 1 [] [] [o.ag] (fun s => s.setMaskReg o.dg.toNat (s.maskReg o.ag.toNat)) s
/-- MREST: md := ka. -/
def execMrest (h : Header) (o : RegOps) (s : State) : Result :=
  maskWord h 1 [] [] [o.dg, o.ag] (fun s => s.setMaskReg o.dg.toNat (s.maskReg o.ag.toNat)) s
/-- MAND: md := ma and mb. -/
def execMand (h : Header) (o : RegOps) (s : State) : Result :=
  maskWord h 1 [] [] [o.dg, o.ag, o.bg] (fun s => s.setMaskReg o.dg.toNat (s.maskReg o.ag.toNat &&& s.maskReg o.bg.toNat)) s
/-- MOR: md := ma or mb. -/
def execMor (h : Header) (o : RegOps) (s : State) : Result :=
  maskWord h 1 [] [] [o.dg, o.ag, o.bg] (fun s => s.setMaskReg o.dg.toNat (s.maskReg o.ag.toNat ||| s.maskReg o.bg.toNat)) s
/-- MXOR: md := ma xor mb. -/
def execMxor (h : Header) (o : RegOps) (s : State) : Result :=
  maskWord h 1 [] [] [o.dg, o.ag, o.bg] (fun s => s.setMaskReg o.dg.toNat (s.maskReg o.ag.toNat ^^^ s.maskReg o.bg.toNat)) s
/-- MNOT: md := not ma. -/
def execMnot (h : Header) (o : RegOps) (s : State) : Result :=
  maskWord h 1 [] [] [o.dg, o.ag] (fun s => s.setMaskReg o.dg.toNat (~~~(s.maskReg o.ag.toNat))) s
/-- MSET: bit i is 1 for i < min(G(CG), 1,024). -/
def execMset (h : Header) (o : RegOps) (s : State) : Result :=
  maskWord h 1 [o.cg] [] [o.dg] (fun s => s.setMaskReg o.dg.toNat (BitVec.ofNat 1024 (2 ^ (if (s.g o.cg).toNat < 1024 then (s.g o.cg).toNat else 1024) - 1))) s
/-- MCNT, latency 2 (R241): the number of one bits. -/
def execMcnt (h : Header) (o : RegOps) (s : State) : Result :=
  maskWord h 2 [] [o.cg] [o.ag]
    (fun s => s.setG o.cg (BitVec.ofNat 64 (onesNat (s.maskReg o.ag.toNat).toNat 1024))) s

end Sys2Proof.Machine
end

