-- ==== Sys2Proof/Machine/Registers.lean ====
section
/-! DEFINITION. The link registers and the management registers of the register window (R347, R358, R389), as the firmware reaches
them during start-up and the host afterwards: ports and their training (R393), start-up and built-in test (R390), splits and clocks
(R21, R392). -/

namespace Sys2Proof.Machine
open Sys2Proof

/-- A field of a written value. -/
def fieldOf (v : Word) (lo w : Nat) : Nat := v.toNat / 2 ^ lo % 2 ^ w

def State.port (s : State) (p : Nat) : Port := Table.get Port.reset s.ports p
def State.setPort (s : State) (p : Nat) (x : Port) : State := { s with ports := Table.set Port.reset s.ports p x }
def State.mapPort (s : State) (p : Nat) (f : Port → Port) : State := s.setPort p (f (s.port p))

/-! ### PCFG, PSTAT and training (R358, R393) -/

def Port.mode (x : Port) : Nat := x.pcfg.toNat % 4
def Port.wpace (x : Port) : Nat := x.pcfg.toNat / 2 ^ 16 % 2 ^ 16
def Port.wingr (x : Port) : Nat := x.pcfg.toNat / 2 ^ 32 % 2 ^ 20

def PortState.code : PortState → Nat
  | .down => 0
  | .training => 1
  | .up => 2
  | .fenced => 3

/-- PSTAT. -/
def Port.status (x : Port) : Word := BitVec.ofNat 64 (x.replays % 2 ^ 32 * 2 ^ 32 + x.peer % 1024 * 2 ^ 16 + x.state.code)

/-- A value that PCFG takes. -/
def pcfgOk (v : Word) : Bool :=
  let w := fieldOf v 32 20
  fieldOf v 0 2 != 3 && w % 512 == 0 && decide (512 ≤ w) && decide (w ≤ 65536) && fieldOf v 16 16 != 0

/-- A write of PCFG takes effect on a down port; MODE 1 or 2 starts its training. -/
def State.writePcfg (s : State) (p : Nat) (v : Word) : State :=
  if (s.port p).state ≠ .down ∨ !pcfgOk v then s
  else s.mapPort p (fun x =>
    { x with
      pcfg := BitVec.ofNat 64 (fieldOf v 32 20 * 2 ^ 32 + fieldOf v 16 16 * 2 ^ 16 + fieldOf v 0 2)
      state := if fieldOf v 0 2 = 0 then .down else .training
      trainStart := s.tick })

/-- PCFG_WRITE. -/
def execPcfgWrite (port value : Nat) (s : State) : Result :=
  if 24 ≤ port then .fault .noSuchUnit else .next (s.writePcfg port (BitVec.ofNat 64 value))

/-- A tenth of a second in ticks. -/
def trainingLimit : Nat := 130000000

/-- A port is in training. -/
def State.anyTraining (s : State) : Bool := s.ports.any (fun x => x.2.state == .training)

/-- PORT_TRAINED: within the limit the lanes lock; in peer mode the peer's device number arrives, and a port to the device itself goes down (R393). -/
def execPortTrained (port peer : Nat) (s : State) : Result :=
  if 24 ≤ port ∨ 1024 ≤ peer then .fault .noSuchUnit
  else
    let x := s.port port
    if x.state ≠ .training ∨ x.trainStart + trainingLimit ≤ s.tick then .next s
    else if x.mode = 1 ∧ peer = s.devnum then .next (s.mapPort port (fun x => { x with state := .down, peer := peer }))
    else .next (s.mapPort port (fun x => { x with
      state := .up, peer := if x.mode = 1 then peer else 0, credit := s.tick, errors := 0, sending := [], used := [] }))

/-- PORT_TRAINING_TIMEOUT (R393). -/
def execPortTrainingTimeout (port : Nat) (s : State) : Result :=
  if 24 ≤ port then .fault .noSuchUnit
  else if (s.port port).state = .training ∧ (s.port port).trainStart + trainingLimit ≤ s.tick then
    .next (s.mapPort port (fun x => { x with state := .down }))
  else .next s

/-! ### Splits and clocks (R21, R392) -/

/-- Cluster i of a die changes its partition, or stays in the decode partition whose clock changes. -/
def altered (d k d' k' i : Nat) : Bool :=
  let before := decide (8 ≤ i + d)
  let after := decide (8 ≤ i + d')
  before != after || (before && after && k != k')

/-- A setting that is held pending alters the cluster. -/
def Clock.alters (c : Clock) (cluster : Nat) : Bool :=
  match c.pending with
  | none => false
  | some (d, k) => altered c.d c.k d k (cluster % 8)

def State.setClock (s : State) (die : Nat) (c : Clock) : State :=
  { s with mgmt := { s.mgmt with clocks := Table.set Clock.reset s.mgmt.clocks die c } }

/-- A write of CLKCFG: at once where it alters no cluster, else held. -/
def State.writeClkcfg (s : State) (die : Nat) (v : Word) : State :=
  let d := fieldOf v 0 4
  let k := fieldOf v 8 4
  let c := s.clockOf die
  if 8 < d ∨ k < 4 ∨ 8 < k then s
  else if (List.range 8).any (fun i => altered c.d c.k d k i) then s.setClock die { c with pending := some (d, k) }
  else s.setClock die { d := d, k := k, pending := none }

/-- CLKCFG_WRITE. -/
def execClkcfgWrite (die value : Nat) (s : State) : Result :=
  if 4 ≤ die then .fault .noSuchUnit else .next (s.writeClkcfg die (BitVec.ofNat 64 value))

/-- CLKCFG_PENDING_APPLY: no altered cluster holds a resident tile (R21). -/
def execClkcfgPendingApply (die : Nat) (s : State) : Result :=
  if 4 ≤ die then .fault .noSuchUnit
  else
    let c := s.clockOf die
    match c.pending with
    | none => .next s
    | some (d, k) =>
      let busy := (List.range 128).any (fun i => c.alters (clusterOf (128 * die + i)) && (s.core (128 * die + i)).tile.isSome)
      .next (if busy then s else s.setClock die { d := d, k := k, pending := none })

def Clock.word (c : Clock) : Word :=
  BitVec.ofNat 64 ((if c.pending.isSome then 2 ^ 16 else 0) + c.k * 2 ^ 8 + c.d)

/-! ### SFCTL (R390) -/

def State.anyEnabled (s : State) : Bool := s.queues.any (fun x => x.2.state == .enabled)

/-- STARTUP once 0 stays 0, and becomes 0 only when the fifth step of bring-up has ended (R391); a write of 1 to BIST starts the test unless a queue
is enabled; RECOV is written. (DEDUCED, log 120) -/
def State.writeSfctl (s : State) (v : Word) : State :=
  let startup := s.mgmt.sfctl.getLsbD 0 && (v.getLsbD 0 || s.mgmt.bringUp != 5)
  let bist := s.mgmt.sfctl.getLsbD 1 || (v.getLsbD 1 && !s.anyEnabled)
  let x : Nat := (if startup then 1 else 0) + (if bist then 2 else 0) + (if v.getLsbD 2 then 4 else 0)
  { s with mgmt := { s.mgmt with
      sfctl := BitVec.ofNat 64 x
      bringUp := if s.mgmt.sfctl.getLsbD 0 && !startup then 6 else s.mgmt.bringUp } }

/-- SFCTL_STARTUP_END: the firmware clears STARTUP. -/
def execSfctlStartupEnd (s : State) : Result := .next (s.writeSfctl (s.mgmt.sfctl &&& ~~~1#64))

/-- SFCTL_BIST: a write of 1 to BIST. -/
def execSfctlBist (s : State) : Result := .next (s.writeSfctl (s.mgmt.sfctl ||| 2#64))

/-- BIST_DONE. -/
def execBistDone (s : State) : Result :=
  .next { s with mgmt := { s.mgmt with sfctl := s.mgmt.sfctl &&& ~~~2#64 } }

/-! ### Reading and writing -/

/-- Registers of 8 bytes by their offsets in the register window; reserved ones read as zero (R4). -/
def State.readLinkOrManagement (s : State) (off : Nat) : Word :=
  if 0x206000 ≤ off then
    let mask (i : Nat) : Nat := (Table.get 0 s.routes i).toNat
    let d := (off - 0x206000) / 4
    if off < 0x207000 then BitVec.ofNat 64 (mask d + mask (d + 1) * 2 ^ 32) else 0
  else if 0x205000 ≤ off then
    let m := s.mgmt
    match off - 0x205000 with
    | 0x000 => m.sfctl
    | 0x008 => m.asidbase
    | 0x010 => m.rosbase
    | 0x020 => (s.clockOf 0).word
    | 0x028 => (s.clockOf 1).word
    | 0x030 => (s.clockOf 2).word
    | 0x038 => (s.clockOf 3).word
    | 0x040 => BitVec.ofNat 64 m.pwrcap
    | 0x048 => BitVec.ofNat 64 (m.pwrnow % 4096)
    | 0x050 => BitVec.ofNat 64 (m.throttledMs * 2 ^ 32 + (if m.thermal then 2 else 0) + (if m.throttled then 1 else 0))
    | 0x058 => BitVec.ofNat 64 (m.temp % 2 ^ 32)
    | _ => 0
  else
    let o := off - 0x202000
    if o = 0 then BitVec.ofNat 64 s.devnum
    else if o = 8 then BitVec.ofNat 64 s.hostdev
    else if 0x100 ≤ o ∧ o < 0x280 then
      let x := s.port ((o - 0x100) / 16)
      if o % 16 = 0 then x.pcfg else if o % 16 = 8 then x.status else 0
    else 0

/-- One route mask (R358). -/
def State.writeRoute (s : State) (d v : Nat) : State :=
  if d < 1024 then { s with routes := Table.set 0 s.routes d (BitVec.ofNat 24 v) } else s

/-- A write of 8 bytes; one that a register does not take is discarded. -/
def State.writeLinkOrManagement (s : State) (off : Nat) (v : Word) : State :=
  if 0x206000 ≤ off then
    let d := (off - 0x206000) / 4
    if off < 0x207000 then (s.writeRoute d (fieldOf v 0 32)).writeRoute (d + 1) (fieldOf v 32 32) else s
  else if 0x205000 ≤ off then
    let m := s.mgmt
    match off - 0x205000 with
    | 0x000 => s.writeSfctl v
    | 0x008 => if s.anyEnabled then s else { s with mgmt := { m with asidbase := BitVec.ofNat 64 (fieldOf v 12 40 * 2 ^ 12) } }
    | 0x010 =>
      if m.sfctl.getLsbD 0 then
        { s with mgmt := { m with rosbase := BitVec.ofNat 64 (fieldOf v 16 36 * 2 ^ 16) } }
      else s
    | 0x020 => s.writeClkcfg 0 v
    | 0x028 => s.writeClkcfg 1 v
    | 0x030 => s.writeClkcfg 2 v
    | 0x038 => s.writeClkcfg 3 v
    | 0x040 =>
      let c := fieldOf v 0 12
      if c < 1000 ∨ 3600 < c then s else { s with mgmt := { m with pwrcap := c } }
    | _ => s
  else
    let o := off - 0x202000
    if o = 0 then (if s.ports.any (fun x => x.2.state == .up) then s else { s with devnum := fieldOf v 0 10 })
    else if o = 8 then { s with hostdev := fieldOf v 0 10 + fieldOf v 15 1 * 2 ^ 15 }
    else if 0x100 ≤ o ∧ o < 0x280 ∧ o % 16 = 0 then s.writePcfg ((o - 0x100) / 16) v
    else s

/-- What the firmware's accesses of R347 read and write. -/
def State.readRegister (s : State) (off : Nat) : Word := s.readLinkOrManagement off
def State.writeRegister (s : State) (off : Nat) (v : Word) : State := s.writeLinkOrManagement off v

end Sys2Proof.Machine
end

