-- ==== Sys2Proof/Machine/ScalarMemory.lean ====
section
/-! DEFINITION. Scalar loads and stores (R107 to R109), atomics (R110), FENCE and MARK (R111, R112), the load and store queues with
the steps that perform their accesses (R269 to R274), remote and host writes (R348, R349), and eviction (R261). -/

namespace Sys2Proof.Machine
open Sys2Proof

/-- Whether all the bytes lie in the first-level cache (R241). -/
def Core.cached (k : Core) (pas : List Nat) : Bool :=
  pas.all (fun pa => match k.line pa with
    | some l => l.valid.getLsbD (pa % 128)
    | none => false)

/-- Whether an address is on another device or the host (R348). -/
def State.isRemote (s : State) (pa : Nat) : Bool :=
  match s.place pa with
  | .host | .remote _ => true
  | _ => false

/-! ### Reads of other devices and of the host (R26, R354) -/

def RemoteRead.answered (r : RemoteRead) : Bool := r.data.isSome || r.lost.isSome

/-- The read of an owner that covers a byte. -/
def Core.readOf (k : Core) (owner pa : Nat) : Option RemoteRead :=
  k.reads.find? (fun r => r.owner == owner && decide (r.addr ≤ pa) && decide (pa < r.addr + r.bytes))

/-- A byte of an answer. -/
def RemoteRead.byte (r : RemoteRead) (pa : Nat) : Byte := (r.data.getD []).getD (pa - r.addr) 0

/-- Runs of consecutive bytes of at most 512. -/
def readRuns : List Nat → List (Nat × Nat)
  | [] => []
  | a :: r =>
    match readRuns r with
    | (b, n) :: t => if b = a + 1 ∧ n < 512 then (a, n + 1) :: t else (a, 1) :: (b, n) :: t
    | [] => [(a, 1)]

/-- The bytes among some that lie elsewhere and that an owner has not begun to read. -/
def State.unread (s : State) (core owner : Nat) (pas : List Nat) : List Nat :=
  pas.filter (fun pa => s.isRemote pa && ((s.core core).readOf owner pa).isNone)

/-- The reads of an owner for bytes that lie elsewhere. -/
def State.addReads (s : State) (core owner : Nat) (pas : List Nat) : State :=
  s.mapCore core (fun k => { k with reads := k.reads ++ (readRuns (s.unread core owner pas)).map (fun x => ⟨owner, x.1, x.2, false, none, none⟩) })

/-- Every read of an owner has been answered. -/
def Core.readsDone (k : Core) (owner : Nat) : Bool := (k.reads.filter (fun r => r.owner == owner)).all RemoteRead.answered

def Core.dropReads (k : Core) (owner : Nat) : Core := { k with reads := k.reads.filter (fun r => r.owner != owner) }

/-- Requests that have left and whose answers have not landed: those of one load or command land in the order of its requests (R283, R354). -/
def Core.unlanded (k : Core) : Nat :=
  (k.reads.zipIdx.filter (fun x => x.1.asked &&
    (k.reads.take (x.2 + 1)).any (fun y => y.owner == x.1.owner && y.asked && !y.answered))).length

/-- A remote or host access overlapping an unacknowledged entry of the core waits (R349). (DEDUCED, log 70) -/
def Core.postedOverlap (k : Core) (pas : List Nat) : Bool :=
  k.posted.any (fun e => pas.any (fun pa => decide (e.addr ≤ pa) && decide (pa < e.addr + e.data.length)))

/-- C-seq performs its accesses one at a time (R109). A store to another device or the host counts as done for this once it is posted (R349).
(DEDUCED, log 35) (DEDUCED, log 89) -/
def State.cBusy (s : State) : Bool := s.cur.seq == .c && !(s.me.openAccesses .c).isEmpty

/-- The part of the register window that the firmware reaches during start-up: link and management registers and route
masks (R347). -/
def State.firmwareWindow (s : State) (pa n : Nat) : Option Nat :=
  match s.place pa with
  | .window off =>
    if s.mgmt.sfctl.getLsbD 0 && n == 8 && off % 8 == 0 &&
        ((decide (0x202000 ≤ off) && decide (off < 0x203000)) || (decide (0x205000 ≤ off) && decide (off < 0x207000)))
    then some off else none
  | _ => none

/-- Outcome of the checks of a scalar virtual access (R108), with the register window's own path. -/
inductive Reached where
  | pas (l : List Nat)
  | register (off : Nat)
  | walk (va : Nat)
  | fault (i : FaultInfo)
deriving DecidableEq, Repr

/-- Checks 1, 3 and 4 of R108 for n bytes at ea, for an access at a scope. -/
def State.reach (s : State) (p : Perm) (scope : Scope) (ea : Word) (n : Nat) : Reached :=
  if ea.toNat % n ≠ 0 then .fault (.virt .alignment ea.toNat 3)
  else
    let c := s.cur.core
    let window := match s.translate c s.me.asid ea.toNat p with
      | .hit pa => s.firmwareWindow pa n
      | _ => none
    match window with
    | some off => .register off
    | none =>
      match s.checkVirtual c s.me.asid p 3 ea.toNat n with
      | .walk va => .walk va
      | .fault i => .fault i
      | .ok pas =>
        match s.checkData (s.core c |>.serves scope) p ea.toNat 3 pas with
        | some i => .fault i
        | none => .pas pas

/-- An access of the present word with a fresh number. -/
def State.access (s : State) (kind : AccessKind) (space : Space) (addr n : Nat) (scope : Scope) (acq rel : Bool)
    (deadline : Option Nat) : Access :=
  let r := s.mySeq
  { id := s.nextId, seq := s.cur.seq, slot := s.cur.slot, kind := kind, space := space, addr := addr, bytes := n,
    scope := scope, acquire := acq, release := rel,
    after := (match kind with
      | .load _ _ | .vload _ _ _ => r.loadAfter
      | _ => r.storeAfter) ++ (if rel then s.me.openAccesses s.cur.seq else []),
    marks := r.marks.length, pc := s.pc, filled := true, deadline := deadline, phys := [],
    behind := if scope != .core && (rel || (match kind with | .fence n => n != 1 | _ => false)) then s.me.postedBefore s.cur.seq else [] }

/-- Put a load into the load queue; its register is awaited (R242, R269). -/
def State.queueLoad (s : State) (a : Access) (reg : Option Nat) : State :=
  let s := s.mapMe (fun k => { k with loads := k.loads ++ [a] })
  let s := { s with nextId := s.nextId + 1 }
  s.mapMySeq (fun r => { r with
    outstanding := match reg with
      | some n => if n = 0 then r.outstanding else r.outstanding ++ [n]
      | none => r.outstanding
    loadAfter := if a.acquire then r.loadAfter ++ [a.id] else r.loadAfter
    storeAfter := if a.acquire then r.storeAfter ++ [a.id] else r.storeAfter })

/-- Put a store or a fence into the store queue (R269). -/
def State.queueStore (s : State) (a : Access) : State :=
  let s := s.mapMe (fun k => { k with stores := k.stores ++ [a] })
  { s with nextId := s.nextId + 1 }

/-- Free entries of the remote-write buffer (R349): a vector store's writes share one. -/
def Core.postedRoom (k : Core) (n : Nat) : Bool := decide ((k.posted.map (fun e => e.entry)).eraseDups.length + n ≤ 32)
def Core.postedEntry (k : Core) : Nat :=
  ((List.range 32).find? (fun e => !(k.posted.any (fun p => p.entry == e)))).getD 0

/-- Take an entry of the remote-write buffer for bytes at a physical address (R349). -/
def Core.addPosted (k : Core) (id addr : Nat) (data : List Byte) (port : Nat) (seq : SeqId) (pc : Word)
    (command : Option Nat) (sent : Bool) : Core :=
  { k with posted := k.posted ++ [⟨id, k.postedEntry, addr, data, port, seq, pc, command, none, 0, 0, sent, 0, []⟩] }

/-- A held range holds the access off, or in a sequencer's first turn of the cycle an access that has waited longer for a range goes first
(R244, R253, R254). -/
def State.rangeWait (s : State) (sp : Space) (lo n : Nat) (store : Bool) : Bool :=
  s.me.held s.cycle sp lo n store || (s.mayRetry && s.me.older s.cur.seq 13 s.cycle)

/-- LD, LDA: the checks of R108, what another device cannot serve among them (R354), then the load queue. (DEDUCED, log 73) -/
def loadWord (h : Header) (o : MemOps) (acquire : Bool) (s : State) : Result :=
  issueWord { Issue.scalar [o.ag] [o.dg] with who := [.c, .l], lat := if s.cur.seq = .l then 5 else 1 } h (fun s =>
    if s.cBusy then .wait s none
    else
      let n := 2 ^ o.sz.toNat
      let ea := s.ea o.ag o.off
      match s.reach .read (scopeOf o.sco) ea n with
      | .fault i => .trap i
      | .walk va => .walk va
      | .register off => .done (s.setG o.dg (s.readRegister off)) s.pc16
      | .pas pas =>
        match pas.findSome? (fun pa => s.homeFault pa) with
        | some i => .trap i
        | none =>
        if s.rangeWait .virt ea.toNat n false then .wait s (some 13)
        else if pas.any s.isRemote && s.me.postedOverlap pas then .wait s none
        else
          let fast := s.cur.seq = .l ∧ s.me.cached pas
          let a := s.access (.load o.dg.toNat (o.sgn == 1)) .virt ea.toNat n (scopeOf o.sco) acquire false
            (if fast then some (s.cycle + 4) else none)
          .done (s.queueLoad { a with phys := [(pas.headD 0, n)] } (some o.dg.toNat)) s.pc16) s

/-- LD (R107, R108). -/
def execLd (h : Header) (o : MemOps) (s : State) : Result := loadWord h o false s
/-- LDA: an acquire at SCO (R107, R109). -/
def execLda (h : Header) (o : MemOps) (s : State) : Result := loadWord h o true s

/-- ST, STL: the checks of R108, then the store queue; a remote or host store takes a buffer entry (R349). -/
def storeWord (h : Header) (o : MemOps) (release : Bool) (s : State) : Result :=
  issueWord { Issue.scalar [o.ag, o.bg] [] with who := [.c, .s] } h (fun s =>
    if s.cBusy then .wait s none
    else
      let n := 2 ^ o.sz.toNat
      let ea := s.ea o.ag o.off
      let data := natBytes n (s.g o.bg).toNat
      match s.reach .write (scopeOf o.sco) ea n with
      | .fault i => .trap i
      | .walk va => .walk va
      | .register off => .done (s.writeRegister off (s.g o.bg)) s.pc16
      | .pas pas =>
        if s.rangeWait .virt ea.toNat n true then .wait s (some 13)
        else if s.cur.slot ≠ 0 then .done (s.slotStore .virt ea.toNat data) s.pc16
        else
          let remote := pas.any s.isRemote
          if remote && (s.me.postedOverlap pas || !s.me.postedRoom 1) then .wait s none
          else
            let a := s.access (.store data) .virt ea.toNat n (scopeOf o.sco) false release none
            let s := if remote then
                s.mapMe (fun k => k.addPosted a.id (pas.headD 0) data 8 s.cur.seq s.pc none false)
              else s
            .done (s.queueStore { a with phys := [(pas.headD 0, n)] }) s.pc16) s

/-- ST (R107, R108). -/
def execSt (h : Header) (o : MemOps) (s : State) : Result := storeWord h o false s
/-- STL: a release at SCO (R107, R109). -/
def execStl (h : Header) (o : MemOps) (s : State) : Result := storeWord h o true s

/-- LDX, latency 4 (R108, R241). -/
def execLdx (h : Header) (o : MemOps) (s : State) : Result :=
  issueWord { Issue.scalar [o.ag] [o.dg] with who := [.c, .l], lat := 4 } h (fun s =>
    if s.cBusy then .wait s none
    else
      let n := 2 ^ o.sz.toNat
      let ea := (s.ea o.ag o.off).toNat
      if ea % n ≠ 0 then .trap (.spad .alignment ea 3)
      else if !s.me.inSpad ea n then .trap (.spad .scratchRange ea 3)
      else if s.rangeWait .spad ea n false then .wait s (some 13)
      else .done (s.queueLoad (s.access (.load o.dg.toNat (o.sgn == 1)) .spad ea n .core false false
        (some (s.cycle + 3))) (some o.dg.toNat)) s.pc16) s

/-- STX (R108). -/
def execStx (h : Header) (o : MemOps) (s : State) : Result :=
  issueWord { Issue.scalar [o.ag, o.bg] [] with who := [.c, .s] } h (fun s =>
    if s.cBusy then .wait s none
    else
      let n := 2 ^ o.sz.toNat
      let ea := (s.ea o.ag o.off).toNat
      let data := natBytes n (s.g o.bg).toNat
      if ea % n ≠ 0 then .trap (.spad .alignment ea 3)
      else if !s.me.inSpad ea n then .trap (.spad .scratchRange ea 3)
      else if s.rangeWait .spad ea n true then .wait s (some 13)
      else if s.cur.slot ≠ 0 then .done (s.slotStore .spad ea data) s.pc16
      else .done (s.queueStore (s.access (.store data) .spad ea n .core false false none)) s.pc16) s

/-! ### Atomics (R110) -/

/-- The new value of an AMO on n-byte patterns. -/
def amoValue (op n old b : Nat) : Nat :=
  let lt (x y : Nat) : Bool := decide (sext (8 * n) x < sext (8 * n) y)
  let v := match op with
    | 0 => b
    | 1 => old + b
    | 2 => old &&& b
    | 3 => old ||| b
    | 4 => old ^^^ b
    | 5 => if lt b old then b else old
    | 6 => if lt old b then b else old
    | 7 => if b < old then b else old
    | _ => if old < b then b else old
  v % 2 ^ (8 * n)

/-- Read and conditionally write a location in one indivisible step at a scope, with the order's release and acquire. -/
def State.rmw (s : State) (scope : Scope) (ord : Nat) (pas : List Nat) (f : Nat → Option Nat) : State × Nat :=
  let c := s.cur.core
  let s := if ord = 2 ∨ ord = 3 then s.releaseCaches c scope else s
  let s := s.prepareLoad c scope pas
  let old := bytesNat (pas.map (fun pa => s.loadByte c scope pa))
  let s := match f old with
    | some v => s.storeBytes c scope pas (natBytes pas.length v)
    | none => s
  let s := if ord = 1 ∨ ord = 3 then s.acquireCaches c scope else s
  (s, old)

/-- AMO and CAS: C-seq, one indivisible step (R110). One that no route can carry, or whose home is fenced, writes nothing and its fault is
reported (R357, R362).
(DEDUCED, log 73) -/
def atomicWord (h : Header) (o : MemOps) (srcs : List (BitVec 6)) (f : State → Nat → Option Nat) (s : State) : Result :=
  issueWord { Issue.scalar srcs [o.dg] with who := [.c], noSpec := true } h (fun s =>
    if s.cBusy then .wait s none
    else
      let n := 2 ^ o.sz.toNat
      let ea := s.ea o.ag o.off
      match s.reach .both (scopeOf o.sco) ea n with
      | .fault i => .trap i
      | .walk va => .walk va
      | .register _ => .trap (.virt .protection ea.toNat 3)
      | .pas pas =>
        let scope := scopeOf o.sco
        match pas.findSome? (fun pa => s.homeFault pa) with
        | some i => .trap i
        | none =>
        if s.rangeWait .virt ea.toNat n true then .wait s (some 13)
        else if pas.any s.isRemote && s.me.postedOverlap pas then .wait s none
        else if (o.ord == 2 || o.ord == 3) && scope != .core && !(s.me.postedBefore .c).isEmpty then .wait s none
        else match pas.findSome? (fun pa => s.answerFault pa) with
        | some i => .done (s.reportTo s.cur.core .c 7 s.pc i none).1 s.pc16
        | none =>
          let (t, old) := s.rmw scope o.ord.toNat pas (f s)
          .done (t.setG o.dg (if o.sgn = 1 then BitVec.ofInt 64 (sext (8 * n) old) else BitVec.ofNat 64 old)) s.pc16) s

/-- AMO. -/
def execAmo (h : Header) (o : MemOps) (s : State) : Result :=
  atomicWord h o [o.ag, o.bg] (fun s old =>
    let n := 2 ^ o.sz.toNat
    some (amoValue o.aop.toNat n old ((s.g o.bg).toNat % 2 ^ (8 * n)))) s

/-- CAS: a failing compare writes nothing. -/
def execCas (h : Header) (o : MemOps) (s : State) : Result :=
  atomicWord h o [o.ag, o.bg, o.cg] (fun s old =>
    let n := 2 ^ o.sz.toNat
    if old = (s.g o.bg).toNat % 2 ^ (8 * n) then some ((s.g o.cg).toNat % 2 ^ (8 * n)) else none) s

/-! ### FENCE and MARK (R111, R112) -/

/-- What a fence that has its accesses behind it does to the caches (R273, R274). -/
def State.fenceCaches (s : State) (core : Nat) (ord : Nat) (scope : Scope) : State :=
  let s := if ord = 2 ∨ ord = 3 then s.releaseCaches core scope else s
  if ord = 1 ∨ ord = 3 then s.acquireCaches core scope else s

/-- FENCE (R111): performed at once when nothing stands before it, else it stands in the store queue and the later accesses
follow it. -/
def execFence (h : Header) (o : MemOps) (s : State) : Result :=
  issueWord (Issue.scalar [] []) h (fun s =>
    let k := s.me
    let q := s.cur.seq
    let loads := k.queuedLoads q
    let all := k.queuedAccesses q
    let ord := o.ord.toNat
    let scope := scopeOf o.sco
    let before := if ord = 1 then loads else all
    let system := scope != .core && ord != 1 && !(k.postedBefore q).isEmpty
    if before.isEmpty && !system then .done (s.fenceCaches s.cur.core ord scope) s.pc16
    else
      let a := { s.access (.fence ord) .virt 0 0 scope false false none with after := before }
      let t := s.queueStore a
      .done (t.mapMySeq (fun r => { r with
        loadAfter := if ord = 2 then r.loadAfter else r.loadAfter ++ [a.id]
        storeAfter := r.storeAfter ++ [a.id] })) s.pc16) s

/-- MARK: it retires without waiting; the later accesses carry its number (R112). A round's word is one MARK: its copies for higher slots
add none (R130). -/
def execMark (h : Header) (o : MemOps) (s : State) : Result :=
  issueWord { Issue.scalar [] [] with who := [.l, .s] } h
    (fun s => .done (if s.cur.slot = 0 then s.mapMySeq (fun r => { r with marks := r.marks ++ [(scopeOf o.sco, s.nextId)] }) else s) s.pc16) s

/-! ### Performing accesses (R269 to R274) -/

/-- The scope of the MARK pair of index i: the wider of its two; a HALT that stands for a MARK has none of its own (R112). (DEDUCED, log 81) -/
def Core.pairScope (k : Core) (i : Nat) : Scope :=
  let scope (r : Sequencer) : Scope := (r.marks[i]?.map (fun m => m.1)).getD .core
  (scope k.seqL).wider (scope k.seqS)

/-- The widest scope at which the pairs before a load of L-seq have the stores of S-seq performed (R112). -/
def Core.markScope (k : Core) (a : Access) : Scope :=
  if a.seq = .l then (List.range a.marks).foldl (fun x i => x.wider (k.pairScope i)) .core else .core

/-- The MARK pairs before an access let it be performed: for its n-th MARK, every access of the partner issued before the
partner's n-th MARK is performed; a halted partner stands for the rest (R112). -/
def Core.marksOpen (k : Core) (a : Access) : Bool :=
  match a.seq with
  | .l => decide (a.marks = 0) || ((decide (a.marks ≤ k.seqS.marks.length) || k.seqS.halted) &&
      !(k.stores.any (fun b => b.seq == .s && decide (b.marks < a.marks))) &&
      !((k.memoryRecords .s).any (fun c => decide (c.phase < a.marks))) &&
      !((List.range a.marks).any (fun i => k.pairScope i != .core && k.posted.any (fun e => e.seq == .s && e.command.isNone &&
        (match k.seqS.marks[i]? with
         | some m => decide (e.id < m.2)
         | none => true)))))
  | .s => decide (a.marks = 0) || ((decide (a.marks ≤ k.seqL.marks.length) || k.seqL.halted) &&
      !(k.loads.any (fun b => b.seq == .l && decide (b.marks < a.marks))) &&
      !((k.memoryRecords .l).any (fun c => decide (c.phase < a.marks))))
  | _ => true

/-- Byte intervals of an access. -/
def Access.spans (a : Access) : List (Nat × Nat) :=
  match a.kind with
  | .vload _ w ls => ls.map (fun l => (l.2, (w + 7) / 8))
  | .vstore ws hs => ws.map (fun w => (w.1, w.2.length)) ++ hs.map (fun x => (x.1, 1))
  | _ => [(a.addr, a.bytes)]

def spansMeet (xs ys : List (Nat × Nat)) : Bool := xs.any (fun x => ys.any (fun y => overlaps x.1 x.2 y.1 y.2))

/-- Two accesses reach a common byte, by one address or through virtual aliases of it (R267, R269). -/
def Access.meets (a b : Access) : Bool :=
  a.space == b.space && (spansMeet a.spans b.spans || spansMeet a.phys b.phys)

/-- An issue that an earlier vector memory record of the sequencer has still to make overlaps the access (R147, R269). (DEDUCED, log 80) -/
def State.recordAhead (s : State) (core : Nat) (a : Access) : Bool :=
  let k := s.core core
  (k.memoryRecords a.seq).any (fun c => decide (c.id + c.numbers < a.id) && c.result.isNone &&
    (List.range (c.numbers - c.iter)).any (fun n =>
      match c.issueSpans (c.iter + n) with
      | some x => x.1 == a.space && (spansMeet x.2 a.spans || (a.space == .virt &&
          spansMeet (x.2.filterMap (fun l => (s.resolve core k.asid l.1 .any).map (fun pa => (pa, l.2)))) a.phys))
      | none => false))

/-- An access may be performed now: what it must follow is performed, no earlier access of its queue overlaps it, and its
MARKs let it. (DEDUCED, log 35) -/
def State.performable (s : State) (core : Nat) (queue : List Access) (a : Access) : Bool :=
  let k := s.core core
  a.filled && k.performed a.after && k.marksOpen a &&
  !((queue.takeWhile (fun b => b.id != a.id)).any (fun b => b.seq == a.seq && b.meets a)) &&
  !s.recordAhead core a && !k.unacknowledged a.behind

/-- Bytes at virtual addresses as they stand for a slot of a core; they were checked at issue. -/
def State.virtBytes (s : State) (core asid : Nat) (scope : Scope) (slot : Nat) (va n : Nat) : List Byte :=
  (List.range n).map (fun i =>
    let a := (va + i) % 2 ^ 64
    match (if slot = 0 then none else slotByte (s.core core).round.stores slot .virt a) with
    | some b => b
    | none =>
      match s.resolve core asid a .read with
      | some pa => s.loadByte core scope pa
      | none => 0)

/-- Physical addresses of virtual bytes, those that translate, whatever their leaves allow. -/
def State.pasOf (s : State) (core asid va n : Nat) : List Nat :=
  (List.range n).filterMap (fun i => s.resolve core asid ((va + i) % 2 ^ 64) .any)

/-- Bytes of the scratchpad for a slot. -/
def Core.spadFor (k : Core) (slot a n : Nat) : List Byte :=
  (k.spad.readBytes a n).mapIdx (fun i b => if slot = 0 then b else (slotByte k.round.stores slot .spad (a + i)).getD b)

/-- Write a g-register for the slot of an access. -/
def Core.answerG (k : Core) (a : Access) (n : Nat) (v : Word) : Core :=
  let k := k.mapSeq a.seq (fun r => { r with outstanding := r.outstanding.erase n })
  if n = 0 then k
  else if a.slot = 0 then k.mapSeq a.seq (fun r => r.setG n v)
  else let t := k.slot a.slot; k.setSlot a.slot { t with g := Table.set 0 t.g n v }

/-- A register's number with the loaded lanes in place of the old ones: n lanes from lane i on, the loaded ones rising. -/
def mergeLanes (w : Nat) (old : VReg) (i : Nat) : Nat → List (Nat × Nat) → Nat
  | 0, _ => 0
  | n + 1, got =>
    match got with
    | (l, x) :: r =>
      if l = i then x % 2 ^ w + 2 ^ w * mergeLanes w old (i + 1) n r
      else elem old i w + 2 ^ w * mergeLanes w old (i + 1) n got
    | [] => elem old i w + 2 ^ w * mergeLanes w old (i + 1) n []

/-- A load that is not answered: its fault is reported to the sequencer, or held with its slot; no register is written
(R357). -/
def State.loadFault (s : State) (core : Nat) (a : Access) (f : FaultInfo) : State :=
  if a.slot = 0 then (s.reportTo core a.seq 7 a.pc f none).1
  else { { s with cur := ⟨core, a.seq, a.slot⟩ }.holdFault f a.pc with cur := s.cur }

/-- What keeps a load from being answered: no route, a fenced home, or bytes that have become unusable since its checks (R357, R362, R372).
(DEDUCED, log 73) -/
def State.loadLost (s : State) (core : Nat) (a : Access) : Option FaultInfo :=
  ((s.core core).reads.findSome? (fun r => if r.owner = a.id then r.lost else none)).orElse (fun _ => (a.phys.zip a.spans).findSome? (fun x =>
    s.checkData ((s.core core).serves a.scope) .read x.2.1 3 ((List.range x.1.2).map (fun i => x.1.1 + i))))

/-- A g-register is awaited no longer, and keeps its contents. -/
def Core.dropAwaited (k : Core) (a : Access) : Core :=
  match a.kind with
  | .load reg _ => k.mapSeq a.seq (fun r => { r with outstanding := r.outstanding.erase reg })
  | _ => k

/-- The bytes of a load that lie elsewhere (R354); a slot's own bytes are read all the same. -/
def State.farBytes (s : State) (a : Access) : List Nat :=
  (a.phys.flatMap (fun x => (List.range x.2).map (fun i => x.1 + i))).filter (fun pa => s.isRemote pa)

/-- All the bytes of a load that lie elsewhere have arrived (R354). -/
def State.arrived (s : State) (core : Nat) (a : Access) : Bool :=
  (s.unread core a.id (s.farBytes a)).isEmpty && (s.core core).readsDone a.id

/-- A byte of a load: from its answer where it lies elsewhere. -/
def State.loadedByte (s : State) (core : Nat) (a : Access) (va : Nat) : Byte :=
  match s.resolve core (s.core core).asid (va % 2 ^ 64) .read with
  | some pa =>
    match (s.core core).readOf a.id pa, (if a.slot = 0 then none else slotByte (s.core core).round.stores a.slot .virt (va % 2 ^ 64)) with
    | some r, none => r.byte pa
    | _, _ => (s.virtBytes core (s.core core).asid a.scope a.slot va 1).headD 0
  | none => 0

/-- LOAD_ANSWER: the load queue's access of a number reads its bytes and writes its register (R242, R265, R269, R354). (DEDUCED, log 73) -/
def loadAnswer (s : State) (core id : Nat) : State :=
  let k := s.core core
  match k.loads.find? (fun a => a.id == id) with
  | none => s
  | some a =>
    if !s.performable core k.loads a || !s.arrived core a then s
    else
    let s := s.releaseCaches core (k.markScope a)
    match s.loadLost core a with
    | some f => (s.mapCore core (fun k => ({ k with loads := k.loads.filter (fun b => b.id != id) }.dropReads id).dropAwaited a)).loadFault core a f
    | none =>
      let asid := k.asid
      let fetch (s : State) (addr n : Nat) : State × List Byte :=
        if a.space = .spad then (s, (s.core core).spadFor a.slot addr n)
        else
          let s := s.prepareLoad core a.scope (s.pasOf core asid addr n)
          (s, (List.range n).map (fun i => s.loadedByte core a (addr + i)))
      let drop (s : State) : State := s.mapCore core (fun k => k.dropReads id)
      let s := s.mapCore core (fun k => { k with loads := k.loads.filter (fun b => b.id != id) })
      match a.kind with
      | .load reg signed =>
        let (s, bs) := fetch s a.addr a.bytes
        let x := bytesNat bs
        let v := if signed then BitVec.ofInt 64 (sext (8 * a.bytes) x) else BitVec.ofNat 64 x
        let s := if a.acquire then s.acquireCaches core a.scope else s
        drop (s.mapCore core (fun k => k.answerG a reg v))
      | .vload reg w lanes =>
        let (s, got) := lanes.foldl (fun (acc : State × List (Nat × Nat)) l =>
          let (s, bs) := fetch acc.1 l.2 ((w + 7) / 8)
          (s, (l.1, if w = 4 then bytesNat bs / 16 ^ (l.1 % 2) % 16 else bytesNat bs) :: acc.2)) (s, [])
        let t := { s with cur := ⟨core, a.seq, a.slot⟩ }
        drop { t.setV reg (BitVec.ofNat 4096 (mergeLanes w (t.v reg) 0 (4096 / w) got.reverse)) (laneBytes w (fun i => lanes.any (fun l => l.1 == i))) with
          cur := s.cur }
      | _ => s

/-- Store bytes to virtual memory for a core; remote and host bytes are posted instead (R349). -/
def State.storeVirtual (s : State) (core asid : Nat) (scope : Scope) (va : Nat) (data : List Byte) : State :=
  data.zipIdx.foldl (fun s d =>
    match s.resolve core asid ((va + d.2) % 2 ^ 64) .write with
    | some pa => if s.isRemote pa then s else s.storeByte core scope pa d.1
    | none => s) s

/-- The write offers of a performed store (R350 step 1): one, or two for a vector store into two pages. -/
def State.offerWrite (s : State) (core id : Nat) : State :=
  ((s.core core).posted.filter (fun e => e.id == id)).foldl (fun (s : State) e => s.post (.offer e.addr s.devnum core e.entry)) s

/-- STORE_PERFORMED: the store queue's access of a number is performed at its scope (R264, R269, R271, R273). -/
def storePerformed (s : State) (core id : Nat) : State :=
  let k := s.core core
  match k.stores.find? (fun a => a.id == id) with
  | none => s
  | some a =>
    if !s.performable core k.stores a then s
    else
      let asid := k.asid
      let s := if a.release then s.releaseCaches core a.scope else s
      let s := s.mapCore core (fun k => { k with
        stores := k.stores.filter (fun b => b.id != id)
        posted := k.posted.map (fun e => if e.id = id then { e with sent := true } else e) })
      let s := s.offerWrite core id
      match a.kind with
      | .store data =>
        if a.space = .spad then s.mapCore core (fun k => { k with spad := k.spad.writeBytes a.addr data })
        else s.storeVirtual core asid a.scope a.addr data
      | .vstore writes half =>
        let put (s : State) (addr : Nat) (bs : List Byte) : State :=
          if a.space = .spad then s.mapCore core (fun k => { k with spad := k.spad.writeBytes addr bs })
          else s.storeVirtual core asid a.scope addr bs
        let s := writes.foldl (fun s w => put s w.1 w.2) s
        half.foldl (fun s x =>
          let old := if a.space = .spad then (s.core core).spad.read x.1
            else (s.virtBytes core asid a.scope 0 x.1 1).headD 0
          put s x.1 [(old &&& ~~~x.2.1) ||| (x.2.2 &&& x.2.1)]) s
      | .fence ord => s.fenceCaches core ord a.scope
      | _ => s

/-- LOAD_ANSWER names a core of the part. -/
def onCore (core : Nat) (f : Unit → State) : Result := if core < 512 then .next (f ()) else .fault .noSuchUnit

/-- LOAD_ANSWER (R242). -/
def execLoadAnswer (core id : Nat) (s : State) : Result := onCore core (fun _ => loadAnswer s core id)

/-- STORE_PERFORMED (R264). -/
def execStorePerformed (core id : Nat) (s : State) : Result := onCore core (fun _ => storePerformed s core id)

/-- L1_EVICTION: a line of a core's first-level cache, by its number among those held, is written back under its dirty mask and
dropped (R39, R261). (DESIGN CHOICE, log 76) -/
def execL1Eviction (core line : Nat) (s : State) : Result :=
  onCore core (fun _ =>
    match (s.core core).l1[line]? with
    | none => s
    | some l => (s.writeBack l).mapCore core (fun k => { k with
        l1 := k.l1.filter (fun m => !(m.granule == l.granule && m.way == l.way && m.set == l.set)) }))

end Sys2Proof.Machine
end

