-- ==== Sys2Proof/Machine/Sync.lean ====
section
/-! DEFINITION. Tokens and branch outcomes (R114, R115), Meridian barriers (R116, R117, R256), transaction barriers (R118 to R121),
Leeway (R122, R257), remote work and completion events (R123 to R125). -/

namespace Sys2Proof.Machine
open Sys2Proof

/-! ### Tokens and outcomes -/

/-- TKSIG and TKWAIT name a peer, not the issuer (R114). -/
def tokenWord (h : Header) (o : MemOps) (push : Bool) (s : State) : Result :=
  let peer := seqOfNat (o.off.toNat % 4)
  let n := o.off.toNat / 4 % 16
  if peer = s.cur.seq then .next (s.takeTrap (.bare .illegal))
  else issueWord { Issue.scalar [] [] with
      pushes := if push then [(peer, n)] else []
      pops := if push then [] else [(peer, n)] } h (fun s => .done s s.pc16) s

/-- TKSIG (R114). -/
def execTksig (h : Header) (o : MemOps) (s : State) : Result := tokenWord h o true s
/-- TKWAIT (R114). -/
def execTkwait (h : Header) (o : MemOps) (s : State) : Result := tokenWord h o false s

/-- Room for n more outcomes: 16 (R40). -/
def Core.outcomeRoom (k : Core) (owner n : Nat) : Bool := decide ((Table.get [] k.outcomes owner).length + n ≤ 16)

/-- Push an outcome: behind those pushed before its cycle, and in its cycle behind those of the sequencers that go before its own (R41). -/
def Core.pushOutcome (k : Core) (owner : Nat) (t : BranchOutcome) : Core :=
  let old := Table.get [] k.outcomes owner
  let later := (old.reverse.takeWhile (fun x => x.cycle == t.cycle && decide (t.seq.num < x.seq.num))).reverse
  { k with outcomes := Table.set [] k.outcomes owner (old.take (old.length - later.length) ++ t :: later) }

/-- The vector unit carries out a compare of X-seq in this cycle that pushes an outcome onto a queue (R137). -/
def Core.comparePushes (k : Core) (now owner : Nat) : Bool :=
  (Table.get none k.stopped 5).isNone && decide (Table.get 0 k.portFree 5 ≤ now) &&
  (match (k.fifo 5).find? (fun c => c.result.isNone) with
   | some c => (match c.instr with
     | .vcmp _ o => o.imm.getLsbD 4 && c.slot == 0 && o.imm.toNat / 64 % 4 == owner
     | _ => false)
   | none => false)

/-- BOQPUSH (R115): made once, for slot 0 (R233). A place of this cycle that X-seq's compare takes goes to it before S-seq's push (R41,
R244). -/
def execBoqpush (h : Header) (o : MemOps) (s : State) : Result :=
  issueWord (Issue.scalar [o.ag, o.bg] []) h (fun s =>
    let target := o.off.toNat % 4
    if s.cur.slot ≠ 0 then .done s s.pc16
    else if s.me.outcomeRoom target (if s.cur.seq = .s ∧ s.me.comparePushes s.cycle target then 2 else 1) &&
        !s.me.older s.cur.seq (8 + target) s.cycle then
      .done (s.mapMe (fun k => k.pushOutcome target ⟨s.cycle + 1, condHolds (o.off.toNat / 16) (s.g o.ag) (s.g o.bg),
        k.openAccesses s.cur.seq ++ k.postedBefore s.cur.seq, s.cycle, s.cur.seq⟩)) s.pc16
    else .wait s (some (8 + target))) s

/-! ### Meridian barriers (R116, R117, R255, R256) -/

def State.group (s : State) (n : Nat) : Group := Table.get Group.reset s.groups n
def State.setGroup (s : State) (n : Nat) (g : Group) : State := { s with groups := Table.set Group.reset s.groups n g }

/-- A core is fenced (R374). -/
def State.coreFenced (s : State) (core : Nat) : Bool :=
  s.faults.fcore.getLsbD core || s.faults.fclu.getLsbD (clusterOf core)

/-- Fenced cores of a die: their memberships count as arrived (R374). -/
def State.fencedMask (s : State) (die : Nat) : BitVec 128 :=
  BitVec.ofNat 128 (((List.range 128).filter (fun i => s.coreFenced (128 * die + i))).map (fun i => 2 ^ i)).sum

/-- When every member has arrived, GEN rises, the arrivals empty and a held membership takes its place (R116). -/
def Group.settle (g : Group) (fenced : BitVec 128) : Group :=
  if g.arrived ≠ 0 ∧ g.mask &&& ~~~(g.arrived ||| g.ended ||| fenced) = 0 then
    match g.held with
    | some m => { mask := m, gen := g.gen + 1, arrived := 0, ended := 0, held := none }
    | none => { g with gen := g.gen + 1, arrived := 0 }
  else g

/-- Cores of a die in the same partition as a core, or in its cluster, by the bit of the group's mask. -/
def State.levelMask (s : State) (core level : Nat) : BitVec 128 :=
  BitVec.ofNat 128 ((((List.range 128).filter (fun i =>
    let c := dieOf core * 128 + i
    match level with
    | 0 => c == core
    | 1 => clusterOf c == clusterOf core
    | _ => s.inDecode (clusterOf c) == s.inDecode (clusterOf core))).map (fun i => 2 ^ i)).sum)

/-- LEVEL and LEAD of DOMAIN as a word of a cycle finds them (R45, R46). -/
def Core.level (k : Core) (now : Nat) : Nat := (k.domainAt now).toNat % 8
def Core.lead (k : Core) (now : Nat) : Nat := (k.domainAt now).toNat / 16

def levelScope : Nat → Scope
  | 0 => .core
  | 1 => .cluster
  | _ => .die

/-- The cause that BARV and BWAIT take at LEVEL 3, or for a group whose membership breaks the table (R117). -/
def State.groupFault (s : State) (g : Group) : Option Cause :=
  let c := s.cur.core
  let level := s.me.level s.cycle
  if level = 3 then some .illegal
  else if !g.mask.getLsbD (c % 128) || decide (g.mask &&& ~~~(s.levelMask c level) ≠ 0) ||
      (decide (level = 0) && decide (g.mask ≠ s.levelMask c 0)) then some .barrier
  else none

/-- A member of the group whose core holds a tile of the same launch has another LEVEL (R255). (DEDUCED, log 90) -/
def State.levelDiffers (s : State) (g : Group) : Bool :=
  let c := s.cur.core
  (List.range 128).any (fun i =>
    let m := 128 * dieOf c + i
    g.mask.getLsbD i && m != c && (s.core m).launchOf == s.me.launchOf && s.me.launchOf.isSome &&
      (s.core m).level (s.cycleOf m) != s.me.level s.cycle)

/-- BARV (R117, R255). -/
def execBarv (h : Header) (o : MemOps) (s : State) : Result :=
  issueWord { Issue.scalar [] [o.dg] with who := [.c], noSpec := true } h (fun s =>
    let c := s.cur.core
    let n := 32 * dieOf c + o.off.toNat
    let g := s.group n
    match s.groupFault g with
    | some cause => .trap (.bare cause)
    | none =>
      if s.levelDiffers g then .trap (.bare .barrier)
      else if g.arrived.getLsbD (c % 128) || s.cBusy then .wait s none
      else
        let t := s.releaseCaches c (levelScope (s.me.level s.cycle))
        .done ((t.setG o.dg (BitVec.ofNat 64 g.gen.toNat)).setGroup n
          ({ g with arrived := setBit g.arrived (c % 128) true }.settle (s.fencedMask (dieOf c)))) s.pc16) s

/-- BWAIT waits until (GEN - G(AG)) mod 2^32 lies in 1 to 2^31 - 1 (R117). -/
def execBwait (h : Header) (o : MemOps) (s : State) : Result :=
  issueWord { Issue.scalar [o.ag] [] with who := [.c], noSpec := true } h (fun s =>
    let g := s.group (32 * dieOf s.cur.core + o.off.toNat)
    match s.groupFault g with
    | some cause => .trap (.bare cause)
    | none =>
      let d := (g.gen - BitVec.ofNat 32 (s.g o.ag).toNat).toNat
      if 1 ≤ d ∧ d < 2 ^ 31 then .done (s.acquireCaches s.cur.core (levelScope (s.me.level s.cycle))) s.pc16
      else .wait s none) s

/-! ### Transaction barriers (R118 to R121) -/

/-- The fields of a transaction barrier (R118). -/
structure TxBarrier where
  exp : Nat
  cnt : Nat
  ph : Nat
  bal : Int
deriving DecidableEq, Repr

def TxBarrier.ofNat' (x : Nat) : TxBarrier := ⟨x / 2 ^ 53 % 2048, x / 2 ^ 42 % 2048, x / 2 ^ 41 % 2, sext 41 x⟩
def TxBarrier.toNat' (b : TxBarrier) : Nat := b.exp * 2 ^ 53 + b.cnt * 2 ^ 42 + b.ph * 2 ^ 41 + wrapInt 41 b.bal

/-- The close check (R118). -/
def TxBarrier.close (b : TxBarrier) : TxBarrier :=
  if b.cnt = b.exp ∧ b.bal = 0 then { b with ph := 1 - b.ph, cnt := 0, bal := 0 } else b

def Core.barrier (k : Core) (off : Nat) : TxBarrier := .ofNat' (bytesNat (k.spad.readBytes off 8))
def Core.setBarrier (k : Core) (off : Nat) (b : TxBarrier) : Core :=
  { k with spad := k.spad.writeBytes off (natBytes 8 b.toNat') }

/-- An arrival carrying b bytes, or none where it breaks a rule (R120). -/
def TxBarrier.arrive (o : TxBarrier) (b : Nat) : Option TxBarrier :=
  if o.exp = 0 ∨ o.exp ≤ o.cnt ∨ (2 ^ 40 : Int) - 1 < o.bal + b then none
  else some ({ o with bal := o.bal + b, cnt := o.cnt + 1 }).close

/-- A credit of b bytes (R191). -/
def TxBarrier.credit (o : TxBarrier) (b : Nat) : Option TxBarrier :=
  if o.exp = 0 ∨ o.exp < o.cnt ∨ o.bal - b < -(2 ^ 40 : Int) then none
  else some ({ o with bal := o.bal - b }).close

/-- Alignment and range of an object on a core (R119). -/
def Core.barrierFault (k : Core) (ea : Nat) : Option FaultInfo :=
  if ea % 8 ≠ 0 then some (.spad .alignment ea 3)
  else if !k.inSpad ea 8 then some (.spad .scratchRange ea 3) else none

/-- TBINIT (R119). -/
def execTbinit (h : Header) (o : MemOps) (s : State) : Result :=
  issueWord { Issue.scalar [o.ag, o.bg] [] with who := [.c], noSpec := true } h (fun s =>
    let ea := (s.ea o.ag o.off).toNat
    let n := (s.g o.bg).toNat
    match s.me.barrierFault ea with
    | some i => .trap i
    | none =>
      if n = 0 ∨ 2047 < n then .trap (.bare .illegalOperand)
      else if s.cBusy || s.me.held s.cycle .spad ea 8 true then .wait s none
      else .done (s.mapMe (fun k => k.setBarrier ea ⟨n, 0, 0, 0⟩)) s.pc16) s

/-- TBARV (R120): a release at cluster scope; it acts on what C-seq's earlier stores have left (R109, R118). -/
def execTbarv (h : Header) (o : MemOps) (s : State) : Result :=
  issueWord { Issue.scalar [o.ag, o.bg, o.cg] [o.dg] with who := [.c], noSpec := true } h (fun s =>
    let target := (s.g o.bg).toNat
    let ea := (s.ea o.ag o.off).toNat
    if 512 ≤ target ∨ clusterOf target ≠ clusterOf s.cur.core then .trap (.bare .illegalOperand)
    else if s.coreFenced target then .trap ⟨.fencedTarget, { FaultAt.none with info := 7 * 2 ^ 27 + target }⟩
    else match (s.core target).barrierFault ea with
      | some i => .trap i
      | none =>
        if s.cBusy then .wait s none
        else
          let old := (s.core target).barrier ea
          match old.arrive (s.g o.cg).toNat with
          | none => .trap (.bare .barrier)
          | some b =>
            let t := (s.releaseCaches s.cur.core .cluster).mapCore target (fun k => k.setBarrier ea b)
            .done (t.setG o.dg (BitVec.ofNat 64 old.ph)) s.pc16) s

/-- Writes of an engine's completed commands to other devices and the host that are not yet acknowledged (R352). -/
def Core.doneWrites (k : Core) : List Nat :=
  (k.posted.filter (fun e => match e.command with
    | some id => !(List.range 8).any (fun p => (k.fifo p).any (fun c => c.id == id))
    | none => false)).map (fun e => e.id)

/-- TBWAIT waits until PH differs from G(BG)[0]; an acquire at cluster scope (R121). -/
def execTbwait (h : Header) (o : MemOps) (s : State) : Result :=
  issueWord { Issue.scalar [o.ag, o.bg] [] with who := [.c], noSpec := true } h (fun s =>
    let ea := (s.ea o.ag o.off).toNat
    match s.me.barrierFault ea with
    | some i => .trap i
    | none =>
      if !s.cBusy && (s.me.barrier ea).ph != (s.g o.bg).toNat % 2 then
        .done ((s.acquireCaches s.cur.core .cluster).mapMe (fun k => k.inherit .c k.doneWrites)) s.pc16
      else .wait s none) s

/-! ### Leeway (R122, R257) -/

/-- Cores of a cluster that hold a tile of a launch. -/
def State.holders (s : State) (cluster : Nat) (launch : Option (Nat × Nat)) : List Nat :=
  ((List.range 16).map (fun i => 16 * cluster + i)).filter
    (fun c => launch.isSome && (s.core c).launchOf == launch)

/-- The least phase count among them (R122). -/
def State.clusterCount (s : State) (cluster : Nat) (launch : Option (Nat × Nat)) : Option Nat :=
  ((s.holders cluster launch).map (fun c => (s.core c).phase.toNat)).min?

/-- The next participating clusters up and down, cyclically, within the domain of the level (R122). -/
def State.neighbours (s : State) (core level : Nat) (launch : Option (Nat × Nat)) : List Nat :=
  let me := clusterOf core
  let domain := (List.range 32).filter (fun c =>
    match level with
    | 2 => c / 8 == me / 8 && s.inDecode c == s.inDecode me
    | 3 => true
    | _ => false)
  let others (up : Bool) : List Nat := (List.range 31).map (fun i => (if up then me + i + 1 else me + 31 - i) % 32)
  let find (up : Bool) : List Nat :=
    ((others up).find? (fun c => domain.contains c && !(s.holders c launch).isEmpty)).toList
  find true ++ find false

/-- The count of a cluster for a launch as another cluster sees it (R122, R257); none seen yet is 0. -/
def State.seenCount (s : State) (reader cluster : Nat) (launch : Option (Nat × Nat)) : Nat :=
  match (Table.get [] s.leeway (32 * reader + cluster)).find? (fun x => some x.1 == launch) with
  | some x => x.2
  | none => 0

/-- LEEWAY may go on at phase p: p - m ≤ LEAD for the counts that the cluster sees (R122, R257). -/
def State.leewayOpen (s : State) (core p : Nat) : Bool :=
  let k := s.core core
  let now := s.cycleOf core
  (s.neighbours core (k.level now) k.launchOf).all (fun c =>
    decide (p ≤ s.seenCount (clusterOf core) c k.launchOf + k.lead now))

/-- LEEWAY (R122): the count rises when the word first acts; then it waits. -/
def execLeeway (h : Header) (o : MemOps) (s : State) : Result :=
  issueWord { Issue.scalar [] [o.dg] with who := [.c], noSpec := true } h (fun s =>
    let k := s.me
    let p := if k.leewayWait then k.phase else k.phase + 1
    let t := (s.mapMe (fun k => { k with phase := p, leewayWait := false })).noteCount (clusterOf s.cur.core)
    if s.leewayOpen s.cur.core p.toNat then .done (t.setG o.dg p) s.pc16
    else if h.m = 1 then .wait s none
    else .wait ((s.mapMe (fun k => { k with phase := p, leewayWait := true })).noteCount (clusterOf s.cur.core)) none) s

/-- The launches that a cluster's cores hold tiles of, with their counts (R122). -/
def State.clusterCounts (s : State) (cluster : Nat) : List ((Nat × Nat) × Nat) :=
  (((List.range 16).filterMap (fun i => (s.core (16 * cluster + i)).launchOf)).eraseDups).filterMap
    (fun l => (s.clusterCount cluster (some l)).map (fun n => (l, n)))

/-- LEEWAY_COUNT_UPDATE: a cluster's present counts reach its neighbours (R257). -/
def execLeewayCountUpdate (cluster : Nat) (s : State) : Result :=
  if 32 ≤ cluster then .fault .noSuchUnit
  else
    let seen := (List.range 32).foldl (fun t reader => Table.set [] t (32 * reader + cluster) (s.clusterCounts cluster)) s.leeway
    .next { s with leeway := seen, leewayDue := Table.set 0 s.leewayDue cluster 0 }

/-! ### Remote work (R123, R317) -/

/-- Another core's C-seq has waited longer for a place in a core's remote command inbox (R244). (DEDUCED, log 86) -/
def State.olderRemq (s : State) (target : Nat) : Bool :=
  let at_ (core cycle : Nat) : Nat := 8 * cycle / s.kOf core
  let mine := at_ s.cur.core ((s.me.seqC.waitSince).getD s.cycle)
  s.cores.any (fun x => x.1 != s.cur.core && x.2.seqC.waitOn == some (64 + target) && x.2.launchOf == s.me.launchOf &&
    (match x.2.seqC.waitSince with
     | some t => decide (at_ x.1 t < mine) || (decide (at_ x.1 t = mine) && decide (x.1 < s.cur.core))
     | none => false))

/-- REMQ: its header is read as C-seq's earlier stores have left it (R109). -/
def execRemq (h : Header) (o : MemOps) (s : State) : Result :=
  issueWord { Issue.scalar [o.ag, o.bg] [] with who := [.c], noSpec := true } h (fun s =>
    let target := (s.g o.bg).toNat
    let ea := (s.ea o.ag o.off).toNat
    let k := s.me
    if 511 < target then .trap (.bare .illegalOperand)
    else if ea % 64 ≠ 0 then .trap (.spad .alignment ea 3)
    else if !k.inSpad ea 64 then .trap (.spad .scratchRange ea 3)
    else if s.cBusy then .wait s none
    else
      let len := 64 + 16 * bytesNat (k.spad.readBytes ea 2)
      if !k.inSpad ea len then .trap (.spad .scratchRange ea 3)
      else if s.coreFenced target then .trap ⟨.fencedTarget, { FaultAt.none with info := 7 * 2 ^ 27 + target }⟩
      else if decide (16 ≤ (s.core target).inbox.length) || (s.core target).launchOf != k.launchOf || s.olderRemq target then
        .wait s (some (64 + target))
      else if 64 ≤ k.liveRanges.length then .wait s none
      else
        let t := s.releaseCaches s.cur.core (narrowest s.cur.core target)
        let t := t.mapMe (fun k => k.addRange ⟨.remq target s.nextId, .spad, ea, len, false, s.cycle, none⟩)
        let t := t.mapCore target (fun k => { k with inbox := k.inbox ++ [⟨s.cur.core, ea, s.nextId, [], 0, none⟩] })
        .done { t with nextId := s.nextId + 1 } s.pc16) s

/-! ### Completion (R43, R124, R125) -/

/-- The FIFO port of NOTIFY's engine code for an issuer (R124, R252). -/
def notifyPort (engine : Nat) (q : SeqId) : Nat := if engine < 4 then engine else vectorPort q

/-- NOTIFY enters its engine's FIFO (R124). -/
def execNotify (h : Header) (o : MemOps) (s : State) : Result :=
  let port := notifyPort o.off.toNat s.cur.seq
  issueWord { Issue.scalar [] [] with engine := some port, cmd := some (.notify h o), noSpec := true } h
    (fun s => s.enter port (s.command (.notify h o) h [] none) 16) s

/-- WAITEV takes the oldest raised event; an acquire at device scope (R125, R279). -/
def execWaitev (h : Header) (o : MemOps) (s : State) : Result :=
  issueWord { Issue.scalar [] [o.dg] with who := [.c], noSpec := true } h (fun s =>
    match s.me.events with
    | [] => .wait s none
    | t :: rest =>
      let u := (s.mapMe (fun k => { k with events := rest }.inherit .c k.doneWrites)).acquireCaches s.cur.core .device
      .done ((u.setG o.dg (BitVec.ofNat 64 t)).combine s.cur.core) s.pc16) s

/-- NOTIFY_RETIRE: the NOTIFY at a FIFO's head retires once every earlier command has retired, and for the port FIFO once no
block published before it remains (R124, R194, R252); its FIFO's reached bit is set and the combiner acts (R43). In the matrix FIFO it ends a
run of MMAs (R163). -/
def execNotifyRetire (core port : Nat) (s : State) : Result :=
  if 512 ≤ core ∨ 8 ≤ port then .fault .noSuchUnit
  else
    let k := s.core core
    match k.headCommand port with
    | none => .next s
    | some c =>
      match c.instr with
      | .notify _ _ =>
        let earlier := if port < 4 then false
          else [4, 5, 6, 7].any (fun p => (k.fifo p).any (fun d => decide (d.id < c.id)))
        let pinned := port == 1 && k.blocks.any (fun b => b.2.pinned && decide (b.2.command < c.id))
        if earlier || pinned || c.failed.isSome then .next s
        else
          let s := s.mapCore core (fun k =>
            ({ k with mmaRun := if port = 3 then none else k.mmaRun }.setFifo port ((k.fifo port).drop 1)).reach (engineOfPort port))
          .next ((s.commandTokens core c).combine core)
      | _ => .next s

end Sys2Proof.Machine
end

