-- ==== Sys2Proof/Machine/Vector.lean ====
section
/-! DEFINITION. Vector words that read and write registers (R131 to R145, R148 to R153): entering the issuer's sub-queue (R252) and
what the vector unit does when it performs them. The performing is shared with the record forms (R154). -/

namespace Sys2Proof.Machine
open Sys2Proof

/-- What a word or an issue reads beside its fields: rotation as accepted (R30), active lanes (R79), G(GA), and CM for VSEL. -/
structure VRun where
  rot : BitVec 1
  rrb : BitVec 9
  mask : Mask
  x : Word
  cm : Mask
  /-- accesses that come before its pushes (R270) -/
  deps : List Nat
  /-- cycle since which the word has waited for a place in a queue (R244) -/
  since : Nat
  /-- operands that all slots of an iteration share, as read for it: 1024 operand + register (R92) -/
  shared : List (Nat × VReg)
deriving DecidableEq, Repr

/-- Register n as operand m reads it: 0 for A, 1 for B, 2 for C. -/
def VRun.reg (r : VRun) (m : Nat) (s : State) (n : Nat) : VReg :=
  match r.shared.find? (fun x => x.1 == 1024 * m + rename r.rot r.rrb n) with
  | some x => x.2
  | none => s.v (rename r.rot r.rrb n)

/-- Write lanes of a register from a source state: lane i under mask bit `idx i`; their flags are raised. -/
def VRun.write (r : VRun) (n w : Nat) (idx : Nat → Nat) (f : Nat → Lane) (s : State) : State :=
  let p := rename r.rot r.rrb n
  let g (i : Nat) : Option Lane := if r.mask.getLsbD (idx i) then some (f i) else none
  (s.setV p (buildV w (s.v p) (fun i => (g i).map (fun x => x.1))) (laneBytes w (fun i => r.mask.getLsbD (idx i)))).raiseFlags
    (laneFlags g (4096 / w))

/-- Write every active lane of VD. -/
def VRun.lanes (r : VRun) (n w : Nat) (f : Nat → Lane) (s : State) : State := r.write n w id f s

/-- Replace a whole register. -/
def VRun.whole (r : VRun) (n w : Nat) (f : Nat → Nat) (s : State) : State :=
  s.setV (rename r.rot r.rrb n) (buildV w 0 (fun i => some (f i))) (BitVec.allOnes 512)

/-- Whether lane i is active (R79). -/
def VRun.active (r : VRun) (i : Nat) : Bool := r.mask.getLsbD i

/-- SB of R133. -/
def vecSb (o : VecOps) : Bool := o.imm.getLsbD 15

/-! ### Registers read and written, cycles and latency (R133, R134) -/

def groupFrom (v : BitVec 10) (n : Nat) : List Nat := (List.range n).map (fun i => v.toNat + i)

/-- Registers of the wide and the narrow operand of a conversion (R139). -/
def vecConvertUses (o : VecOps) : List Nat × List Nat :=
  let n := (widthRatio (typeWidth o.et) (typeWidth o.et2)).getD 1
  if typeWidth o.et2 < typeWidth o.et then ([o.va.toNat], groupFrom o.vd n)
  else if typeWidth o.et < typeWidth o.et2 then (groupFrom o.va n, [o.vd.toNat]) else ([o.va.toNat], [o.vd.toNat])

/-- Registers that a vector word reads and writes, by MAJ and FN, before renaming. -/
def vecUses (o : VecOps) (maj fn : Nat) : List Nat × List Nat :=
  let a := o.va.toNat
  let b := o.vb.toNat
  let c := o.vc.toNat
  let d := [o.vd.toNat]
  let bs := if vecSb o then [] else [b]
  let index := groupFrom o.vb (32 / typeWidth o.et)
  match maj, fn with
  | 0x40, 3 | 0x40, 4 => ([a, c] ++ bs, d)
  | 0x40, 7 | 0x40, 8 => ([a], d)
  | 0x40, _ => (a :: bs, d)
  | 0x41, 3 => ([a], d)
  | 0x41, _ => (a :: bs, d)
  | 0x42, 0 => (a :: bs, [])
  | 0x42, _ => ([a, b], d)
  | 0x43, 3 => ([a], d)
  | 0x43, 4 => ([a, b, c], d)
  | 0x43, _ => vecConvertUses o
  | 0x44, 0 => ([a, b, c], d)
  | 0x44, _ => ([a], d)
  | 0x45, 2 => (if o.imm.getLsbD 0 then [a] else [], d)
  | 0x45, 4 => ([], d)
  | 0x45, 5 | 0x45, 6 => ([a], d)
  | 0x45, _ => ([a, b], d)
  | 0x48, 0 | 0x48, 2 => ([], d)
  | 0x48, 1 | 0x48, 3 => ([a], [])
  | 0x48, 4 => (index, d)
  | 0x48, _ => (a :: index, [])
  | 0x49, 0 => ([], d)
  | 0x49, _ => ([a], [])
  | 0x4A, _ => ([a], d)
  | 0x4B, _ => (groupFrom o.va 3 ++ groupFrom o.vb 3, groupFrom o.vd 3)
  | 0x4C, 0 => ([a], [])
  | 0x4C, 1 => ([], d)
  | 0x4C, _ => ([], [])
  | 0x4E, 0 => ([a], d)
  | _, _ => ([], d)

/-- Cycles per issue and latency of R134; the entries that VDRAIN touches are added by the caller. -/
def vecTiming (o : VecOps) (maj fn : Nat) : Nat × Nat :=
  match maj, fn with
  | 0x40, f => if isI o.et then (1, 2) else if f = 3 ∨ f = 4 then (1, 5) else (1, 4)
  | 0x43, 3 | 0x43, 4 => (1, 4)
  | 0x43, _ => ((widthRatio (typeWidth o.et) (typeWidth o.et2)).getD 1, 5)
  | 0x44, 0 => (1, 6)
  | 0x44, 1 => (1, 10)
  | 0x44, _ => (1, 12)
  | 0x45, 2 | 0x45, 4 => (1, 2)
  | 0x45, _ => (1, 6)
  | 0x48, 0 | 0x48, 1 => (1, 1)
  | 0x48, 2 | 0x48, 3 => (1, 6)
  | 0x48, 4 | 0x48, 5 => (Nat.max 1 (lanes o.et / 64), 1)
  | 0x4A, _ => (2, 14)
  | 0x4B, _ => (3, 16)
  | 0x4C, 1 => (1, 4)
  | _, _ => (1, 2)

/-! ### What the register words do -/

/-- MAJ 0x40 (R135). With RMO = 0 the mode is FRM as it stands when the vector unit performs the word. (DEDUCED, log 95) -/
def vArith (fn : Nat) (r : VRun) (o : VecOps) (s : State) : State :=
  let w := typeWidth o.et
  let a := r.reg 0 s o.va.toNat
  let b := r.reg 1 s o.vb.toNat
  let c := r.reg 2 s o.vc.toNat
  r.lanes o.vd.toNat w (fun i => arithLane fn o.et (o.sat == 1) (s.mode o.rmo) (elem a i w)
    (if vecSb o then r.x.toNat % 2 ^ w else elem b i w) (elem c i w)) s

/-- MAJ 0x41 (R136): the scalar amount of a shift is the whole of G(GA). -/
def vLogic (fn : Nat) (r : VRun) (o : VecOps) (s : State) : State :=
  let w := typeWidth o.et
  let a := r.reg 0 s o.va.toNat
  let b := r.reg 1 s o.vb.toNat
  r.lanes o.vd.toNat w (fun i =>
    (logicLane fn w (elem a i w) (if vecSb o then r.x.toNat % 2 ^ w else elem b i w)
      (if vecSb o then r.x.toNat else elem b i w), 0)) s

/-- VCMP's lane results and flags (R137). -/
def vCompare (r : VRun) (o : VecOps) (s : State) (i : Nat) : Bool × BitVec 5 :=
  let w := typeWidth o.et
  let a := elem (r.reg 0 s o.va.toNat) i w
  let b := if vecSb o then r.x.toNat % 2 ^ w else elem (r.reg 1 s o.vb.toNat) i w
  let c := o.imm.toNat % 16
  if isI o.et then (compareInt c o.et a b, 0) else compareFloat c (fmtOf o.et) a b

/-- VSEL (R138). -/
def vSelect (r : VRun) (o : VecOps) (s : State) : State :=
  let w := typeWidth o.et
  let a := r.reg 0 s o.va.toNat
  let b := r.reg 1 s o.vb.toNat
  r.lanes o.vd.toNat w (fun i => (if r.cm.getLsbD i then elem a i w else elem b i w, 0)) s

/-- A conversion between widths over R139's interleaved groups. -/
def vConvertBy (f : Nat → Lane) (r : VRun) (o : VecOps) (s : State) : State :=
  let wd := typeWidth o.et
  let ws := typeWidth o.et2
  let n := (widthRatio wd ws).getD 1
  if ws < wd then
    let a := r.reg 0 s o.va.toNat
    (List.range n).foldl (fun t k =>
      r.write (o.vd.toNat + k) wd (fun p => p * n + k) (fun p => f (elem a (p * n + k) ws)) t) s
  else if wd < ws then
    let regs := (List.range n).map (fun k => r.reg 0 s (o.va.toNat + k))
    r.lanes o.vd.toNat wd (fun i => f (elem (regs.getD (i % n) 0) (i / n) ws)) s
  else
    let a := r.reg 0 s o.va.toNat
    r.lanes o.vd.toNat wd (fun i => f (elem a i ws)) s

/-- VCVT and VWIDEN (R140). -/
def vConvert (r : VRun) (o : VecOps) (s : State) : State :=
  vConvertBy (convertLane o.et o.et2 (o.sgn == 1) (r.x.toNat % 256) (o.sat == 1) (s.mode o.rmo)) r o s

/-- VNARROW (R141). -/
def vNarrow (r : VRun) (o : VecOps) (s : State) : State :=
  vConvertBy (fun x => (narrowLane o.et o.et2 (o.sat == 1) x, 0)) r o s

/-- VSAT (R141): lanes of ET2's width. -/
def vSaturate (r : VRun) (o : VecOps) (s : State) : State :=
  let w := typeWidth o.et2
  let a := r.reg 0 s o.va.toNat
  r.lanes o.vd.toNat w (fun i => (satLane o.et o.et2 (elem a i w), 0)) s

/-- VCLAMP (R141). -/
def vClamp (r : VRun) (o : VecOps) (s : State) : State :=
  let w := typeWidth o.et
  let a := r.reg 0 s o.va.toNat
  let b := r.reg 1 s o.vb.toNat
  let c := r.reg 2 s o.vc.toNat
  r.lanes o.vd.toNat w (fun i => clampLane o.et (elem a i w) (elem b i w) (elem c i w)) s

/-- VDOT4 (R142). -/
def vDot (r : VRun) (o : VecOps) (s : State) : State :=
  let a := r.reg 0 s o.va.toNat
  let b := r.reg 1 s o.vb.toNat
  let c := r.reg 2 s o.vc.toNat
  r.lanes o.vd.toNat 32 (fun i => dotLane o.et2 (o.sgn == 1) (o.sat == 1) (s.mode o.rmo) (elem c i 32)
    ((List.range 4).map (fun j => (elem a (4 * i + j) 8, elem b (4 * i + j) 8)))) s

/-- The active lanes' elements of VA, absent where inactive. -/
def VRun.present (r : VRun) (x : VReg) (w : Nat) : List (Option Nat) :=
  (List.range (4096 / w)).map (fun i => if r.active i then some (elem x i w) else none)

/-- VRED (R143). -/
def vReduce (r : VRun) (o : VecOps) (s : State) : State :=
  let w := typeWidth o.et
  let x := reduce (o.imm.toNat % 4) o.et (o.sat == 1) (s.mode o.rmo) (r.present (r.reg 0 s o.va.toNat) w)
  (r.whole o.vd.toNat w (fun i => if i = 0 then x.1 else 0) s).raiseFlags x.2

/-- VSCAN (R143). -/
def vScan (r : VRun) (o : VecOps) (s : State) : State :=
  let w := typeWidth o.et
  let x := scanLanes (o.imm.toNat % 4) o.et (o.sat == 1) (s.mode o.rmo) (r.present (r.reg 0 s o.va.toNat) w)
  let p := rename r.rot r.rrb o.vd.toNat
  (s.setV p (buildV w (s.v p) (fun i => x.1.getD i none)) (laneBytes w r.active)).raiseFlags x.2

/-- VSHUF's source of element i (R144): register A or B, and the lane. -/
def shuffle (pat l i : Nat) : Bool × Nat :=
  match pat with
  | 0 => (i % 2 == 1, i / 2)
  | 1 => (i % 2 == 1, l / 2 + i / 2)
  | 2 => if i < l / 2 then (false, 2 * i) else (true, 2 * (i - l / 2))
  | _ => if i < l / 2 then (false, 2 * i + 1) else (true, 2 * (i - l / 2) + 1)

/-- Numbers of the active lanes, ascending. -/
def VRun.activeLanes (r : VRun) (w : Nat) : List Nat := (List.range (4096 / w)).filter (fun i => r.active i)

/-- MAJ 0x45 (R144, R145). -/
def vPermute (fn : Nat) (r : VRun) (o : VecOps) (s : State) : State :=
  let w := typeWidth o.et
  let l := 4096 / w
  let a := r.reg 0 s o.va.toNat
  let b := r.reg 1 s o.vb.toNat
  match fn with
  | 0 => r.lanes o.vd.toNat w (fun i => let k := elem b i w; (if k < l then elem a k w else 0, 0)) s
  | 1 => r.lanes o.vd.toNat w (fun i =>
      let p := shuffle (o.imm.toNat % 4) l i
      (elem (if p.1 then b else a) p.2 w, 0)) s
  | 2 => r.lanes o.vd.toNat w (fun _ =>
      (if o.imm.getLsbD 0 then elem a (o.imm.toNat / 65536 % 1024) w else r.x.toNat % 2 ^ w, 0)) s
  | 3 => r.lanes o.vd.toNat w (fun i =>
      let k := i + o.imm.toNat % 2048
      (if k < l then elem a k w else elem b (k - l) w, 0)) s
  | 4 => r.lanes o.vd.toNat w (fun i => (wrapInt w (sext 32 o.imm.toNat + i), 0)) s
  | 5 =>
    let xs := (r.activeLanes w).map (fun i => elem a i w)
    r.whole o.vd.toNat w (fun i => xs.getD i 0) s
  | _ =>
    let p := rename r.rot r.rrb o.vd.toNat
    let lanes := r.activeLanes w
    s.setV p (buildV w (s.v p) (fun i => if r.active i then some (elem a (lanes.findIdx (fun j => j == i)) w) else none)) (laneBytes w r.active)

/-- MAJ 0x4A (R149). -/
def vSpecial (fn : Nat) (r : VRun) (o : VecOps) (s : State) : State :=
  let w := typeWidth o.et
  let a := r.reg 0 s o.va.toNat
  r.lanes o.vd.toNat w (fun i => specialFn fn (fmtOf o.et) (s.mode o.rmo) (elem a i w)) s

/-- VMERGE3 (R150). -/
def vMerge (r : VRun) (o : VecOps) (s : State) : State :=
  let tri (m : Nat) (v : BitVec 10) (i : Nat) : Nat × Nat × Nat :=
    (elem (r.reg m s v.toNat) i 32, elem (r.reg m s (v.toNat + 1)) i 32, elem (r.reg m s (v.toNat + 2)) i 32)
  let m (i : Nat) := mergeLane (tri 0 o.va i) (tri 1 o.vb i)
  let s1 := r.lanes o.vd.toNat 32 (fun i => ((m i).1.1, (m i).2)) s
  let s2 := r.lanes (o.vd.toNat + 1) 32 (fun i => ((m i).1.2.1, 0)) s1
  r.lanes (o.vd.toNat + 2) 32 (fun i => ((m i).1.2.2, 0)) s2

/-- VMOV and VZERO (R153). -/
def vMove (fn : Nat) (r : VRun) (o : VecOps) (s : State) : State :=
  let w := typeWidth o.et
  let a := r.reg 0 s o.va.toNat
  r.lanes o.vd.toNat w (fun i => (if fn = 0 then elem a i w else 0, 0)) s

/-- The register words by MAJ and FN, record forms included (R154). -/
def vectorEffect (maj fn : Nat) (r : VRun) (o : VecOps) (s : State) : State :=
  match maj, fn with
  | 0x40, f => vArith f r o s
  | 0x41, f => vLogic f r o s
  | 0x42, _ => vSelect r o s
  | 0x43, 2 => vNarrow r o s
  | 0x43, 3 => vSaturate r o s
  | 0x43, 4 => vClamp r o s
  | 0x43, _ => vConvert r o s
  | 0x44, 0 => vDot r o s
  | 0x44, 1 => vReduce r o s
  | 0x44, _ => vScan r o s
  | 0x45, f => vPermute f r o s
  | 0x4A, f => vSpecial f r o s
  | 0x4B, _ => vMerge r o s
  | 0x4E, f => vMove f r o s
  | _, _ => s

/-! ### Compares, data queues and the deferral queue -/

/-- VCMP: writes CM, and pushes an outcome for slot 0 (R137, R233, R241); none while its push must wait, for room or for a party that has
waited longer (R244). -/
def vCmp (r : VRun) (o : VecOps) (s : State) : Option State :=
  let n := 4096 / typeWidth o.et
  let target := o.imm.toNat / 64 % 4
  let push := o.imm.getLsbD 4 && s.cur.slot == 0
  if push && (!s.me.outcomeRoom target 1 || s.me.olderThan (8 + target) r.since s.cur.seq.num) then none
  else
    let res := (List.range n).map (fun i => if r.active i then some (vCompare r o s i) else none)
    let old := s.maskReg 1
    let cm := buildMask (fun i => match res.getD i none with
      | some b => b.1
      | none => old.getLsbD i)
    let flags : BitVec 5 := res.foldl (fun (f : BitVec 5) b => match b with
      | some b => f ||| b.2
      | none => f) (0 : BitVec 5)
    let out := if o.imm.getLsbD 5 then res.all (fun b => match b with | some b => b.1 | none => true)
      else res.any (fun b => match b with | some b => b.1 | none => false)
    let t := (s.setMaskReg 1 cm).raiseFlags flags
    some (if push then t.mapMe (fun k => k.pushOutcome target ⟨s.cycle + 2, out, r.deps, s.cycle, s.cur.seq⟩) else t)

/-- VQPOP: the head of L→X for X-seq, of X→S for S-seq (R148); none while it is empty. -/
def vQpop (r : VRun) (o : VecOps) (s : State) : Option State :=
  let q := if s.cur.seq = .x then s.me.dataLX else s.me.dataXS
  match q with
  | [] => none
  | (x, ready, deps) :: rest =>
    if decide (s.cycle < ready) || !s.me.performed deps then none
    else
      let w := typeWidth o.et
      let t := s.mapMe (fun k =>
        (if s.cur.seq = SeqId.x then { k with dataLX := rest } else { k with dataXS := rest }).inherit s.cur.seq deps)
      some (r.lanes o.vd.toNat w (fun i => (elem x i w, 0)) t)

/-- VQPUSH: onto L→X for L-seq, onto X→S for X-seq, eight entries each, with latency 2 (R40, R134, R148). -/
def vQpush (r : VRun) (o : VecOps) (s : State) : Option State :=
  let q := if s.cur.seq = .l then s.me.dataLX else s.me.dataXS
  if 8 ≤ q.length then none
  else
    let w := typeWidth o.et
    let a := r.reg 0 s o.va.toNat
    let x := buildV w 0 (fun i => if r.active i then some (elem a i w) else none)
    some (s.mapMe (fun k =>
      if s.cur.seq = .l then { k with dataLX := q ++ [(x, s.cycle + 2, r.deps)] } else { k with dataXS := q ++ [(x, s.cycle + 2, r.deps)] }))

/-- VDEFER (R151): with no active lane it appends nothing, and goes on whether the queue is full or not. (DESIGN CHOICE, log 91) -/
def vDefer (r : VRun) (o : VecOps) (s : State) : Option State :=
  let w := typeWidth o.et
  let set := buildMask (fun i => decide (i < 4096 / w) && r.active i)
  if set = 0 then some s
  else if 64 ≤ s.me.deferral.length then none
  else some (s.mapMe (fun k => { k with deferral := k.deferral ++ [⟨r.reg 0 s o.va.toNat, w, set⟩] }))

/-- Lowest set bit of a mask, from bit i on. -/
def lowestBit (m : Mask) (i : Nat) : Nat → Nat
  | 0 => i
  | n + 1 => if m.getLsbD i then i else lowestBit m (i + 1) n

/-- VDRAIN's loop (R152): values taken and the queue left. -/
def drain (w : Nat) : Nat → List Deferred → List Nat × List Deferred
  | 0, q => ([], q)
  | _ + 1, [] => ([], [])
  | n + 1, d :: rest =>
    if d.width ≠ w then ([], d :: rest)
    else
      let i := lowestBit d.set 0 1024
      let set := setBit d.set i false
      let r := drain w n (if set = 0 then rest else { d with set := set } :: rest)
      (elem d.value i w :: r.1, r.2)

/-- VDRAIN: the state with VD and the queue written, f, and the entries that it touched (R134). -/
def vDrain (r : VRun) (o : VecOps) (s : State) : State × Nat × Nat :=
  let w := typeWidth o.et
  let old := s.me.deferral
  let (xs, q) := drain w (4096 / w) old
  let gone := old.length - q.length
  (r.whole o.vd.toNat w (fun i => xs.getD i 0) (s.mapMe (fun k => { k with deferral := q })), xs.length,
    gone + (if q.head? = old[gone]? then 0 else 1))

/-- VDQCNT's value (R152). -/
def deferralCount (q : List Deferred) : Nat := q.length + 65536 * (q.map (fun d => onesNat d.set.toNat 1024)).sum

/-! ### The words of a vector record's issues (R154) -/

/-- The MAJ of the words that a vector record's issues perform. -/
def vectorMajOf (maj : Nat) : Nat :=
  match maj with
  | 0xF5 => 0x40
  | 0xF6 => 0x41
  | 0xF7 => 0x43
  | 0xF8 => 0x44
  | 0xF9 => 0x48
  | 0xFA => 0x4A
  | _ => 0x4B

/-- The register of an operand, or no register. -/
def Located.regOr (l : Located) : BitVec 10 :=
  match l with
  | .reg n => BitVec.ofNat 10 n
  | _ => 0

/-- The word that an issue of a vector record performs (R154): VC is also VD for VFMA, VFMS and VDOT4. -/
def issueOps (r : RecOps) (maj fn : Nat) (a b c : Located) : VecOps :=
  let three := (maj = 0xF5 ∧ (fn = 3 ∨ fn = 4)) ∨ (maj = 0xF8 ∧ fn = 0)
  { r.vecOps with va := a.regOr, vb := b.regOr, vd := c.regOr, vc := if three then c.regOr else 0 }

/-- The registers that issue n of a vector record writes. -/
def Command.issueWrites (c : Command) (n : Nat) : List Nat :=
  match c.instr.parts with
  | some (maj, fn, h, .record r) =>
    let i := recIter r c.w n
    let o := issueOps r maj fn (recOperand r c.vals i 0) (recOperand r c.vals i 1) (recOperand r c.vals i 2)
    (vecUses o (vectorMajOf maj) fn).2.map (rename h.rot c.rrb)
  | _ => []

/-- The registers that issue n of a vector record reads. -/
def Command.issueReads (c : Command) (n : Nat) : List Nat :=
  match c.instr.parts with
  | some (maj, fn, h, .record r) =>
    let i := recIter r c.w n
    let o := issueOps r maj fn (recOperand r c.vals i 0) (recOperand r c.vals i 1) (recOperand r c.vals i 2)
    (vecUses o (vectorMajOf maj) fn).1.map (rename h.rot c.rrb)
  | _ => []

/-- A register that an issue still to be made by a record reads. -/
def Command.stillReads (c : Command) (p : Nat) : Bool :=
  match recordOf c.instr with
  | some (_, _, _, r) => (List.range (recTotal r c.w - c.iter)).any (fun n => (c.issueReads (c.iter + n)).contains p)
  | none => false

/-- A register that an issue still to be made by a record writes. -/
def Command.stillWrites (c : Command) (p : Nat) : Bool :=
  match recordOf c.instr with
  | some (_, _, _, r) => (List.range (recTotal r c.w - c.iter)).any (fun n => (c.issueWrites (c.iter + n)).contains p)
  | none => false

/-! ### Issue (R131, R242, R252) -/

/-- A register that an unperformed word or issue of the sequencer writes, that its load has still to fill, or that its latency holds
(R134, R242). -/
def Core.vecAwaited (k : Core) (q : SeqId) (now p : Nat) : Bool :=
  decide (now < Table.get 0 k.vready (vreadyKey q p)) ||
  k.loads.any (fun a => a.seq == q && (match a.kind with
    | .vload reg _ _ => reg == p
    | _ => false)) ||
  [3, 4, 5, 6].any (fun port => (k.fifo port).any (fun c => c.seq == q && c.result.isNone &&
    (match c.instr.parts with
     | some (maj, fn, h, .vec o) => ((vecUses o maj fn).2.map (rename h.rot c.rrb)).contains p
     | some (0xA0, 0x0D, h, .eng o) => rename h.rot c.rrb o.va.toNat == p
     | some (_, _, _, .record _) => port != 3 && c.stillWrites p
     | _ => false)))

/-- A register that an unperformed vector word or record of the sequencer has still to read: a load or MVEC after it must not write the
register first (R131). -/
def Core.vecUnread (k : Core) (q : SeqId) (p : Nat) : Bool :=
  [4, 5, 6].any (fun port => (k.fifo port).any (fun c => c.seq == q && c.result.isNone &&
    (match c.instr.parts with
     | some (maj, fn, h, .vec o) => ((vecUses o maj fn).1.map (rename h.rot c.rrb)).contains p
     | some (_, _, _, .record _) => c.stillReads p
     | _ => false)))

/-- A register that an issue of a record must still wait for, on behalf of a slot: a load before it, of its own record too, or an MVEC of
the sequencer has it to write, or a latency holds it (R93, R134, R242). Slot 0 waits for the loads of every slot. -/
def Core.vecEarlier (k : Core) (q : SeqId) (slot now id p : Nat) : Bool :=
  (slot == 0 && decide (now < Table.get 0 k.vready (vreadyKey q p))) ||
  k.loads.any (fun a => a.seq == q && decide (a.id < id) && (slot == 0 || a.slot == slot) && (match a.kind with
    | .vload reg _ _ => reg == p
    | _ => false)) ||
  slot == 0 && (k.fifo 3).any (fun c => c.seq == q && decide (c.id < id) && c.result.isNone &&
    (match c.instr.parts with
     | some (0xA0, 0x0D, h, .eng o) => rename h.rot c.rrb o.va.toNat == p
     | _ => false))

/-- The latency of a VDEFER or VDRAIN holds off a reading of the deferral queue (R134, R152). (DEDUCED, log 108) -/
def Core.deferralFresh (k : Core) (now : Nat) : Bool := decide (now < Table.get 0 k.vready (vreadyKey .x 1025))

/-- A VDEFER or VDRAIN of X-seq is still to be performed, or its latency holds off a reading of the deferral queue (R134, R242): a FIXED
word that reads it misses; an INTERLOCK word waits in the sub-queue. (DEDUCED, log 108) -/
def Core.deferralAwaited (k : Core) (now : Nat) : Bool :=
  k.deferralFresh now || (k.fifo 5).any (fun c => c.result.isNone && (match c.instr with
    | .vdefer _ _ | .vdrain _ _ => true
    | _ => false))

/-- Sequencers that may issue a vector word (R131). -/
def vectorIssuers (maj fn : Nat) : List SeqId :=
  match maj, fn with
  | 0x48, f => if f % 2 = 0 then [.l] else [.s]
  | 0x49, 0 => [.x, .s]
  | 0x49, _ => [.l, .x]
  | _, _ => [.x]

/-- A vector word enters its issuer's sub-queue. -/
def vectorWord (i : Instr) (maj fn : Nat) (h : Header) (o : VecOps) (s : State) : Result :=
  let port := vectorPort s.cur.seq
  let noLanes := maj = 0x4C ∧ fn ≠ 0
  let writesG := maj = 0x4C ∧ fn ≠ 0
  issueWord { Issue.scalar (if writesG then [] else [o.ga]) (if writesG then [o.ga] else []) with
      who := vectorIssuers maj fn, lanes := !decide noLanes, engine := some port, cmd := some i,
      noSpec := maj = 0x49 || (maj = 0x4C && fn ≤ 1) } h (fun s =>
    let k := s.me
    let u := vecUses o maj fn
    if s.cur.slot = 0 ∧ (u.1 ++ u.2).any (fun n => k.vecAwaited s.cur.seq s.cycle (rename h.rot k.rrb n)) then .wait s none
    else if (maj = 0x42 || h.msrc = 2) && k.cmAwaited s.cycle then .wait s none
    else if h.m = 1 ∧ maj = 0x4C ∧ fn ≠ 0 ∧ k.deferralAwaited s.cycle then .wait s none
    else
      let c := { s.command i h [s.g o.ga] (if h.m = 1 then some s.cycle else none) with
        copy := if maj = 0x42 then natBytes 128 (s.maskReg 1).toNat else [] }
      match s.enter port c 16 with
      | .done t next =>
        .done (t.mapMySeq (fun r =>
          if writesG && o.ga != 0 then { r with outstanding := r.outstanding ++ [o.ga.toNat] }
          else if c.popsData then { r with loadAfter := r.loadAfter ++ [c.id], storeAfter := r.storeAfter ++ [c.id] }
          else r)) next
      | e => e) s

/-- VADD (R135). -/
def execVadd (h : Header) (o : VecOps) (s : State) : Result := vectorWord (.vadd h o) 0x40 0 h o s
/-- VSUB (R135). -/
def execVsub (h : Header) (o : VecOps) (s : State) : Result := vectorWord (.vsub h o) 0x40 1 h o s
/-- VMUL (R135). -/
def execVmul (h : Header) (o : VecOps) (s : State) : Result := vectorWord (.vmul h o) 0x40 2 h o s
/-- VFMA (R135). -/
def execVfma (h : Header) (o : VecOps) (s : State) : Result := vectorWord (.vfma h o) 0x40 3 h o s
/-- VFMS (R135). -/
def execVfms (h : Header) (o : VecOps) (s : State) : Result := vectorWord (.vfms h o) 0x40 4 h o s
/-- VMIN (R135). -/
def execVmin (h : Header) (o : VecOps) (s : State) : Result := vectorWord (.vmin h o) 0x40 5 h o s
/-- VMAX (R135). -/
def execVmax (h : Header) (o : VecOps) (s : State) : Result := vectorWord (.vmax h o) 0x40 6 h o s
/-- VABS (R135). -/
def execVabs (h : Header) (o : VecOps) (s : State) : Result := vectorWord (.vabs h o) 0x40 7 h o s
/-- VNEG (R135). -/
def execVneg (h : Header) (o : VecOps) (s : State) : Result := vectorWord (.vneg h o) 0x40 8 h o s
/-- VAND (R136). -/
def execVand (h : Header) (o : VecOps) (s : State) : Result := vectorWord (.vand h o) 0x41 0 h o s
/-- VOR (R136). -/
def execVor (h : Header) (o : VecOps) (s : State) : Result := vectorWord (.vor h o) 0x41 1 h o s
/-- VXOR (R136). -/
def execVxor (h : Header) (o : VecOps) (s : State) : Result := vectorWord (.vxor h o) 0x41 2 h o s
/-- VNOT (R136). -/
def execVnot (h : Header) (o : VecOps) (s : State) : Result := vectorWord (.vnot h o) 0x41 3 h o s
/-- VSHL (R136). -/
def execVshl (h : Header) (o : VecOps) (s : State) : Result := vectorWord (.vshl h o) 0x41 4 h o s
/-- VSHR (R136). -/
def execVshr (h : Header) (o : VecOps) (s : State) : Result := vectorWord (.vshr h o) 0x41 5 h o s
/-- VSRA (R136). -/
def execVsra (h : Header) (o : VecOps) (s : State) : Result := vectorWord (.vsra h o) 0x41 6 h o s
/-- VCMP (R137, R138). -/
def execVcmp (h : Header) (o : VecOps) (s : State) : Result := vectorWord (.vcmp h o) 0x42 0 h o s
/-- VSEL (R137, R138). -/
def execVsel (h : Header) (o : VecOps) (s : State) : Result := vectorWord (.vsel h o) 0x42 1 h o s
/-- VCVT (R140, R141). -/
def execVcvt (h : Header) (o : VecOps) (s : State) : Result := vectorWord (.vcvt h o) 0x43 0 h o s
/-- VWIDEN (R140, R141). -/
def execVwiden (h : Header) (o : VecOps) (s : State) : Result := vectorWord (.vwiden h o) 0x43 1 h o s
/-- VNARROW (R140, R141). -/
def execVnarrow (h : Header) (o : VecOps) (s : State) : Result := vectorWord (.vnarrow h o) 0x43 2 h o s
/-- VSAT (R140, R141). -/
def execVsat (h : Header) (o : VecOps) (s : State) : Result := vectorWord (.vsat h o) 0x43 3 h o s
/-- VCLAMP (R140, R141). -/
def execVclamp (h : Header) (o : VecOps) (s : State) : Result := vectorWord (.vclamp h o) 0x43 4 h o s
/-- VDOT4 (R142, R143). -/
def execVdot4 (h : Header) (o : VecOps) (s : State) : Result := vectorWord (.vdot4 h o) 0x44 0 h o s
/-- VRED (R142, R143). -/
def execVred (h : Header) (o : VecOps) (s : State) : Result := vectorWord (.vred h o) 0x44 1 h o s
/-- VSCAN (R142, R143). -/
def execVscan (h : Header) (o : VecOps) (s : State) : Result := vectorWord (.vscan h o) 0x44 2 h o s
/-- VPERM (R144, R145). -/
def execVperm (h : Header) (o : VecOps) (s : State) : Result := vectorWord (.vperm h o) 0x45 0 h o s
/-- VSHUF (R144, R145). -/
def execVshuf (h : Header) (o : VecOps) (s : State) : Result := vectorWord (.vshuf h o) 0x45 1 h o s
/-- VBCAST (R144, R145). -/
def execVbcast (h : Header) (o : VecOps) (s : State) : Result := vectorWord (.vbcast h o) 0x45 2 h o s
/-- VSLIDE (R144, R145). -/
def execVslide (h : Header) (o : VecOps) (s : State) : Result := vectorWord (.vslide h o) 0x45 3 h o s
/-- VIOTA (R144, R145). -/
def execViota (h : Header) (o : VecOps) (s : State) : Result := vectorWord (.viota h o) 0x45 4 h o s
/-- VCOMP (R144, R145). -/
def execVcomp (h : Header) (o : VecOps) (s : State) : Result := vectorWord (.vcomp h o) 0x45 5 h o s
/-- VEXPD (R144, R145). -/
def execVexpd (h : Header) (o : VecOps) (s : State) : Result := vectorWord (.vexpd h o) 0x45 6 h o s
/-- VQPOP (R148). -/
def execVqpop (h : Header) (o : VecOps) (s : State) : Result := vectorWord (.vqpop h o) 0x49 0 h o s
/-- VQPUSH (R148). -/
def execVqpush (h : Header) (o : VecOps) (s : State) : Result := vectorWord (.vqpush h o) 0x49 1 h o s
/-- VEXP2 (R149). -/
def execVexp2 (h : Header) (o : VecOps) (s : State) : Result := vectorWord (.vexp2 h o) 0x4A 0 h o s
/-- VLOG2 (R149). -/
def execVlog2 (h : Header) (o : VecOps) (s : State) : Result := vectorWord (.vlog2 h o) 0x4A 1 h o s
/-- VRCP (R149). -/
def execVrcp (h : Header) (o : VecOps) (s : State) : Result := vectorWord (.vrcp h o) 0x4A 2 h o s
/-- VRSQ (R149). -/
def execVrsq (h : Header) (o : VecOps) (s : State) : Result := vectorWord (.vrsq h o) 0x4A 3 h o s
/-- VTANH (R149). -/
def execVtanh (h : Header) (o : VecOps) (s : State) : Result := vectorWord (.vtanh h o) 0x4A 4 h o s
/-- VSIGM (R149). -/
def execVsigm (h : Header) (o : VecOps) (s : State) : Result := vectorWord (.vsigm h o) 0x4A 5 h o s
/-- VMERGE3 (R150). -/
def execVmerge3 (h : Header) (o : VecOps) (s : State) : Result := vectorWord (.vmerge3 h o) 0x4B 0 h o s
/-- VDEFER (R151, R152). -/
def execVdefer (h : Header) (o : VecOps) (s : State) : Result := vectorWord (.vdefer h o) 0x4C 0 h o s
/-- VDRAIN (R151, R152). -/
def execVdrain (h : Header) (o : VecOps) (s : State) : Result := vectorWord (.vdrain h o) 0x4C 1 h o s
/-- VDQCNT (R151, R152). -/
def execVdqcnt (h : Header) (o : VecOps) (s : State) : Result := vectorWord (.vdqcnt h o) 0x4C 2 h o s
/-- VMOV (R153). -/
def execVmov (h : Header) (o : VecOps) (s : State) : Result := vectorWord (.vmov h o) 0x4E 0 h o s
/-- VZERO (R153). -/
def execVzero (h : Header) (o : VecOps) (s : State) : Result := vectorWord (.vzero h o) 0x4E 1 h o s

end Sys2Proof.Machine
end

