-- ==== Sys2Proof/Machine/VectorMemory.lean ====
section
/-! DEFINITION. Vector loads, stores, gathers and scatters (R146, R147): their checks, made for every active lane before any effect, their
accesses in the load and store queues, and the filling of a store's data when the vector unit performs it. -/

namespace Sys2Proof.Machine
open Sys2Proof

/-- A vector access: where its active lanes lie, lane width in bits, and its register. -/
structure VAccess where
  space : Space
  store : Bool
  w : Nat
  /-- renamed register -/
  reg : Nat
  /-- (lane, address of its byte or bytes), lanes rising -/
  lanes : List (Nat × Nat)
  /-- address of which the alignment rule speaks, and its unit; none where each lane has its own -/
  base : Option (Nat × Nat)
deriving DecidableEq, Repr

def VAccess.laneBytes (a : VAccess) : Nat := (a.w + 7) / 8

/-- The lanes of a contiguous access at ea. -/
def contiguousLanes (w ea : Nat) (mask : Mask) : List (Nat × Nat) :=
  ((List.range (4096 / w)).filter (fun i => mask.getLsbD i)).map (fun i => (i, (ea + i * w / 8) % 2 ^ 64))

/-- The lanes of a gather or a scatter: idx(i) from the index group (R146). -/
def indexedLanes (w base : Nat) (mask : Mask) (index : Nat → VReg) : List (Nat × Nat) :=
  let n := 32 / w
  ((List.range (4096 / w)).filter (fun i => mask.getLsbD i)).map
    (fun i => (i, (base + elem (index (i % n)) (i / n) 32 * (w / 8)) % 2 ^ 64))

/-- Alignment of every active lane (R108 check 1). -/
def VAccess.misaligned (a : VAccess) (opidx : Nat) : Option FaultInfo :=
  let info (x : Nat) : FaultInfo := if a.space = .virt then .virt .alignment x opidx else .spad .alignment x opidx
  match a.base with
  | some (ea, unit) => if ea % unit ≠ 0 ∧ !a.lanes.isEmpty then some (info ea) else none
  | none => (a.lanes.find? (fun l => l.2 % a.laneBytes != 0)).map (fun l => info l.2)

/-- What the checks of a vector access come to. -/
inductive VChecked where
  /-- (virtual address, physical address) of every active byte; empty in the scratchpad -/
  | ok (bytes : List (Nat × Nat))
  | walk (va : Nat)
  | fault (i : FaultInfo)
deriving DecidableEq, Repr

/-- Translation and protection of every active lane (R108 check 3). -/
def State.checkLanes (s : State) (core asid : Nat) (p : Perm) (opidx n : Nat) : List (Nat × Nat) → VChecked
  | [] => .ok []
  | l :: rest =>
    match s.checkVirtual core asid p opidx l.2 n with
    | .fault i => .fault i
    | .walk va => .walk va
    | .ok pas =>
      match s.checkLanes core asid p opidx n rest with
      | .ok more => .ok (pas.zipIdx.map (fun x => ((l.2 + x.2) % 2 ^ 64, x.1)) ++ more)
      | e => e

/-- The four checks of R108 for every active lane, in order, and for a load what another device cannot serve (R354). A store
consumes no data (R146). (DEDUCED, log 73) (DEDUCED, log 83) -/
def State.checkVector (s : State) (core asid opidx : Nat) (a : VAccess) : VChecked :=
  match a.misaligned opidx with
  | some i => .fault i
  | none =>
    if a.space = .spad then
      match a.lanes.find? (fun l => !((s.core core).inSpad l.2 a.laneBytes)) with
      | some l => .fault (.spad .scratchRange l.2 opidx)
      | none => .ok []
    else
      match s.checkLanes core asid (if a.store then .write else .read) opidx a.laneBytes a.lanes with
      | .ok bytes =>
        match bytes.findSome? (fun b => s.checkData ((s.core core).serves .core) (if a.store then .write else .read) b.1 opidx [b.2]) with
        | some i => .fault i
        | none =>
          match (if a.store then none else bytes.findSome? (fun b => s.homeFault b.2)) with
          | some i => .fault i
          | none => .ok bytes
      | e => e

/-- Some lane overlaps a held range (R146, R253). -/
def Core.lanesHeld (k : Core) (now : Nat) (a : VAccess) : Bool :=
  a.lanes.any (fun l => k.held now a.space l.2 a.laneBytes a.store)

/-! ### A store's bytes -/

/-- Whole bytes, and bytes with one active nibble, of a register's active lanes (R146). -/
def VAccess.plan (a : VAccess) (x : VReg) : List (Nat × List Byte) × List (Nat × Byte × Byte) :=
  if a.w ≠ 4 then (a.lanes.map (fun l => (l.2, natBytes a.laneBytes (elem x l.1 a.w))), [])
  else
    let act (i : Nat) : Bool := a.lanes.any (fun l => l.1 == i)
    let byte (i : Nat) : Byte := BitVec.ofNat 8 (elem x (i / 2) 8)
    (a.lanes.filterMap (fun l => if l.1 % 2 = 0 ∧ act (l.1 + 1) then some (l.2, [byte l.1]) else none),
     a.lanes.filterMap (fun l =>
       if l.1 % 2 = 0 then (if act (l.1 + 1) then none else some (l.2, 0x0F, byte l.1))
       else if act (l.1 - 1) then none else some (l.2, 0xF0, byte l.1)))

/-- Runs of remote bytes, one for each page: first physical address, length, offsets not written (R349). -/
def remoteRuns (bytes : List (Nat × Nat)) : List (Nat × Nat × List Nat) :=
  let pages := (bytes.map (fun b => b.1 / 65536)).eraseDups
  pages.map (fun p =>
    let mine := (bytes.filter (fun b => b.1 / 65536 == p)).map (fun b => b.2)
    let lo := (mine.min?).getD 0
    let len := (mine.max?).getD 0 + 1 - lo
    (lo, len, (List.range len).filter (fun i => !mine.contains (lo + i))))

/-- The writes of a contiguous vector store to another device or the host: they share one entry, a write for each page (R349). (DEDUCED, log 17) -/
def State.remoteWrites (s : State) (a : VAccess) (bytes : List (Nat × Nat)) : List (Nat × Nat × List Nat) :=
  if a.base.isSome then remoteRuns (bytes.filter (fun b => s.isRemote b.2)) else []

/-- The lanes of a scatter that lie on another device or the host, each with its physical address (R349). -/
def State.remoteLanes (s : State) (a : VAccess) (bytes : List (Nat × Nat)) : List ((Nat × Nat) × Nat) :=
  if a.store && a.base.isNone then
    a.lanes.filterMap (fun l => (bytes.find? (fun b => b.1 == l.2 && s.isRemote b.2)).map (fun b => (l, b.2)))
  else []

/-- A lane of a scatter takes an entry of the remote-write buffer: a store of its own in the queue, and its posted write (R349). -/
def State.postLane (s : State) (a : VAccess) (x : VReg) (l : (Nat × Nat) × Nat) : State :=
  let data := natBytes a.laneBytes (elem x l.1.1 a.w)
  let acc := { s.access (.vstore [(l.1.2, data)] []) .virt 0 0 .core false false none with phys := [(l.2, a.laneBytes)] }
  (s.mapMe (fun k => k.addPosted acc.id l.2 data 8 s.cur.seq s.pc none false)).queueStore acc

/-- Lanes of a scatter take their entries one after another, as long as one is free and no unacknowledged write overlaps; the count of those
that have theirs is kept for the word (R349). Gives the lanes that still wait. -/
def State.postLanes (s : State) (a : VAccess) (x : VReg) : List ((Nat × Nat) × Nat) → State × List ((Nat × Nat) × Nat)
  | [] => (s, [])
  | l :: r =>
    if s.me.postedRoom 1 && !s.me.postedOverlap ((List.range a.laneBytes).map (fun i => l.2 + i)) then
      ((s.postLane a x l).mapMySeq (fun q => { q with scattered := q.scattered + 1 })).postLanes a x r
    else (s, l :: r)

/-- Fill the posted entries of an access with its bytes by physical address. -/
def Core.fillPosted (k : Core) (id : Nat) (bytes : List (Nat × Byte)) : Core :=
  { k with posted := k.posted.map (fun e =>
      if e.id = id then
        { e with data := bytes.foldl (fun d b => if e.addr ≤ b.1 then listSet d (b.1 - e.addr) b.2 else d) e.data }
      else e) }

/-! ### Issue -/

/-- The physical bytes of a checked access, by lane. -/
def VAccess.physRuns (a : VAccess) (bytes : List (Nat × Nat)) : List (Nat × Nat) :=
  a.lanes.filterMap (fun l => (bytes.find? (fun b => b.1 == l.2)).map (fun b => (b.2, a.laneBytes)))

/-- Put a checked vector access of the present word or issue into its queue; a slot's store takes no place there (R156). Gives the
access's number, or none. -/
def State.queueVector (s : State) (a : VAccess) (bytes : List (Nat × Nat)) (deadline : Option Nat) : State × List Nat :=
  if a.store then
    if s.cur.slot ≠ 0 then (s, [])
    else
      let p := a.plan 0
      let acc := { s.access (.vstore p.1 p.2) a.space 0 0 .core false false none with filled := false, phys := a.physRuns bytes }
      let entry := s.me.postedEntry
      let t := s.mapMe (fun k => { k with posted := k.posted ++ (s.remoteWrites a bytes).map (fun e =>
        { id := acc.id, entry := entry, addr := e.1, data := List.replicate e.2.1 0, port := 8, seq := s.cur.seq, pc := s.pc, command := none,
          record := none, iter := 0, slot := 0, sent := false, given := 0, holes := e.2.2 }) })
      (t.queueStore acc, [acc.id])
  else
    let acc := { s.access (.vload a.reg a.w a.lanes) a.space 0 0 .core false false deadline with phys := a.physRuns bytes }
    (s.queueLoad acc none, [acc.id])

/-- Why a checked access must still wait: a held range, a remote overlap, a full remote-write buffer (R146, R348, R349). A scatter's remote
lanes wait one by one, in `postLanes`. -/
def State.vectorWaits (s : State) (a : VAccess) (bytes : List (Nat × Nat)) : Bool :=
  let remote := (bytes.filter (fun b => s.isRemote b.2)).map (fun b => b.2)
  s.me.lanesHeld s.cycle a ||
  (!remote.isEmpty && (!a.store || a.base.isSome) && (s.me.postedOverlap remote || (a.store && !s.me.postedRoom 1)))

/-- The access that a word of MAJ 0x48 makes. -/
def State.vectorAccess (s : State) (fn : Nat) (h : Header) (o : VecOps) : VAccess :=
  let w := typeWidth o.et
  let mask := s.activeMask h
  let phys (n : Nat) : Nat := rename h.rot s.me.rrb n
  let ea := (s.g o.ga + o.imm.signExtend 64).toNat
  let base := (s.g o.ga).toNat
  let indexed := indexedLanes w base mask (fun k => s.v (phys (o.vb.toNat + k)))
  match fn with
  | 0 => ⟨.virt, false, w, phys o.vd.toNat, contiguousLanes w ea mask, some (ea, 64)⟩
  | 1 => ⟨.virt, true, w, phys o.va.toNat, contiguousLanes w ea mask, some (ea, 64)⟩
  | 2 => ⟨.spad, false, w, phys o.vd.toNat, contiguousLanes w ea mask, some (ea, 512)⟩
  | 3 => ⟨.spad, true, w, phys o.va.toNat, contiguousLanes w ea mask, some (ea, 512)⟩
  | 4 => ⟨if o.imm.getLsbD 0 then .spad else .virt, false, w, phys o.vd.toNat, indexed, none⟩
  | _ => ⟨if o.imm.getLsbD 0 then .spad else .virt, true, w, phys o.va.toNat, indexed, none⟩

/-- A word of MAJ 0x48: checked precisely at the word, its access queued, its command in the sub-queue (R131, R133, R146, R147). -/
def vectorMemoryWord (i : Instr) (fn : Nat) (h : Header) (o : VecOps) (s : State) : Result :=
  let port := vectorPort s.cur.seq
  issueWord { Issue.scalar [o.ga] [] with who := vectorIssuers 0x48 fn, lanes := true, engine := some port, cmd := some i } h (fun s =>
    let k := s.me
    let u := vecUses o 0x48 fn
    if s.cur.slot = 0 ∧ ((u.1 ++ u.2).any (fun n => k.vecAwaited s.cur.seq s.cycle (rename h.rot k.rrb n)) ∨
        u.2.any (fun n => k.vecUnread s.cur.seq (rename h.rot k.rrb n))) then .wait s none
    else if h.msrc = 2 && k.cmAwaited s.cycle then .wait s none
    else
      let a := s.vectorAccess fn h o
      match s.checkVector s.cur.core k.asid 3 a with
      | .fault i => .trap i
      | .walk va => .walk va
      | .ok bytes =>
        if k.lanesHeld s.cycle a || (s.mayRetry && k.older s.cur.seq 13 s.cycle) then .wait s (some 13)
        else if s.vectorWaits a bytes then .wait s none
        else match s.postLanes a (s.v a.reg) (if s.cur.slot = 0 then (s.remoteLanes a bytes).drop s.mySeq.scattered else []) with
        | (s, _ :: _) => .wait s none
        | (s, []) =>
          let c0 := { s.command i h [s.g o.ga] (if h.m = 1 then some s.cycle else none) with
            copy := a.lanes.flatMap (fun l => natBytes 8 l.2) }
          match s.enter port c0 16 with
          | .done _ _ =>
            let (t, own) := s.queueVector a bytes (if fn = 2 then some (s.cycle + 5) else none)
            t.enter port { c0 with id := t.nextId, own := own } 16
          | e => e) s

/-- VLD (R146). -/
def execVld (h : Header) (o : VecOps) (s : State) : Result := vectorMemoryWord (.vld h o) 0 h o s
/-- VST (R146). -/
def execVst (h : Header) (o : VecOps) (s : State) : Result := vectorMemoryWord (.vst h o) 1 h o s
/-- VLDX (R146). -/
def execVldx (h : Header) (o : VecOps) (s : State) : Result := vectorMemoryWord (.vldx h o) 2 h o s
/-- VSTX (R146). -/
def execVstx (h : Header) (o : VecOps) (s : State) : Result := vectorMemoryWord (.vstx h o) 3 h o s
/-- VGATH (R146). -/
def execVgath (h : Header) (o : VecOps) (s : State) : Result := vectorMemoryWord (.vgath h o) 4 h o s
/-- VSCAT (R146). -/
def execVscat (h : Header) (o : VecOps) (s : State) : Result := vectorMemoryWord (.vscat h o) 5 h o s

/-! ### Performing a store -/

/-- Give a store its data: into its place of the store queue, or into the slot's buffer (R147, R156). -/
def State.fillStore (s : State) (core asid : Nat) (own : List Nat) (a : VAccess) (x : VReg) : State :=
  let p := a.plan x
  match own with
  | id :: _ =>
    let whole := p.1.flatMap (fun w => w.2.zipIdx.map (fun b => (w.1 + b.2, b.1)))
    let seen (va : Nat) : Byte := (s.virtBytes core asid .core 0 va 1).headD 0
    let bytes := whole ++ p.2.map (fun x => (x.1, (seen x.1 &&& ~~~x.2.1) ||| (x.2.2 &&& x.2.1)))
    let phys := if a.space = .spad then []
      else bytes.filterMap (fun b => (s.resolve core asid (b.1 % 2 ^ 64) .write).map (fun pa => (pa, b.2)))
    s.mapCore core (fun k =>
      { k.fillPosted id phys with
        stores := k.stores.map (fun x => if x.id = id then { x with kind := .vstore p.1 p.2, filled := true } else x) })
  | [] =>
    if s.cur.slot = 0 then s
    else
      let s1 := p.1.foldl (fun s w => s.slotStore a.space w.1 w.2) s
      p.2.foldl (fun s x =>
        let old := match slotByte s.me.round.stores s.cur.slot a.space x.1 with
          | some b => b
          | none => if a.space = .spad then s.me.spad.read x.1 else (s.virtBytes core asid .core 0 x.1 1).headD 0
        s.slotStore a.space x.1 [(old &&& ~~~x.2.1) ||| (x.2.2 &&& x.2.1)]) s1

end Sys2Proof.Machine
end

