-- ==== Sys2Proof/Machine/VectorUnit.lean ====
section
/-! DEFINITION. The vector unit: performing the word at the head of a sub-queue (R131, R134, R252), the vector records (R154), and their
headers. -/

namespace Sys2Proof.Machine
open Sys2Proof

/-- What a command reads beside its fields. -/
def Command.vrun (c : Command) (h : Header) (x : Word) (now : Nat) : VRun :=
  { rot := h.rot, rrb := c.rrb, mask := c.mask, x := x, cm := BitVec.ofNat 1024 (bytesNat c.copy), deps := c.waits ++ c.behind,
    since := (c.waitSince.map (fun w => w.2)).getD now, shared := c.shared }

/-- Bank groups of the scratchpad that a vector access reaches (R38). -/
def VAccess.groups (a : VAccess) : List Nat :=
  if a.space = .spad then (a.lanes.map (fun l => l.2 / 16384 % 4)).eraseDups else []

/-- Cycles by which a scratchpad access of the vector unit moves on because the matrix engine reads a bank group of it (R134).
(DEDUCED, log 92) -/
def State.bankDelay (s : State) (a : VAccess) : Nat :=
  ((List.range (s.me.mbanks.length + 1)).find? (fun d => a.groups.all (fun g => !s.me.mbanks.contains (g, s.cycle + d)))).getD 0

/-- The vector unit uses the bank groups of an access for some cycles from a cycle on (R283). -/
def Core.useBanks (k : Core) (now first cycles : Nat) (a : VAccess) : Core :=
  { k with vbanks := k.vbanks.filter (fun x => decide (now ≤ x.2)) ++
      a.groups.flatMap (fun g => (List.range cycles).map (fun i => (g, first + i))) }

/-- Loads that the scratchpad serves some cycles later. -/
def Core.delayLoads (k : Core) (own : List Nat) (late : Nat) : Core :=
  { k with loads := k.loads.map (fun (x : Access) => if own.contains x.id then { x with deadline := x.deadline.map (fun d => d + late) } else x) }

/-- The results of a word of the present sequencer become readable (R134); a slot's are not timed. -/
def State.vecTimed (s : State) (maj fn : Nat) (r : VRun) (o : VecOps) (port extra : Nat) : State :=
  let now := s.cycle
  let (busy, lat) := vecTiming o maj fn
  s.mapMe (fun k =>
    let k := k.occupy port (now + busy + extra)
    if s.cur.slot ≠ 0 then k
    else
      let keys := ((vecUses o maj fn).2.map (fun n => vreadyKey s.cur.seq (rename r.rot r.rrb n))) ++
        (if maj = 0x42 ∧ fn = 0 then [vreadyKey s.cur.seq 1024] else if maj = 0x4C ∧ fn ≠ 2 then [vreadyKey s.cur.seq 1025] else [])
      { k with vready := keys.foldl (fun t n => Table.set 0 t n (now + lat)) (k.vready.filter (fun x => decide (now < x.2))) })

/-- The vector access that a command of MAJ 0x48 made at its word, from the addresses kept with it. -/
def Command.vaccess (c : Command) (fn : Nat) (h : Header) (o : VecOps) : VAccess :=
  let w := typeWidth o.et
  let act := (List.range (4096 / w)).filter (fun i => c.mask.getLsbD i)
  let addr (i : Nat) : Nat := bytesNat ((c.copy.drop (8 * i)).take 8)
  { space := if fn = 2 ∨ fn = 3 ∨ (fn ≠ 0 ∧ fn ≠ 1 ∧ o.imm.getLsbD 0) then .spad else .virt,
    store := fn % 2 == 1, w := w, reg := rename h.rot c.rrb (if fn % 2 = 1 then o.va.toNat else o.vd.toNat),
    lanes := act.zipIdx.map (fun x => (x.1, addr x.2)), base := none }

/-- Perform one vector word (R131 to R153). -/
def performVectorWord (s : State) (port maj fn : Nat) (h : Header) (o : VecOps) (c : Command) : Perf :=
  let r := c.vrun h (c.vals.getD 0 0) s.cycle
  let done (t : State) : Perf := .go (t.vecTimed maj fn r o port 0) (c.finish .ok 0)
  let try_ (t : Option State) : Perf := match t with
    | some t => done t
    | none => .wait s
  match maj, fn with
  | 0x42, 0 =>
    match vCmp r o s with
    | some t => done t
    | none => .wait (s.mapMe (fun k => k.putCommand port
        { c with waitSince := some (8 + o.imm.toNat / 64 % 4, (c.waitSince.map (fun w => w.2)).getD s.cycle) }))
  | 0x48, f =>
    let a := c.vaccess fn h o
    let late := s.bankDelay a
    let t := if f % 2 = 1 then s.fillStore s.cur.core s.me.asid c.own a (s.v a.reg) else s.mapMe (fun k => k.delayLoads c.own late)
    let t := t.mapMe (fun k => k.useBanks s.cycle (s.cycle + late) (vecTiming o maj f).1 a)
    .go (t.vecTimed maj fn r o port late) (c.finish .ok 0)
  | 0x49, 0 => try_ (vQpop r o s)
  | 0x49, _ => try_ (vQpush r o s)
  | 0x4C, 0 => try_ (vDefer r o s)
  | 0x4C, 1 =>
    if s.me.deferralFresh s.cycle then .wait s
    else
    let (t, f, touched) := vDrain r o s
    .go ((t.mapMe (fun k => k.giveG c.seq c.slot o.ga.toNat (BitVec.ofNat 64 f) (s.cycle + 4))).vecTimed maj fn r o port touched)
      (c.finish .ok 0)
  | 0x4C, _ =>
    if s.me.deferralFresh s.cycle then .wait s
    else done (s.mapMe (fun k => k.giveG c.seq c.slot o.ga.toNat (BitVec.ofNat 64 (deferralCount k.deferral)) (s.cycle + 2)))
  | _, _ => done (vectorEffect maj fn r o s)

/-! ### Records (R154) -/

/-- First operand fault of an issue, in the order A, B, C. -/
def firstFault (ls : List Located) : Option FaultInfo :=
  ls.findSome? (fun l => match l with
    | .fault i => some i
    | _ => none)

/-- A group operand that breaks R133 at an issue: its index. VSAT and VCLAMP name single registers (R141). -/
def groupFault (o : VecOps) (maj fn : Nat) : Option Nat :=
  if maj = 0xFB then
    (if !groupOk o.va 3 then some 0 else if !groupOk o.vb 3 then some 1 else if !groupOk o.vd 3 then some 2 else none)
  else if maj = 0xF7 ∧ fn ≤ 2 then
    match widthRatio (typeWidth o.et) (typeWidth o.et2) with
    | some n =>
      if typeWidth o.et2 < typeWidth o.et then (if groupOk o.vd n then none else some 2)
      else if typeWidth o.et < typeWidth o.et2 then (if groupOk o.va n then none else some 0) else none
    | none => none
  else none

/-- A queue with its newest accesses, those of the numbers given, at their place in program order. -/
def inOrder (own : List Nat) (queue : List Access) : List Access :=
  let rest := queue.filter (fun x => !own.contains x.id)
  (queue.filter (fun x => own.contains x.id)).foldl (fun q a =>
    q.takeWhile (fun b => decide (b.id < a.id)) ++ a :: q.dropWhile (fun b => decide (b.id < a.id))) rest

/-- A memory issue of MAJ 0xF9: its checks are reported (R154), and its accesses stand in the queues at the header's place (R147). (DEDUCED,
log 80) -/
def performMemoryIssue (s : State) (fn : Nat) (h : Header) (r : RecOps) (c : Command) (run : VRun) (i : Iter) (a d : Located) : Perf :=
  let port := vectorPort c.seq
  let w := typeWidth r.tc
  let store := fn % 2 = 1
  let mem := if store then d else a
  let opidx := if store then 2 else 0
  let ulog := if store then r.dc.ulog.toNat else r.da.ulog.toNat
  let (space, ea) : Space × Nat := match mem with
    | .spad x => (.spad, x)
    | .virt x => (.virt, x)
    | _ => (.virt, 0)
  let reg := rename h.rot c.rrb (if store then a.regOr.toNat else d.regOr.toNat)
  let acc : VAccess := ⟨space, store, w, reg, contiguousLanes w ea c.mask, some (ea, 2 ^ ulog)⟩
  match s.checkVector s.cur.core s.me.asid opidx acc with
  | .fault f => .fault s (i.fault f)
  | .walk va => .wait (s.startWalk s.cur.core s.me.asid va)
  | .ok bytes =>
    if s.vectorWaits acc bytes || s.me.vecEarlier c.seq i.j s.cycle (c.id + 1 + c.iter) reg then .wait s
    else
      let numbered : State := { s with nextId := c.id + 1 + c.iter }
      let (t, own) := numbered.queueVector acc bytes (if space = .spad ∧ !store then some (s.cycle + 5) else none)
      let fix (x : Access) : Access :=
        if own.contains x.id then { x with pc := c.pc, marks := c.phase, after := x.after.filter (fun n => decide (n < c.id)) } else x
      let back : State := { t with nextId := s.nextId }
      let t := back.mapMe (fun k => { k with
        loads := inOrder own (k.loads.map fix), stores := inOrder own (k.stores.map fix),
        posted := k.posted.map (fun e =>
          if own.contains e.id then { e with pc := c.pc, record := some c.id, iter := i.pack, slot := i.j } else e) })
      let t := if store then t.fillStore s.cur.core s.me.asid own acc (run.reg 0 s a.regOr.toNat) else t
      let late := s.bankDelay acc
      let t := t.mapMe (fun k => (k.delayLoads own late).useBanks s.cycle (s.cycle + late) 1 acc)
      .go (t.vecTimed 0x48 fn run (issueOps r 0xF9 fn a .none d) port late) { c with own := c.own ++ own }

/-- The registers that a vector record's issue reads through an operand. -/
def operandRegs (o : VecOps) (maj fn m : Nat) : List Nat :=
  match m with
  | 0 => if maj = 0xFB then groupFrom o.va 3 else if maj = 0xF7 then (vecUses o 0x43 fn).1 else [o.va.toNat]
  | 1 => if maj = 0xFB then groupFrom o.vb 3 else [o.vb.toNat]
  | _ => if (maj = 0xF5 ∧ (fn = 3 ∨ fn = 4)) ∨ (maj = 0xF8 ∧ fn = 0) then [o.vc.toNat] else []

/-- The operands whose SLOT bit is 0, read once for the iteration vector (R92): 1024 operand + register, and its contents. -/
def State.sharedRegs (s : State) (r : RecOps) (maj fn : Nat) (rot : BitVec 1) (rrb : BitVec 9) (o : VecOps) : List (Nat × VReg) :=
  (List.range 3).flatMap (fun m =>
    if r.slot.getLsbD m then [] else ((operandRegs o maj fn m).map (rename rot rrb)).map (fun p => (1024 * m + p, s.v p)))

/-- One issue of a vector record, on behalf of its slot. -/
def performVectorIssue (s : State) (port maj fn : Nat) (h : Header) (r : RecOps) (c : Command) : Perf :=
  let i := recIter r c.w c.iter
  let s := { s with cur := { s.cur with slot := i.j } }
  if !s.me.slotLive i.j then .go s c
  else
    let a := recOperand r c.vals i 0
    let b := recOperand r c.vals i 1
    let d := recOperand r c.vals i 2
    match firstFault [a, b, d] with
    | some f => .fault s (i.fault f)
    | none =>
      let o := issueOps r maj fn a b d
      let c := if 1 < c.w ∧ i.j = 0 then { c with shared := s.sharedRegs r maj fn h.rot c.rrb o } else c
      let run := { c.vrun h (c.vals.getD 3 0) s.cycle with shared := if i.j = 0 then [] else c.shared }
      let u := vecUses o (vectorMajOf maj) fn
      if maj = 0xF9 then
        performMemoryIssue s fn h r c run i a d
      else match groupFault o maj fn with
        | some m => .fault s (i.fault ⟨.illegalOperand, { FaultAt.none with opidx := m }⟩)
        | none =>
          if (u.1 ++ u.2).any (fun n => s.me.vecEarlier c.seq i.j s.cycle c.id (rename h.rot c.rrb n)) then .wait s
          else .go ((vectorEffect (vectorMajOf maj) fn run o s).vecTimed (vectorMajOf maj) fn run o port 0) c

/-! ### Headers of the vector records (R131, R154) -/

def vectorRecordWord (i : Instr) (h : Header) (r : RecOps) (who : List SeqId) (s : State) : Result :=
  if h.msrc = 2 ∧ s.me.cmAwaited s.cycle then
    recordWord i (vectorPort s.cur.seq) who true h r (fun s => .wait s none) s
  else plainRecord i (vectorPort s.cur.seq) who true h r s

/-- The records of MAJ 0xF5 (R154). -/
def execVectorArithRecord (fn : BitVec 8) (h : Header) (r : RecOps) (s : State) : Result :=
  vectorRecordWord (.vectorArithRecord fn h r) h r [.x] s
/-- MAJ 0xF6. -/
def execVectorLogicRecord (fn : BitVec 8) (h : Header) (r : RecOps) (s : State) : Result :=
  vectorRecordWord (.vectorLogicRecord fn h r) h r [.x] s
/-- MAJ 0xF7. -/
def execVectorConvertRecord (fn : BitVec 8) (h : Header) (r : RecOps) (s : State) : Result :=
  vectorRecordWord (.vectorConvertRecord fn h r) h r [.x] s
/-- MAJ 0xF8. -/
def execVectorDotRecord (fn : BitVec 8) (h : Header) (r : RecOps) (s : State) : Result :=
  vectorRecordWord (.vectorDotRecord fn h r) h r [.x] s
/-- MAJ 0xF9: loads of L-seq, stores of S-seq. -/
def execVectorMemoryRecord (fn : BitVec 8) (h : Header) (r : RecOps) (s : State) : Result :=
  let port := vectorPort s.cur.seq
  issueWord (recordIssue (.vectorMemoryRecord fn h r) port (if fn.toNat % 2 = 1 then [.s] else [.l]) true r) h (fun s =>
    if h.msrc = 2 ∧ s.me.cmAwaited s.cycle then .wait s none
    else
      let c := s.recordCommand (.vectorMemoryRecord fn h r) h r
      match s.enter port c 64 with
      | .done t next => .done { t with nextId := t.nextId + c.numbers } next
      | e => e) s
/-- MAJ 0xFA. -/
def execVectorSpecialRecord (fn : BitVec 8) (h : Header) (r : RecOps) (s : State) : Result :=
  vectorRecordWord (.vectorSpecialRecord fn h r) h r [.x] s
/-- MAJ 0xFB. -/
def execVmerge3Record (h : Header) (r : RecOps) (s : State) : Result := vectorRecordWord (.vmerge3Record h r) h r [.x] s

end Sys2Proof.Machine
end

