-- ==== Sys2Proof/Machine/Matrix.lean ====
section
/-! DEFINITION. The words of MAJ 0xA0 and the records of MAJ 0xF0 as X-seq issues them (R157, R158, R175), with their ranges (R160) and
the configuration checks of R86 row 6. -/

namespace Sys2Proof.Machine
open Sys2Proof

/-- Types and geometries of a word. -/
def engTypes (o : EngOps) : MTypes :=
  ⟨o.ta, o.tb, o.sga == 1, o.sgb == 1, blockOf o.bka.toNat, blockOf o.bkb.toNat⟩

def recTypes (r : RecOps) : MTypes :=
  ⟨r.ta, r.tb, r.sga == 1, r.sgb == 1, blockOf r.bka.toNat, blockOf r.bkb.toNat⟩

/-- Types and geometries of a format-table entry (R174). -/
def entryTypes (e : BitVec 32) : MTypes :=
  ⟨e.extractLsb' 0 4, e.extractLsb' 4 4, e.getLsbD 12, e.getLsbD 13, blockOf (e.toNat / 256 % 4), blockOf (e.toNat / 1024 % 4)⟩

/-- Floating types need FP, MXINT types EXACT (R164). -/
def suits (conf : AccConf) (t : MTypes) : Bool := if t.mx then conf == .exact else conf == .fp

/-- A matrix word: the configuration check, then the FIFO with the word's ranges. -/
def matrixWord (i : Instr) (h : Header) (o : EngOps) (noSpec : Bool) (absent : State → Bool) (spans : State → List Span)
    (s : State) : Result :=
  issueWord { engineIssue i 3 [.x] noSpec o with absent := if absent s then some (.bare .accConfig) else none } h (fun s =>
    s.enterWith 3 (s.engCommand i h o) 16 (spans s)) s

/-- The tile that a word names, for its slot, is absent (R34, R181). (DEDUCED, log 14) -/
def noTile (o : EngOps) (s : State) : Bool := decide (tilesOf s.me.conf ≤ o.tile.toNat)
def notCount (s : State) : Bool := s.me.conf != .count

def srcSpan (a len : Nat) : Span := ⟨.spad, a, len, false⟩
def dstSpan (a len : Nat) : Span := ⟨.spad, a, len, true⟩

/-- Elements of a tile in the present configuration. -/
def Core.tileSize (k : Core) : Nat := tileSide k.conf * tileSide k.conf

/-- Bytes of a spill image (R168). -/
def spillBytes : Nat := 147520

/-- MMA (R164). (DEDUCED, log 14) -/
def execMma (h : Header) (o : EngOps) (s : State) : Result :=
  let t := engTypes o
  matrixWord (.mma h o) h o false
    (fun s => !suits s.me.conf t || decide (tilesOf s.me.conf ≤ o.tile.toNat + s.cur.slot))
    (fun s => [srcSpan (s.g o.ga).toNat (operandBytes t.ta t.ks 64 t.bka), srcSpan (s.g o.gb).toNat (operandBytes t.tb t.ks 64 t.bkb)]) s

/-- MMAC (R165). -/
def execMmac (h : Header) (o : EngOps) (s : State) : Result :=
  let t := engTypes o
  matrixWord (.mmac h o) h o true notCount
    (fun s => [srcSpan (s.g o.ga).toNat (operandBytes t.ta 256 32 t.bka), srcSpan (s.g o.gb).toNat (operandBytes t.tb 256 32 t.bkb)]) s

/-- CMERGE (R168). -/
def execCmerge (h : Header) (o : EngOps) (s : State) : Result :=
  matrixWord (.cmerge h o) h o true notCount (fun s => [srcSpan (s.g o.ga).toNat spillBytes]) s
/-- CSPILL (R168). -/
def execCspill (h : Header) (o : EngOps) (s : State) : Result :=
  matrixWord (.cspill h o) h o true notCount (fun s => [dstSpan (s.g o.ga).toNat spillBytes]) s
/-- CDRAIN (R167). -/
def execCdrain (h : Header) (o : EngOps) (s : State) : Result := matrixWord (.cdrain h o) h o true notCount (fun _ => []) s

/-- The configuration of an ACFG word (R169). -/
def acfgConf (o : EngOps) : AccConf :=
  match o.imm.toNat % 4 with
  | 0 => .fp
  | 1 => .exact
  | _ => .count

/-- ACFG's effect (R35, R169): none where nothing changes; a fault while a tile or the bank is live. -/
def Core.configure (k : Core) (conf : AccConf) (eb : BitVec 9) : Option Core :=
  if k.conf = conf ∧ k.eb = eb then some k
  else if k.live ≠ 0 ∨ !k.counters.isEmpty then none
  else some { k with conf := conf, eb := eb, acc := [], counters := [], combination := none, cwb := 0, cbound := 0, live := 0,
                     armed := [], tready := [], mmaRun := none }

/-- ACFG: held at issue until the matrix FIFO is empty, and carried out there (R35, R158, R169). -/
def execAcfg (h : Header) (o : EngOps) (s : State) : Result :=
  issueWord { Issue.scalar [] [] with who := [.x], noSpec := true } h (fun s =>
    if !(s.me.fifo 3).isEmpty then .wait s none
    else match s.me.configure (acfgConf o) (BitVec.ofNat 9 (o.imm.toNat / 4)) with
      | none => .trap (.bare .accConfig)
      | some k => .done (s.setMe (k.takePart 3 false)) s.pc16) s

/-- AZERO (R170). -/
def execAzero (h : Header) (o : EngOps) (s : State) : Result :=
  matrixWord (.azero h o) h o (o.imm.getLsbD 0) (fun s => if o.imm.getLsbD 0 then notCount s else noTile o s) (fun _ => []) s

/-- Bytes of an element of a type in an image. -/
def imageBytes (t : BitVec 4) : Nat := typeWidth t / 8

/-- ALOAD (R171): the configuration fixes the types it accepts. (DEDUCED, log 24) -/
def execAload (h : Header) (o : EngOps) (s : State) : Result :=
  let absent : Option FaultInfo :=
    if !(if s.me.conf = .fp then o.ta == 12 || o.ta == 11 else o.ta == 6 || o.ta == 12) then some (.bare .illegal)
    else if noTile o s then some (.bare .accConfig) else none
  issueWord { Issue.scalar [o.ga] [] with
      who := [.x], engine := some 3, cmd := some (.aload h o), noSpec := true, absent := absent } h (fun s =>
    s.enterWith 3 (s.command (.aload h o) h [s.g o.ga] (if h.m = 1 then some s.cycle else none)) 16
      [srcSpan (s.g o.ga).toNat (s.me.tileSize * imageBytes o.ta)]) s

/-- ADRAIN (R172). -/
def execAdrain (h : Header) (o : EngOps) (s : State) : Result :=
  matrixWord (.adrain h o) h o false (noTile o) (fun s => [dstSpan (s.g o.ga).toNat (s.me.tileSize * imageBytes o.tc)]) s
/-- ADRAINP (R176). -/
def execAdrainp (h : Header) (o : EngOps) (s : State) : Result := matrixWord (.adrainp h o) h o true (noTile o) (fun _ => []) s
/-- AARM (R176). -/
def execAarm (h : Header) (o : EngOps) (s : State) : Result := matrixWord (.aarm h o) h o true (noTile o) (fun _ => []) s
/-- FMTSET (R174). -/
def execFmtset (h : Header) (o : EngOps) (s : State) : Result := matrixWord (.fmtset h o) h o true (fun _ => false) (fun _ => []) s
/-- FMTLD (R174). -/
def execFmtld (h : Header) (o : EngOps) (s : State) : Result :=
  matrixWord (.fmtld h o) h o true (fun _ => false) (fun s => [srcSpan (s.g o.ga).toNat 64]) s
/-- MVEC (R178): writes a vector register of X-seq, which earlier words have read and written before (R131, R242). -/
def execMvec (h : Header) (o : EngOps) (s : State) : Result :=
  issueWord { Issue.scalar [] [] with
      who := [.x], engine := some 3, cmd := some (.mvec h o),
      absent := if s.me.conf != .fp || noTile o s then some (.bare .accConfig) else none } h (fun s =>
    let p := rename h.rot s.me.rrb o.va.toNat
    if s.cur.slot = 0 ∧ (s.me.vecAwaited .x s.cycle p ∨ s.me.vecUnread .x p) then .wait s none
    else s.enterWith 3 (s.command (.mvec h o) h [] (if h.m = 1 then some s.cycle else none)) 16 []) s
/-- MXT (R179). (DEDUCED, log 16) -/
def execMxt (h : Header) (o : EngOps) (s : State) : Result :=
  let n := 4096 * imageBytes o.ta
  matrixWord (.mxt h o) h o false (fun _ => false) (fun s => [srcSpan (s.g o.gb).toNat n, dstSpan (s.g o.ga).toNat n]) s

/-! ### Record headers (R175) -/

/-- Width of the round for a record's slots: W, or 1 outside a round (R92). -/
def Core.slotCount (k : Core) : Nat := if k.round.st = .running then k.round.w else 1

/-- The format table as a command that enters the matrix FIFO now will find it: with the FMTSETs before it; none where an FMTLD, whose bytes
are still to be read, stands before it (R158, R174). -/
def Core.formatAhead (k : Core) : Option (Table (BitVec 32)) :=
  ((k.fifo 3).filter (fun c => c.result.isNone)).foldl (fun (t : Option (Table (BitVec 32))) c =>
    match t, c.instr with
    | some t, .fmtset _ o => some (if (c.vals.getD 1 0).toNat / 2 ^ 14 = 0 then Table.set 0 t o.imm.toNat ((c.vals.getD 1 0).setWidth 32) else t)
    | _, .fmtld _ _ => none
    | t, _ => t) (some k.fmt)

/-- Lowest byte and the byte past the highest that the issues of a record with i3 = n reach through operand m, each `ext` bytes. -/
def issueHull (r : RecOps) (vals : List Word) (w m n ext : Nat) : Int × Int :=
  let d := if m = 0 then r.da else r.db
  let (lo, hi) := unitHull { r with t3 := 1 } { d with off := 0 } (r.slot.getLsbD m) w
  let at_ (u : Int) : Int := (vals.getD m 0).toNat + (d.off.toInt + n * d.s3.toInt + u) * 2 ^ d.ulog.toNat
  (at_ lo, at_ hi + ext)

/-- The interval of an operand of an FTS record: its issues take their extents from entry i3 mod 16 of the format table (R92, R160). Of the
issues with one entry those of the first and of the last i3 reach furthest. -/
def ftsSpan (r : RecOps) (fmt : Table (BitVec 32)) (count : Bool) (vals : List Word) (w m : Nat) : List Span :=
  let t3 := r.t3.toNat
  let hulls := (List.range (if t3 < 16 then t3 else 16)).flatMap (fun e =>
    let t := entryTypes (Table.get 0 fmt e)
    let last := e + (t3 - 1 - e) / 16 * 16
    let ext := if count then operandBytes (if m = 0 then t.ta else t.tb) 256 32 (if m = 0 then t.bka else t.bkb)
      else if t.accepted then operandBytes (if m = 0 then t.ta else t.tb) t.ks 64 (if m = 0 then t.bka else t.bkb) else 0
    if ext = 0 then [] else [issueHull r vals w m e ext, issueHull r vals w m last ext])
  if recTotal r w = 0 ∨ hulls.isEmpty then []
  else
    let lo := minInt (hulls.map (fun x => x.1)) 0
    let hi := maxInt (hulls.map (fun x => x.2)) 0
    [⟨.spad, (lo % 2 ^ 64).toNat, (hi - lo).toNat, false⟩]

/-- Ranges of a matrix record: for each operand from the lowest to the highest byte that its issues read (R160). With FTS and an FMTLD still to
be performed before it, each operand holds the largest extent that a granule holds. (DESIGN CHOICE, log 32) -/
def Core.matrixSpans (k : Core) (r : RecOps) (t : MTypes) (rows : Nat) (w : Nat) (vals : List Word) : List Span :=
  if r.fts = 1 then
    match k.formatAhead with
    | some fmt => ftsSpan r fmt (rows == 32) vals w 0 ++ ftsSpan r fmt (rows == 32) vals w 1
    | none => recSpan r vals w 0 16384 false ++ recSpan r vals w 1 16384 false
  else recSpan r vals w 0 (operandBytes t.ta t.ks rows t.bka) false ++ recSpan r vals w 1 (operandBytes t.tb t.ks rows t.bkb) false

/-- A matrix record enters the FIFO with the ranges that it holds (R175, R253). (DESIGN CHOICE, log 32) -/
def matrixRecord (i : Instr) (h : Header) (r : RecOps) (rows : Nat) (bad : State → Option Cause) (s : State) : Result :=
  issueWord { Issue.scalar [r.da.base, r.db.base] [] with
      who := [.x], size := 64, stamp := some r.stamp.toNat, engine := some 3, cmd := some i, once := true,
      absent := (bad s).map (fun c => .bare c) } h (fun s =>
    let c := s.recordCommand i h r
    s.enterWith 3 c 64 (s.me.matrixSpans r (recTypes r) rows c.w c.vals)) s

/-- An MMA record (R164, R175): AT to AT + W - 1 must be tiles of the configuration. -/
def execMmaRecord (h : Header) (r : RecOps) (s : State) : Result :=
  matrixRecord (.mmaRecord h r) h r 64 (fun s =>
    if tilesOf s.me.conf < r.opx.toNat % 16 + s.me.slotCount then some .accConfig
    else if r.fts = 0 ∧ !suits s.me.conf (recTypes r) then some .accConfig else none) s

/-- An MMAC record (R165, R175): within a round no SLOT bit may be set, and acc0 is the only tile of COUNT, so that a round of two slots or
more has none for its higher ones. (DEDUCED, log 15) -/
def execMmacRecord (h : Header) (r : RecOps) (s : State) : Result :=
  matrixRecord (.mmacRecord h r) h r 32 (fun s =>
    if s.me.round.st = .running ∧ r.slot ≠ 0 then some .illegal
    else if notCount s || decide (tilesOf s.me.conf < s.me.slotCount) then some .accConfig else none) s

end Sys2Proof.Machine
end

