-- ==== Sys2Proof/Machine/MatrixUnit.lean ====
section
/-! DEFINITION. The matrix engine performing its commands (R158 to R179): faults are reported (R161, R397). -/

namespace Sys2Proof.Machine
open Sys2Proof

/-- A pending peer drain holds a tile (R176). -/
def Core.tileHeld (k : Core) (t : Nat) : Bool := k.blocks.any (fun b => b.2.pinned && b.2.kind == 2 && b.2.addr == t)
def Core.isArmed (k : Core) (t : Nat) : Bool := (Table.get none k.armed t).isSome
def Core.tileReady (k : Core) (now t : Nat) : Bool := decide (Table.get 0 k.tready t ≤ now)
def Core.setTready (k : Core) (t at_ : Nat) : Core := { k with tready := Table.set 0 k.tready t at_ }

/-- R159 for one operand of an issue. (DEDUCED, log 12) -/
def Core.operandFault (k : Core) (off len opidx : Nat) : Option FaultInfo :=
  if off % 512 ≠ 0 then some (.spad .illegalOperand off opidx)
  else if !k.inSpad off len then some (.spad .scratchRange off opidx)
  else if off / 16384 ≠ (off + len - 1) / 16384 then some (.spad .illegalOperand off opidx)
  else none

/-- R397 for a word's image. (DEDUCED, log 12) -/
def Core.imageFault (k : Core) (off len unit opidx : Nat) : Option FaultInfo :=
  if off % unit ≠ 0 then some (.spad .illegalOperand off opidx)
  else if !k.inSpad off len then some (.spad .scratchRange off opidx)
  else none

/-- Scratchpad bytes as a command's slot sees them, and a write for it. (DEDUCED, log 16) -/
def State.mread (s : State) (off n : Nat) : Array Byte := (s.me.spadFor s.cur.slot off n).toArray

/-- The counting state of the present core. -/
def Core.counting (k : Core) : Counting :=
  { counters := k.counters, comb := k.combination, w := k.cwb.toInt, bound := k.cbound.toNat, drains := k.cdrains, core := k,
    aovf := false, autos := 0 }

/-- The counting state put back, with its automatic drains noted (R46). -/
def State.withCounting (s : State) (x : Counting) : State :=
  let k : Core := { x.core with
    counters := x.counters, combination := x.comb, cwb := BitVec.ofInt 10 x.w, cbound := BitVec.ofNat 17 x.bound, cdrains := x.drains }
  (s.setMe (if x.autos = 0 then k else k.noteRaised s.cycle 0 false x.autos)).raiseAovf x.aovf

/-- The counter bank drained as CDRAIN drains it (R167). -/
def State.drainBank (s : State) : State :=
  let k := s.me
  if k.counters.isEmpty then s
  else
    let x := k.counting.drain k.eb.toInt
    s.withCounting { x with comb := none }

/-! ### MMA and MMAC -/

/-- Next run of MMA issues, and the cycle in which the array is free (R163). -/
def nextRun (run : Option (Nat × Nat × Nat)) (t : MTypes) (now : Nat) : (Nat × Nat × Nat) × Nat :=
  let comb := 16 * t.ta.toNat + t.tb.toNat
  let r := match run with
    | some (c, st, n) => if c = comb ∧ now = st + ceilDiv (n * t.ks) t.rate then (c, st, n + 1) else (comb, now, 1)
    | none => (comb, now, 1)
  (r, r.2.1 + ceilDiv (r.2.2 * t.ks) t.rate)

/-- Operands by offset and length, read from the present cycle on at 1 KiB a cycle: which bank group is read in which cycle (R38, R134,
R159). (DEDUCED, log 92) -/
def Core.readBanks (k : Core) (now : Nat) (operands : List (Nat × Nat)) : Core :=
  { k with mbanks := k.mbanks.filter (fun x => decide (now ≤ x.2) || k.helm.applying.any (fun y => decide (y.start < x.2))) ++ operands.flatMap (fun x =>
      (List.range (Nat.max 1 (x.2 / 1024))).map (fun i => ((x.1 + 1024 * i) / 16384 % 4, now + i))) }

/-- ADRAIN without keep: the tile that it releases (R172). -/
def Command.releases (c : Command) : Option Nat :=
  match c.instr with
  | .adrain _ o => if o.imm.getLsbD 0 then none else some o.tile.toNat
  | _ => none

/-- The tiles of ADRAINs that have been performed and have not released theirs become zero and are no longer live: when the ADRAIN retires, or
before the next command (R158, R172). -/
def Core.releaseTiles (k : Core) : Core :=
  (k.fifo 3).foldl (fun k c =>
    match c.releases with
    | some t => if c.result.isSome ∧ c.phase = 0 then
        (k.clearTile t).setFifo 3 ((k.fifo 3).map (fun d => if d.id = c.id then { d with phase := 1 } else d))
      else k
    | none => k) k

/-- One MMA issue into a tile (R164). Every check of A comes before those of B, and the bank groups are compared last (R159). (DEDUCED, log 114) -/
def mmaIssue (s : State) (c : Command) (tile : Nat) (t : MTypes) (a b : Nat) : Perf :=
  let k := s.me
  let now := s.cycle
  let la := operandBytes t.ta t.ks 64 t.bka
  let lb := operandBytes t.tb t.ks 64 t.bkb
  if k.spansBlocked now c [srcSpan a la, srcSpan b lb] || k.tileHeld tile then .wait s
  else if k.mmaRun.isNone && !k.tileReady now tile then .wait s
  else match (k.operandFault a la 0).orElse (fun _ => k.operandFault b lb 1) with
    | some f => .fault s f
    | none =>
      if a / 16384 % 4 = b / 16384 % 4 then .fault s (.spad .bankGroup b 1)
      else
        let x := s.mread a la
        let y := s.mread b lb
        let (run, free) := nextRun k.mmaRun t now
        let finish (s : State) : Perf := .go (s.mapMe (fun k =>
          { (((k.setLive tile true).setTready tile (now + (if t.mx then 6 else 12))).occupy 3 free).readBanks now [(a, la), (b, lb)] with mmaRun := some run })) c
        if t.mx then
          let eb := k.eb.toInt
          match (List.range 4096).findSome? (fun i => mmaFault t eb x y (i / 64) (i % 64)) with
          | some m => .fault s ⟨.exactRange, { FaultAt.none with opidx := m }⟩
          | none =>
            let new := ((List.range 4096).map (fun i => mmaExact t eb x y (i / 64) (i % 64) (k.element tile i))).toArray
            finish ((s.setMe (k.setTile tile 4096 (fun i => (new.getD i (0, false)).1))).raiseAovf (new.any (fun e => e.2)))
        else
          let new := ((List.range 4096).map (fun i => mmaFloat t x y (i / 64) (i % 64) ((k.element tile i).toNat % 2 ^ 32))).toArray
          finish ((s.setMe (k.setTile tile 4096 (fun i => BitVec.ofNat 96 (new.getD i (0, 0)).1))).raiseFlags
            (new.foldl (fun f e => f ||| e.2) 0))

/-- One MMAC issue: four steps, those before a faulting one kept (R165). One that drains the bank reads acc0, whose latency has passed (R173).
(DEDUCED, log 114) -/
def mmacIssue (s : State) (c : Command) (t : MTypes) (a b : Nat) : Perf :=
  let k := s.me
  let now := s.cycle
  let la := operandBytes t.ta 256 32 t.bka
  let lb := operandBytes t.tb 256 32 t.bkb
  if k.spansBlocked now c [srcSpan a la, srcSpan b lb] || k.tileHeld 0 then .wait s
  else match (k.operandFault a la 0).orElse (fun _ => k.operandFault b lb 1) with
    | some f => .fault s f
    | none =>
      if a / 16384 % 4 = b / 16384 % 4 then .fault s (.spad .bankGroup b 1)
      else
        let x := s.mread a la
        let y := s.mread b lb
        let run := (List.range 4).foldl (fun (r : Counting × Option Nat) st =>
          match r.2 with
          | some _ => r
          | none =>
            match countStep t k.eb.toInt x y st r.1 with
            | .ok n => (n, none)
            | .error m => (r.1, some m)) (k.counting, none)
        let u := (s.withCounting run.1).mapMe (fun k =>
          let k := if run.1.autos = 0 then k else k.setTready 0 (now + 6)
          { ((k.setTready 12 (now + 6)).occupy 3 (now + 4 + 32 * run.1.autos)).readBanks now [(a, la), (b, lb)] with mmaRun := none })
        if run.1.autos ≠ 0 ∧ !k.tileReady now 0 then .wait s
        else match run.2 with
        | some m => .fault u ⟨.exactRange, { FaultAt.none with opidx := m }⟩
        | none => .go u c

/-! ### Spill images (R168) -/

def combCode : Option (Nat × Nat) → Nat
  | some (1, 0) => 0
  | some (0, 1) => 1
  | some _ => 2
  | none => 0

def codeComb : Nat → Nat × Nat
  | 0 => (1, 0)
  | 1 => (0, 1)
  | _ => (0, 0)

/-- Bytes of a spill image. -/
def spillImage (k : Core) : List Byte :=
  let live := !k.counters.isEmpty
  natBytes 2 (wrapInt 16 k.cwb.toInt) ++ natBytes 2 0 ++ natBytes 4 (if live then k.cbound.toNat else 0) ++
  natBytes 1 (if live then combCode k.combination else 0) ++ natBytes 55 0 ++
  (List.range 16384).flatMap (fun g =>
    natBytes 9 (((List.range 4).map (fun j => (Table.get 0 k.counters (4 * g + j)).toNat * 2 ^ (18 * j))).sum))

/-- A spill image read back: w, bound, combination, counters; none where a check of R168 fails. A counter at or above its combination's class
count is loaded as any other. (DEDUCED, log 111) -/
def readImage (bs : List Byte) : Option (Int × Nat × (Nat × Nat) × Table (BitVec 18)) :=
  let num (lo n : Nat) : Nat := bytesNat ((bs.drop lo).take n)
  let bound := num 4 4
  let groups := (List.range 16384).foldl (fun (acc : List Byte × List (Nat × BitVec 18)) g =>
    let x := bytesNat (acc.1.take 9)
    (acc.1.drop 9, (List.range 4).foldl (fun l j =>
      let v := BitVec.ofNat 18 (x / 2 ^ (18 * j))
      if v = 0 then l else (4 * g + j, v) :: l) acc.2)) (bs.drop 64, [])
  let counters := groups.2.reverse
  if num 2 2 ≠ 0 ∨ num 9 55 ≠ 0 ∨ 2 < num 8 1 ∨ 131071 < bound ∨ counters.any (fun c => decide (bound < c.2.toInt.natAbs)) then none
  else some (sext 16 (num 0 2), bound, codeComb (num 8 1), counters)

/-- CMERGE of a checked image into the bank (R168): the new state and whether it drained. -/
def Counting.merge (x : Counting) (eb : Int) (w : Int) (bound : Nat) (comb : Nat × Nat) (counters : Table (BitVec 18)) : Counting :=
  if !x.liveBank then { x with counters := counters, w := w, bound := bound, comb := some comb }
  else if w = x.w ∧ x.comb = some comb ∧ x.bound + bound ≤ 131071 then
    { x with counters := counters.foldl (fun t c => Table.set 0 t c.1 (Table.get 0 t c.1 + c.2)) x.counters, bound := x.bound + bound }
  else { x.autoDrain eb w with counters := counters, bound := bound, comb := some comb }

/-! ### Images of tiles (R67, R171, R172) -/

/-- An element converted for ADRAIN (R67, R172). -/
def drainElement (conf : AccConf) (eb : Int) (tc : BitVec 4) (x : BitVec 96) : Lane :=
  let v : FVal := if conf = .fp then fmt32.val (x.toNat % 2 ^ 32) else FVal.ofInt x.toInt eb false
  if tc = 6 then let r := FVal.toInt .rne true 32 v; (wrapInt 32 r.1, r.2)
  else if tc = 12 ∧ conf = .fp then (x.toNat % 2 ^ 32, 0)
  else (fmtOf tc).enc .rne false v

/-- An element from ALOAD's image (R171): the element, flags, and AOVF; a finite value that is rounded or saturated raises NX (R59). (DEDUCED,
log 24) -/
def loadElement (conf : AccConf) (eb : Int) (ta : BitVec 4) (x : Nat) : BitVec 96 × BitVec 5 × Bool :=
  if conf = .fp then
    let r := fmt32.enc .rne false ((fmtOf ta).val x)
    (BitVec.ofNat 96 r.1, r.2, false)
  else
    let hi : Int := 2 ^ 95 - 1
    let lo : Int := -(2 ^ 95)
    let v : FVal := if ta = 6 then FVal.ofInt (sext 32 x) 0 false else fmt32.val x
    match v with
    | .nan _ => (0, flagNV, false)
    | .inf neg => (BitVec.ofInt 96 (if neg then lo else hi), flagNV, true)
    | .fin neg m e =>
      let (i, nx) := roundInt .rne neg m (e - eb)
      let z := clampInt lo hi i
      (BitVec.ofInt 96 z, if nx || decide (z ≠ i) then flagNX else 0, decide (z ≠ i))

def imageElement (bs : Array Byte) (n i : Nat) : Nat :=
  ((List.range n).map (fun j => (bs.getD (n * i + j) 0).toNat * 256 ^ j)).sum

/-! ### The words -/

/-- Retire a matrix word: the array is busy for some cycles, a tile or the bank readable after its latency; a run of MMA ends. -/
def State.matrixDone (s : State) (c : Command) (busy : Nat) (wrote : List (Nat × Nat)) : Perf :=
  .go (s.mapMe (fun k =>
    let k := wrote.foldl (fun k w => k.setTready w.1 (s.cycle + w.2)) k
    { k.occupy 3 (s.cycle + busy) with mmaRun := none })) (c.finish .ok 0)

/-- Perform a word of MAJ 0xA0 but ADRAINP. A spill of a bank that is not live clears CBOUND as any other does (R168). (DEDUCED, log 98) A
CDRAIN, or a CMERGE that drains, waits while a pending peer drain holds acc0 (R167, R176). (DEDUCED, log 113) What reads acc0 to add a bank's sum
waits for its latency (R173). -/
def performMatrixWord (s : State) (fn : Nat) (h : Header) (o : EngOps) (c : Command) : Perf :=
  let k := s.me
  let now := s.cycle
  let ga := (c.vals.getD 0 0).toNat
  let gb := (c.vals.getD 1 0).toNat
  let tile := o.tile.toNat
  match fn with
  | 0x00 =>
    match mmaIssue s c (tile + c.slot) (engTypes o) ga gb with
    | .go t c => .go t (c.finish .ok 0)
    | e => e
  | 0x01 =>
    match mmacIssue s c (engTypes o) ga gb with
    | .go t c => .go t (c.finish .ok 0)
    | e => e
  | 0x02 =>
    if k.spansBlocked now c [srcSpan ga spillBytes] || !k.tileReady now 12 then .wait s
    else match k.imageFault ga spillBytes 512 0 with
      | some f => .fault s f
      | none =>
        match readImage (k.spad.readBytes ga spillBytes) with
        | none => .fault s (.spad .illegalOperand ga 0)
        | some (w, bound, comb, counters) =>
          let eb := k.eb.toInt
          if w < eb ∨ eb + 63 < w then .fault s (.spad .exactRange ga 0)
          else
            let x := k.counting.merge eb w bound comb counters
            if x.autos ≠ 0 ∧ (k.tileHeld 0 ∨ !k.tileReady now 0) then .wait s
            else ((s.withCounting x).mapMe (fun k => k.readBanks now [(ga, spillBytes)])).matrixDone c (144 + 32 * x.autos)
              (if x.autos = 0 then [(12, 6)] else [(12, 6), (0, 6)])
  | 0x03 =>
    if k.spansBlocked now c [dstSpan ga spillBytes] || !k.tileReady now 12 then .wait s
    else match k.imageFault ga spillBytes 512 2 with
      | some f => .fault s f
      | none =>
        ((s.xstore ga (spillImage k)).mapMe (fun k => { k with counters := [], combination := none, cbound := 0 })).matrixDone
          { c with nextCycle := now + 144 } 144 [(12, 6)]
  | 0x04 =>
    if !k.tileReady now 12 || k.tileHeld 0 || (!k.counters.isEmpty && !k.tileReady now 0) then .wait s else s.drainBank.matrixDone c 32 [(0, 6)]
  | 0x06 =>
    if o.imm.getLsbD 0 then
      (s.mapMe (fun k => { k with counters := [], combination := none, cwb := 0, cbound := 0 })).matrixDone c 1 [(12, 1)]
    else if k.isArmed tile || k.tileHeld tile then .wait s
    else (s.mapMe (fun k => k.clearTile tile)).matrixDone c 1 [(tile, 1)]
  | 0x07 =>
    let sz := imageBytes o.ta
    let n := k.tileSize
    if k.isArmed tile || k.tileHeld tile || k.spansBlocked now c [srcSpan ga (n * sz)] then .wait s
    else match k.imageFault ga (n * sz) 512 0 with
      | some f => .fault s f
      | none =>
        let bs := s.mread ga (n * sz)
        let new := ((List.range n).map (fun i => loadElement k.conf k.eb.toInt o.ta (imageElement bs sz i))).toArray
        let t := s.setMe ((k.setTile tile n (fun i => (new.getD i (0, 0, false)).1)).setLive tile true)
        let t := (t.raiseFlags (new.foldl (fun f e => f ||| e.2.1) 0)).raiseAovf (new.any (fun e => e.2.2))
        (t.mapMe (fun k => k.readBanks now [(ga, n * sz)])).matrixDone c (match k.conf with | .fp => if o.ta = 11 then 8 else 16 | .exact => 16 | .count => 4) [(tile, 6)]
  | 0x08 =>
    let sz := imageBytes o.tc
    let n := k.tileSize
    if k.isArmed tile || k.tileHeld tile || !k.tileReady now tile || (k.conf == .count && !k.tileReady now 12) ||
        k.spansBlocked now c [dstSpan ga (n * sz)] then .wait s
    else match k.imageFault ga (n * sz) 512 2 with
      | some f => .fault s f
      | none =>
        let s := if k.conf = .count then s.drainBank else s
        let k := s.me
        let out := (List.range n).map (fun i => drainElement k.conf k.eb.toInt o.tc (k.element tile i))
        let t := (s.xstore ga (out.flatMap (fun e => natBytes sz e.1))).raiseFlags (out.foldl (fun f e => f ||| e.2) 0)
        t.matrixDone { c with nextCycle := now + 6 } (ceilDiv (n * sz) 1024) [(tile, 6)]
  | 0x0A =>
    match k.barrierFault ga with
    | some f => .fault s { f with loc := { f.loc with opidx := 0 } }
    | none =>
      if gb = 0 ∨ 15 < gb ∨ k.isArmed tile then .fault s ⟨.illegalOperand, { FaultAt.none with opidx := 1 }⟩
      else if k.tileHeld tile then .wait s
      else
        (s.mapMe (fun k => { k.setLive tile true with armed := Table.set none k.armed tile (some ⟨gb, ga⟩) })).matrixDone c 1 []
  | 0x0B =>
    if gb / 2 ^ 14 ≠ 0 then .fault s ⟨.illegalOperand, { FaultAt.none with opidx := 1 }⟩
    else (s.mapMe (fun k => { k with fmt := Table.set 0 k.fmt o.imm.toNat (BitVec.ofNat 32 gb) })).matrixDone c 1 []
  | 0x0C =>
    if k.spansBlocked now c [srcSpan ga 64] then .wait s
    else match k.imageFault ga 64 64 0 with
      | some f => .fault s f
      | none =>
        let entry (i : Nat) : Nat := bytesNat (k.spad.readBytes (ga + 4 * i) 4)
        if (List.range 16).any (fun i => entry i / 2 ^ 14 != 0) then .fault s (.spad .illegalOperand ga 0)
        else
          let fmt := (List.range 16).foldl (fun t i => Table.set 0 t i (BitVec.ofNat 32 (entry i))) k.fmt
          (s.mapMe (fun k => { k with fmt := fmt })).matrixDone c 1 []
  | 0x0D =>
    if k.tileHeld tile || !k.tileReady now tile then .wait s
    else
      let q := o.imm.toNat % 32
      let p := rename h.rot c.rrb o.va.toNat
      let t := s.setV p (buildV 32 0 (fun i => some ((k.element tile ((2 * q + i / 64) * 64 + i % 64)).toNat % 2 ^ 32))) (BitVec.allOnes 512)
      let t := if c.slot = 0 then t.mapMe (fun k => { k with vready := Table.set 0 k.vready (vreadyKey .x p) (now + 4) }) else t
      t.matrixDone c 1 []
  | 0x0E =>
    let sz := imageBytes o.ta
    let n := 4096 * sz
    if k.spansBlocked now c [srcSpan gb n, dstSpan ga n] then .wait s
    else match (k.operandFault gb n 0).orElse (fun _ => k.operandFault ga n 2) with
      | some f => .fault s (.spad f.cause ga 2)
      | none =>
        if ga / 16384 % 4 = gb / 16384 % 4 then .fault s (.spad .bankGroup ga 2)
        else
          let bs := s.mread gb n
          let out := (List.range 4096).flatMap (fun i =>
            (List.range sz).map (fun j => bs.getD (sz * (i % 64 * 64 + i / 64) + j) 0))
          ((s.xstore ga out).mapMe (fun k => k.readBanks now [(gb, n)])).matrixDone { c with nextCycle := now + 6 } (2 * (n / 1024)) []
  | _ => .go s (c.finish .ok 0)

/-- One issue of a matrix record, on behalf of its slot (R175). With FTS an entry of an accepted combination that does not suit CONF raises the
accumulator-configuration fault of R164 at the issue. (DEDUCED, log 112) -/
def performMatrixIssue (s : State) (fn : Nat) (r : RecOps) (c : Command) : Perf :=
  let i := recIter r c.w c.iter
  let s := { s with cur := { s.cur with slot := i.j } }
  if !s.me.slotLive i.j then .go s c
  else
    let wrap (p : Perf) : Perf := match p with
      | .fault t f => .fault t (i.fault f)
      | p => p
    match recOperand r c.vals i 0, recOperand r c.vals i 1 with
    | .fault f, _ => .fault s (i.fault f)
    | _, .fault f => .fault s (i.fault f)
    | .spad a, .spad b =>
      let t := if r.fts = 1 then entryTypes (Table.get 0 s.me.fmt (i.i3 % 16)) else recTypes r
      if fn = 1 then
        if i.j ≠ 0 then .fault s (i.fault (.bare .speculation))
        else if r.fts = 1 ∧ !(t.ta = 13 ∧ t.tb = 13 ∧ !(t.sga && t.sgb)) then .fault s (i.fault ⟨.illegalOperand, FaultAt.none⟩)
        else wrap (mmacIssue s c t a b)
      else if !t.accepted then .fault s (i.fault ⟨.illegalOperand, FaultAt.none⟩)
      else if r.fts = 1 ∧ !suits s.me.conf t then .fault s (i.fault ⟨.accConfig, FaultAt.none⟩)
      else wrap (mmaIssue s c (r.opx.toNat % 16 + i.j) t a b)
    | _, _ => .fault s (i.fault ⟨.illegalOperand, FaultAt.none⟩)

end Sys2Proof.Machine
end

