-- ==== Sys2Proof/Machine/Transfer.lean ====
section
/-! DEFINITION. The transfer engine's words and records XCOPY, XGATH, XSCAT and XFILL (R187 to R191), what the engines share when they
touch memory (R38, R188, R190, R278, R349), and XPOP and XSTAT (R185). -/

namespace Sys2Proof.Machine
open Sys2Proof

/-! ### Memory as an engine touches it (R188, R234, R277, R278, R349) -/

/-- The space of a kind code: 1 virtual, 2 scratchpad. -/
def spaceOf (kind : Nat) : Space := if kind = 2 then .spad else .virt

/-- A byte that lies elsewhere as an engine reads it: from the answer of its command's read (R354). (DESIGN CHOICE, log 97) -/
def State.farByte (s : State) (core pa : Nat) : Byte :=
  match (s.core core).reads.find? (fun r => decide (r.addr ≤ pa) && decide (pa < r.addr + r.bytes)) with
  | some r => r.byte pa
  | none => s.physRead false pa

/-- Why the home did not give a byte that lies elsewhere (R354). -/
def State.farFault (s : State) (core pa : Nat) : Option FaultInfo :=
  match (s.core core).reads.find? (fun r => decide (r.addr ≤ pa) && decide (pa < r.addr + r.bytes)) with
  | some r => r.lost
  | none => s.remoteFault pa

/-- One byte as an engine reads it: the scratchpad, or L2; for a slot, under its store buffers. -/
def State.engByte (s : State) (core slot : Nat) (sp : Space) (a : Nat) : Byte :=
  let k := s.core core
  match (if slot = 0 then none else slotByte k.round.stores slot sp a) with
  | some b => b
  | none =>
    match sp with
    | .spad => k.spad.read a
    | .virt =>
      match s.resolve core k.asid a .read with
      | some pa => if s.isRemote pa then s.farByte core pa else s.physRead false pa
      | none => 0

def State.engBytes (s : State) (core slot : Nat) (sp : Space) (a n : Nat) : List Byte :=
  (List.range n).map (fun i => s.engByte core slot sp ((a + i) % 2 ^ 64))

/-- Check 1 of R188: the scratchpad range (R38). -/
def State.engRange (s : State) (core : Nat) (sp : Space) (a n opidx : Nat) : Option FaultInfo :=
  if sp = .spad ∧ !(s.core core).inSpad a n then some (.spad .scratchRange a opidx) else none

/-- Check 2 of R188: translation and protection of n virtual bytes. (DEDUCED, log 23) -/
def State.engXlate (s : State) (core : Nat) (sp : Space) (write : Bool) (a n opidx : Nat) : Option FaultInfo :=
  if sp = .spad then none
  else (List.range n).findSome? (fun i =>
    let va := (a + i) % 2 ^ 64
    let asid := (s.core core).asid
    match s.resolve core asid va (if write then .write else .read) with
    | none => some (s.lostAt core asid va opidx)
    | some pa => (s.physFault asid pa write false).map (fun c => .virt c va opidx))

/-- Check 3 of R188: uncorrectable data in a source, which its home must also serve (R354); for a destination, frames that take no
store (R372, R373). -/
def State.engData (s : State) (core : Nat) (sp : Space) (p : Perm) (a n opidx : Nat) : Option FaultInfo :=
  if sp = .spad then none
  else (List.range n).findSome? (fun i =>
    let va := (a + i) % 2 ^ 64
    (s.resolve core (s.core core).asid va p).bind (fun pa => (s.checkData (fun _ => false) p va opidx [pa]).orElse (fun _ =>
      if p = .read then (s.farFault core pa).map (fun f => { f with loc := { f.loc with opidx := opidx } }) else none)))

/-- The three checks of a source. -/
def State.engSource (s : State) (core : Nat) (sp : Space) (a n opidx : Nat) : Option FaultInfo :=
  (s.engRange core sp a n opidx).orElse (fun _ =>
    (s.engXlate core sp false a n opidx).orElse (fun _ => s.engData core sp .read a n opidx))

/-- The checks of a destination; a retired frame or a fenced stack takes no store either (R372, R373). -/
def State.engTarget (s : State) (core : Nat) (sp : Space) (a n opidx : Nat) : Option FaultInfo :=
  (s.engRange core sp a n opidx).orElse (fun _ =>
    (s.engXlate core sp true a n opidx).orElse (fun _ => s.engData core sp .write a n opidx))

/-- Runs of consecutive bytes within aligned 512-byte blocks (R349). -/
def runsOf : List (Nat × Byte) → List (Nat × List Byte)
  | [] => []
  | (a, b) :: r =>
    match runsOf r with
    | (a', bs) :: t => if a' = a + 1 ∧ a / 512 = a' / 512 then (a, b :: bs) :: t else (a, [b]) :: (a', bs) :: t
    | [] => [(a, [b])]

/-- Bytes with their addresses. -/
def spread (a : Nat) (data : List Byte) : List (Nat × Byte) := data.zipIdx.map (fun b => ((a + b.2) % 2 ^ 64, b.1))

/-- The same in writing order, each with the place of its first byte among the writes. -/
def runsAt : List (Nat × Nat × Byte) → List (Nat × Nat × List Byte)
  | [] => []
  | (n, a, b) :: r =>
    match runsAt r with
    | (n', a', bs) :: t => if a' = a + 1 ∧ a / 512 = a' / 512 then (n, a, b :: bs) :: t else (n, a, [b]) :: (n', a', bs) :: t
    | [] => [(n, a, [b])]

/-- What an engine's writes leave to be done: the runs for other devices and the host, which wait for entries (R349), each with its place
among the writes, and the runs that this device's memory took (R278). -/
structure Wrote where
  far : List (Nat × Nat × List Byte)
  near : List (Nat × Nat)

/-- Write bytes for an engine: local ones land at L2, or past it at system scope (R278). A slot's bytes go to its store buffer. -/
def State.engWrite (s : State) (core slot : Nat) (system : Bool) (sp : Space) (writes : List (Nat × Byte)) : State × Wrote :=
  let k := s.core core
  if slot ≠ 0 then ((runsOf writes).foldl (fun (s : State) w => s.slotStore sp w.1 w.2) s, ⟨[], []⟩)
  else match sp with
    | .spad => (s.mapCore core (fun k => { k with spad := writes.foldl (fun (m : Memory) w => m.write w.1 w.2) k.spad }), ⟨[], []⟩)
    | .virt =>
      let phys := writes.zipIdx.filterMap (fun w => (s.resolve core k.asid w.1.1 .write).map (fun pa => (w.2, pa, w.1.2)))
      let near := (phys.filter (fun w => !s.isRemote w.2.1)).map (fun w => w.2)
      (near.foldl (fun (s : State) w => s.physWrite system w.1 w.2) s,
        ⟨runsAt (phys.filter (fun w => s.isRemote w.2.1)), (runsOf near).map (fun r => (r.1, r.2.length))⟩)

/-- A command's bytes on their way, and those that have landed: `place` gives ITER and slot of a byte by its place among the writes (R368). -/
def Command.wrote' (c : Command) (w : Wrote) (place : Nat → Nat × Nat) : Command :=
  { c with out := w.far.map (fun x => ⟨(place x.1).1, (place x.1).2, x.2.1, x.2.2⟩), wrote := c.wrote ++ w.near }

/-- The writes of a command's issue: each byte has the issue's ITER. -/
def Iter.place (i : Iter) (_ : Nat) : Nat × Nat := (i.pack, i.j)

/-- Post the next piece of a command, while an entry is free, no unacknowledged entry overlaps it, and the piece before it has been
acknowledged, so that nothing lands after one that its home refuses (R349, R376). (DEDUCED, log 17) -/
def State.postPiece (s : State) (core port : Nat) (c : Command) : State × List Piece :=
  let k := s.core core
  match c.out with
  | [] => (s, [])
  | p :: r =>
    if k.postedRoom 1 && !(k.posted.any (fun e => e.command == some c.id)) && !k.postedOverlap ((List.range p.data.length).map (fun i => p.addr + i)) then
      ((s.mapCore core (fun k => { k with posted := k.posted ++
          [⟨c.id, k.postedEntry, p.addr, p.data, port, c.seq, c.pc, some c.id, none, p.iter, p.slot, true, 0, []⟩] })).post
        (.offer p.addr s.devnum core k.postedEntry), r)
    else (s, c.out)

/-- Whether bytes for an engine to read or write overlap an unacknowledged entry of the core (R349). -/
def State.engOverlap (s : State) (core : Nat) (sp : Space) (a n : Nat) : Bool :=
  sp == .virt && !(s.core core).posted.isEmpty &&
    (s.core core).postedOverlap ((List.range n).filterMap (fun i => s.resolve core (s.core core).asid ((a + i) % 2 ^ 64) .any))

/-- The ranges that a command holds. -/
def Core.ownRanges (k : Core) (c : Command) : List Range := k.liveRanges.filter (fun r => r.owner == .command c.id)

/-- A command waits while one of its ranges meets another's (R190). (DEDUCED, log 18) -/
def Core.rangesBlocked (k : Core) (now : Nat) (c : Command) : Bool := (k.ownRanges c).any (fun x => k.blocked now c x.space x.lo x.len)

/-- Physical bytes of a command's virtual ranges (R277). -/
def State.rangePas (s : State) (core : Nat) (c : Command) : List Nat :=
  ((s.core core).ownRanges c).flatMap (fun x => if x.space = .virt then s.pasOf core (s.core core).asid x.lo x.len else [])

/-! ### Words and records of the engines of chapter 8 -/

def csl : List SeqId := [.c, .l, .s]
def cs : List SeqId := [.c, .s]
def cl : List SeqId := [.c, .l]

/-- Hold a command with its slot; a seventeenth stops the slot (R209, R235). -/
def State.deferCommand (s : State) (c : Command) : State :=
  let t := s.me.slot s.cur.slot
  if 16 ≤ t.deferred.length then s.squash
  else { s.mapMe (fun k => k.setSlot s.cur.slot { t with deferred := t.deferred ++ [{ c with single := true }] }) with nextId := s.nextId + 1 }

/-- A word that enters an engine's FIFO with its ranges; for a slot it is held with the slot where `defers` says so. -/
def engineWord (i : Instr) (port : Nat) (who : List SeqId) (noSpec defers : Bool) (h : Header) (o : EngOps) (cmd : State → Command)
    (spans : State → Command → List Span) (s : State) : Result :=
  issueWord (engineIssue i port who noSpec o) h (fun s =>
    let c := cmd s
    if s.cur.slot ≠ 0 ∧ defers then .done (s.deferCommand c) s.pc16
    else s.enterWith port c 16 (spans s c)) s

/-- The command of a record header of these engines. -/
def State.headerCommand (s : State) (i : Instr) (h : Header) (r : RecOps) : Command := { s.recordCommand i h r with phase := 0 }

/-- A record header of these engines, with its ranges. -/
def engineRecord (i : Instr) (port : Nat) (who : List SeqId) (h : Header) (r : RecOps) (spans : State → Command → List Span)
    (s : State) : Result :=
  issueWord (recordIssue i port who false r) h (fun s =>
    s.enterWith port (s.headerCommand i h r) 64 (spans s (s.headerCommand i h r))) s

/-! ### Transfers -/

/-- A transfer of n units: kinds, unit size, places of unit i, the fill pattern, whether it is performed past L2. -/
structure Move where
  n : Nat
  size : Nat
  sk : Nat
  dk : Nat
  src : Nat → Nat
  dst : Nat → Nat
  fill : Option Nat
  system : Bool

/-- The first failing check of a unit (R188): each check of the source before the destination's. -/
def State.unitFault (s : State) (core : Nat) (m : Move) (i : Nat) : Option FaultInfo :=
  let a := m.src i % 2 ^ 64
  let d := m.dst i % 2 ^ 64
  let src (f : Option FaultInfo) : Option FaultInfo := if m.fill.isSome then none else f
  (src (s.engRange core (spaceOf m.sk) a m.size 0)).orElse (fun _ =>
    (s.engRange core (spaceOf m.dk) d m.size 2).orElse (fun _ =>
      (src (s.engXlate core (spaceOf m.sk) false a m.size 0)).orElse (fun _ =>
        (s.engXlate core (spaceOf m.dk) true d m.size 2).orElse (fun _ =>
          (src (s.engData core (spaceOf m.sk) .read a m.size 0)).orElse (fun _ => s.engData core (spaceOf m.dk) .write d m.size 2)))))

/-- The bytes that the first k units write, every source byte read before. -/
def State.unitWrites (s : State) (core : Nat) (m : Move) (k : Nat) : List (Nat × Byte) :=
  (List.range k).flatMap (fun i => (List.range m.size).map (fun j =>
    let d := (m.dst i + j) % 2 ^ 64
    (d, match m.fill with
      | some p => BitVec.ofNat 8 (p / 256 ^ (d % 8))
      | none => s.engByte core 0 (spaceOf m.sk) ((m.src i + j) % 2 ^ 64))))

/-- A unit meets an unacknowledged entry of the core (R349). -/
def State.unitOverlap (s : State) (core : Nat) (m : Move) : Bool :=
  !(s.core core).posted.isEmpty && (List.range m.n).any (fun i =>
    (m.fill.isNone && s.engOverlap core (spaceOf m.sk) (m.src i) m.size) || s.engOverlap core (spaceOf m.dk) (m.dst i) m.size)

/-- Move the units before the first failing one (R188). -/
def State.moveUnits (s : State) (core : Nat) (m : Move) : State × Wrote × Nat × Option FaultInfo :=
  let bad := (List.range m.n).findSome? (fun i => (s.unitFault core m i).map (fun f => (i, f)))
  let k := match bad with
    | some (i, _) => i
    | none => m.n
  let (t, w) := s.engWrite core 0 m.system (spaceOf m.dk) (s.unitWrites core m k)
  (t, w, k, bad.map (fun b => b.2))

/-- Fields of a transfer word's IMM (R187). -/
def xferKd (o : EngOps) : Nat := o.imm.toNat % 4
def xferKs (o : EngOps) : Nat := o.imm.toNat / 4 % 4

/-- idx(i), from VB at acceptance. -/
def Command.index (c : Command) (i : Nat) : Nat := bytesNat ((c.copy.drop (4 * i)).take 4)

/-- The transfer of a word: FN 0 XCOPY, 1 XGATH, 2 XSCAT, 3 XFILL. -/
def wordMove (fn : Nat) (o : EngOps) (c : Command) : Move :=
  let d := (c.vals.getD 0 0).toNat
  let b := (c.vals.getD 1 0).toNat
  let p := (c.vals.getD 2 0).toNat
  let len := p % 2 ^ 24
  let unit := 2 ^ (p / 2 ^ 24 % 16)
  let system := o.sco == 4
  match fn with
  | 0 => ⟨len, 1, xferKs o, xferKd o, fun i => b + i, fun i => d + i, none, system⟩
  | 1 => ⟨len, unit, xferKs o, xferKd o, fun i => b + c.index i * unit, fun i => d + i * unit, none, system⟩
  | 2 => ⟨len, unit, xferKs o, xferKd o, fun i => b + i * unit, fun i => d + c.index i * unit, none, system⟩
  | _ => ⟨len, 1, 1, xferKd o, fun i => b + i, fun i => d + i, some b, system⟩

/-- The parameter register's fields are in range (R187). (DEDUCED, log 28) -/
def paramsOk (fn : Nat) (o : EngOps) (p : Nat) : Bool :=
  let len := p % 2 ^ 24
  let ul := p / 2 ^ 24 % 16
  p / 2 ^ 28 % 16 == 0 && (o.imm.getLsbD 4 || p / 2 ^ 32 == 0) &&
  (if fn = 1 ∨ fn = 2 then decide (ul ≤ 14) && decide (1 ≤ len) && decide (len ≤ 128) else ul == 0)

/-- The interval from the lowest to the highest of some stretches. -/
def hullSpan (sp : Space) (loads : Bool) (size : Nat) (places : List Nat) : List Span :=
  match places.min?, places.max? with
  | some lo, some hi => [⟨sp, lo % 2 ^ 64, hi - lo + size, loads⟩]
  | _, _ => []

/-- The ranges of a transfer word (R190). -/
def wordSpans (fn : Nat) (o : EngOps) (c : Command) : List Span :=
  let m := wordMove fn o c
  let n := if fn = 1 ∨ fn = 2 then min m.n 128 else m.n
  let places (f : Nat → Nat) : List Nat := if fn = 1 ∨ fn = 2 then (List.range n).map f else if n = 0 then [] else [f 0]
  let size := if fn = 1 ∨ fn = 2 then m.size else m.n
  (if m.fill.isSome then [] else hullSpan (spaceOf m.sk) false size (places m.src)) ++ hullSpan (spaceOf m.dk) true size (places m.dst)

/-- A transfer word. -/
def transferWord (i : Instr) (fn : Nat) (h : Header) (o : EngOps) (s : State) : Result :=
  if (fn = 1 ∨ fn = 2) ∧ s.cur.slot = 0 ∧ s.me.vecAwaited s.cur.seq s.cycle o.vb.toNat then
    issueWord (engineIssue i 0 csl false o) h (fun s => .wait s none) s
  else engineWord i 0 csl false true h o (fun s =>
      { s.engCommand i h o with copy := if fn = 1 ∨ fn = 2 then natBytes 512 (s.v o.vb.toNat).toNat else [] })
    (fun _ c => wordSpans fn o c) s

/-- XCOPY (R188). -/
def execXcopy (h : Header) (o : EngOps) (s : State) : Result := transferWord (.xcopy h o) 0 h o s
/-- XGATH (R188). -/
def execXgath (h : Header) (o : EngOps) (s : State) : Result := transferWord (.xgath h o) 1 h o s
/-- XSCAT (R188). -/
def execXscat (h : Header) (o : EngOps) (s : State) : Result := transferWord (.xscat h o) 2 h o s
/-- XFILL (R188). -/
def execXfill (h : Header) (o : EngOps) (s : State) : Result := transferWord (.xfill h o) 3 h o s

/-- Perform a transfer word up to its remote pieces. -/
def performTransferWord (s : State) (fn : Nat) (o : EngOps) (c : Command) : Perf :=
  if !paramsOk fn o (c.vals.getD 2 0).toNat then .fault s (.bare .illegalOperand)
  else
    let m := wordMove fn o c
    if s.unitOverlap s.cur.core m then .wait s
    else
      let (t, w, k, bad) := s.moveUnits s.cur.core m
      let c := { c.wrote' w (fun n => (n / m.size, 0)) with iter := k }
      match bad with
      | some f => .go t { c with failed := some { f with loc := { f.loc with iter := k } } }
      | none => .go t (c.finish .ok (m.n * m.size))

/-! ### Transfer records (R189) -/

/-- Place of operand m with a unit index of its own in place of the iteration's (R189: indexed operands). -/
def indexedOperand (r : RecOps) (vals : List Word) (m : Nat) (idx : Nat) : Located :=
  match m with
  | 0 => locate r.ka r.da (vals.getD 0 0) (r.da.off.toInt + idx) 0
  | _ => locate r.kc r.dc (vals.getD 2 0) (r.dc.off.toInt + idx) 2

/-- The address of a located memory operand. -/
def Located.addr (l : Located) : Nat :=
  match l with
  | .virt a => a
  | .spad a => a
  | _ => 0

/-- The indices of a record's issues as memory holds them at acceptance, for the ranges it enters. (DEDUCED, log 27) -/
def State.peekIndices (s : State) (r : RecOps) (c : Command) : List Nat :=
  (List.range (recTotal r c.w)).map (fun n =>
    let i := recIter r c.w n
    let k := s.me
    match recOperand r c.vals i 1 with
    | .virt a => bytesNat (s.virtBytes s.cur.core k.asid .core i.j a 4)
    | .spad a => bytesNat (k.spadFor i.j a 4)
    | _ => 0)

/-- The ranges of a transfer record (R190). (DEDUCED, log 27) -/
def State.recordSpans (s : State) (fn : Nat) (r : RecOps) (c : Command) : List Span :=
  let unit (d : Descriptor) : Nat := 2 ^ d.ulog.toNat
  let indexed (m : Nat) (loads : Bool) : List Span :=
    let d := if m = 0 then r.da else r.dc
    hullSpan (spaceOf (if m = 0 then r.ka else r.kc).toNat) loads (unit d)
      ((s.peekIndices r c).map (fun x => (((c.vals.getD m 0).toNat + (d.off.toInt + x) * unit d) % 2 ^ 64).toNat))
  let plain (m ext : Nat) (loads : Bool) : List Span := recSpan r c.vals c.w m ext loads
  if recTotal r c.w = 0 then []
  else match fn with
    | 0 => plain 0 (unit r.da) false ++ plain 2 (unit r.dc) true
    | 1 => indexed 0 false ++ plain 1 4 false ++ plain 2 (unit r.dc) true
    | 2 => plain 0 (unit r.da) false ++ plain 1 4 false ++ indexed 2 true
    | _ => plain 2 (unit r.dc) true

/-- XCOPY's record. -/
def execXcopyRecord (h : Header) (r : RecOps) (s : State) : Result :=
  engineRecord (.xcopyRecord h r) 0 csl h r (fun s c => s.recordSpans 0 r c) s
/-- XGATH's record. -/
def execXgathRecord (h : Header) (r : RecOps) (s : State) : Result :=
  engineRecord (.xgathRecord h r) 0 csl h r (fun s c => s.recordSpans 1 r c) s
/-- XSCAT's record. -/
def execXscatRecord (h : Header) (r : RecOps) (s : State) : Result :=
  engineRecord (.xscatRecord h r) 0 csl h r (fun s c => s.recordSpans 2 r c) s
/-- XFILL's record. -/
def execXfillRecord (h : Header) (r : RecOps) (s : State) : Result :=
  engineRecord (.xfillRecord h r) 0 csl h r (fun s c => s.recordSpans 3 r c) s

/-- OPX fields of a transfer record (R189). -/
def recSystem (r : RecOps) : Bool := r.opx.toNat / 256 % 8 == 4
def recCredit (r : RecOps) : Bool := r.opx.getLsbD 0
def recTriggered (r : RecOps) : Bool := r.opx.getLsbD 1
def recTrigger (r : RecOps) : Nat := r.opx.toNat / 4 % 32

/-- Credit the barrier at x:bar of the core with some bytes (R191). -/
def State.credit (s : State) (core bar bytes : Nat) : Option State :=
  let k := s.core core
  match k.barrierFault bar with
  | some _ => none
  | none => (k.barrier bar).credit bytes |>.map (fun b => s.mapCore core (fun k => k.setBarrier bar b))

/-- Bytes of a record's last issue that are still to be credited (R191), and the barrier's offset. -/
def Command.owing (c : Command) : Option (Nat × Nat) :=
  match c.instr with
  | .xcopyRecord _ r | .xgathRecord _ r | .xscatRecord _ r | .xfillRecord _ r =>
    if recCredit r && c.phase != 0 then some (r.ext.toNat, c.phase) else none
  | _ => none

/-- A deferred issue of a record for its slot (R209). -/
def State.deferIssue (s : State) (c : Command) (j : Nat) : State :=
  let t := { s with cur := { s.cur with slot := j } }
  { t.deferCommand { c with slot := j, id := s.nextId } with cur := s.cur }

/-- The transfer of one issue (R189), or its fault. -/
def State.issueMove (s : State) (fn : Nat) (r : RecOps) (c : Command) (i : Iter) : Move ⊕ FaultInfo :=
  let core := s.cur.core
  let unit := 2 ^ r.dc.ulog.toNat
  let go (src dst : Located) : Move ⊕ FaultInfo :=
    match firstFault [src, dst] with
    | some f => .inr f
    | none => .inl ⟨1, unit, r.ka.toNat, r.kc.toNat, fun _ => src.addr, fun _ => dst.addr,
        if fn = 3 then some (c.vals.getD 3 0).toNat else none, recSystem r⟩
  match fn with
  | 0 => go (recOperand r c.vals i 0) (recOperand r c.vals i 2)
  | 3 => go .none (recOperand r c.vals i 2)
  | _ =>
    match recOperand r c.vals i 1 with
    | .fault f => .inr f
    | b =>
      match s.engSource core (spaceOf r.kb.toNat) b.addr 4 1 with
      | some f => .inr f
      | none =>
        let idx := bytesNat (s.engBytes core 0 (spaceOf r.kb.toNat) b.addr 4)
        if fn = 1 then go (indexedOperand r c.vals 0 idx) (recOperand r c.vals i 2)
        else go (recOperand r c.vals i 0) (indexedOperand r c.vals 2 idx)

/-- One issue of a transfer record (R189): for a slot it is held with the slot. Its bytes are credited when it has retired (R191). -/
def performTransferIssue (s : State) (fn : Nat) (r : RecOps) (c : Command) : Perf :=
  let i := recIter r c.w c.iter
  if i.j ≠ 0 ∧ !c.single then
    if s.me.slotLive i.j then .go (s.deferIssue c i.j) c else .go s c
  else match s.issueMove fn r c i with
    | .inr f => .fault s (i.fault f)
    | .inl m =>
      if s.unitOverlap s.cur.core m then .wait s
      else
        let (t, w, _, bad) := s.moveUnits s.cur.core m
        match bad with
        | some f => .fault s (i.fault f)
        | none => .go t { c.wrote' w i.place with phase := m.size }

/-! ### Sources that lie elsewhere (R354) -/

/-- The physical bytes of a virtual source. -/
def State.sourcePas (s : State) (core sk a n : Nat) : List Nat :=
  if sk = 2 then [] else (s.pasOf core (s.core core).asid a n).filter (fun pa => s.isRemote pa)

/-- The bytes elsewhere that a move reads, up to the first unit that the checks on this device stop. -/
def State.movePas (s : State) (core : Nat) (m : Move) : List Nat :=
  if m.fill.isSome ∨ m.sk = 2 then []
  else ((List.range m.n).takeWhile (fun i => (s.engRange core (spaceOf m.dk) (m.dst i % 2 ^ 64) m.size 2).isNone &&
      (s.engXlate core .virt false (m.src i % 2 ^ 64) m.size 0).isNone && (s.engXlate core (spaceOf m.dk) true (m.dst i % 2 ^ 64) m.size 2).isNone)).flatMap
    (fun i => s.sourcePas core m.sk (m.src i) m.size)

/-- The bytes elsewhere that the next turn of a transfer reads: an index comes before what it names. -/
def State.farSources (s : State) (core : Nat) (c : Command) : List Nat :=
  match c.instr with
  | .xcopy _ o => s.movePas core (wordMove 0 o c)
  | .xgath _ o => if paramsOk 1 o (c.vals.getD 2 0).toNat then s.movePas core (wordMove 1 o c) else []
  | .xscat _ o => if paramsOk 2 o (c.vals.getD 2 0).toNat then s.movePas core (wordMove 2 o c) else []
  | .xcopyRecord _ r => issue 0 r
  | .xgathRecord _ r => issue 1 r
  | .xscatRecord _ r => issue 2 r
  | _ => []
where
  issue (fn : Nat) (r : RecOps) : List Nat :=
    let i := recIter r c.w c.iter
    if i.j ≠ 0 ∧ !c.single then []
    else
      let index := if fn = 0 then [] else s.sourcePas core r.kb.toNat (recOperand r c.vals i 1).addr 4
      index ++ (if index.all (fun pa => ((s.core core).readOf c.id pa).any RemoteRead.answered) then
        (match { s with cur := ⟨core, c.seq, c.slot⟩ }.issueMove fn r c i with
         | .inl m => s.movePas core m
         | .inr _ => [])
      else [])

/-- A transfer's reads of what lies elsewhere that have not begun: it makes them before it moves. None may overlap an unacknowledged entry
(R349). -/
def State.toRead (s : State) (core : Nat) (c : Command) : List Nat :=
  s.unread core c.id (s.farSources core c)

/-! ### What an engine does next (R183, R252) -/

/-- The engines of a core work while its tile runs (R319, R321, R370). -/
def Core.working (k : Core) : Bool :=
  match k.tile with
  | some t => !t.dead && !t.stopping && !t.killed
  | none => false

/-- Something of a command is still to be done before it may complete. -/
def Command.unfinished (c : Command) : Bool := c.result.isNone || !c.out.isEmpty || c.failed.isSome || c.owing.isSome

/-- The command that a port may start or go on with: the first that is unfinished, at the head but for the vector ports, which begin
a word while earlier ones are still completing, and the matrix engine behind an ADRAIN (R134, R173, R183, R252). One that has missed its cycle
waits for those before it (R186). -/
def Core.nextCommand (k : Core) (port : Nat) : Option Command :=
  match Table.get none k.stopped port with
  | some _ => none
  | none =>
    match (k.fifo port).find? Command.unfinished with
    | none => none
    | some c =>
      let head := ((k.fifo port).head?.map (fun d => d.id)) == some c.id
      if c.failed.isSome then (if head then some c else none)
      else if c.notifies then none
      else if 4 ≤ port ∨ head ∨ (port = 3 ∧ ((k.fifo port).takeWhile (fun d => d.id != c.id)).all Command.drains) then some c else none

/-- Ports whose engines are taken up in a cycle after the sequencers' turns, in this order: the matrix engine before peers' tiles arrive
(R65), the vector unit for S, X and L, so that a place that a pop frees in a data queue serves a push of the cycle (R41). -/
def enginePorts : List Nat := [3, 6, 5, 4]

/-- The engine of a port has been taken up in the present cycle, or has nothing to take up. -/
def State.portDone (s : State) (core port : Nat) : Bool :=
  let k := s.core core
  !k.working || (k.nextCommand port).isNone || Table.get 0 k.portAt port == s.cycleOf core + 1

/-! ### XPOP and XSTAT (R185, R277) -/

/-- The popped entry's command leaves the list beside the FIFO, and the popping sequencer inherits its writes to other devices and the
host, and those of the port's commands before it (R277). -/
def Core.popResult (k : Core) (q : SeqId) (port : Nat) : Core :=
  match Table.get [] k.resultOf port with
  | [] => k
  | id :: rest =>
    ({ k with resultOf := Table.set [] k.resultOf port rest } : Core).inherit q
      ((k.posted.filter (fun (e : RemoteWrite) => e.port == port && (match e.command with | some j => decide (j ≤ id) | none => false))).map (fun e => e.id))

/-- XPOP waits for an entry, pops it into GA, and acquires what it reports. -/
def execXpop (h : Header) (o : EngOps) (s : State) : Result :=
  issueWord { Issue.scalar [] [o.ga] with noSpec := true } h (fun s =>
    let p := o.imm.toNat % 8
    match s.me.results' p with
    | [] => .wait s (some (32 + p))
    | x :: rest =>
      if s.me.older s.cur.seq (32 + p) s.cycle then .wait s (some (32 + p))
      else .done (((s.mapMe (fun k => (k.popResult s.cur.seq p).setResults p rest)).acquireCaches s.cur.core .device).setG o.ga x) s.pc16) s

/-- XSTAT: units retired by the command being performed, entries of the command FIFO and of the result FIFO. (DEDUCED, log 29) -/
def execXstat (h : Header) (o : EngOps) (s : State) : Result :=
  issueWord { Issue.scalar [] [o.ga] with noSpec := true } h (fun s =>
    let p := o.imm.toNat % 8
    let fifo := s.me.fifo p
    let units := match fifo.find? (fun c => c.started) with
      | some c => c.iter
      | none => 0
    .done (s.setG o.ga (BitVec.ofNat 64 (units % 2 ^ 32 * 2 ^ 32 +
      (fifo.filter (fun c => c.result.isNone)).length * 2 ^ 8 + (s.me.results' p).length))) s.pc16) s

end Sys2Proof.Machine
end

