-- ==== Sys2Proof/Machine/Fabric.lean ====
section
/-! DEFINITION. The pull fabric, producer's side: notices (R192), the published-block table (R194, R299), PUBLISH (R193), ADRAINP's
publication (R176), RECLAIM and REXTEND (R195), and the steps of blocks: expiry, reclaim traps, completions and declines. -/

namespace Sys2Proof.Machine
open Sys2Proof

/-! ### Notices (R192) -/

def noticeAddr (n : BitVec 128) : Nat := n.toNat % 2 ^ 43
def noticeBid (n : BitVec 128) : Nat := n.toNat / 2 ^ 43 % 2 ^ 15
def noticeProd (n : BitVec 128) : Nat := n.toNat / 2 ^ 58 % 512
def noticeKind (n : BitVec 128) : Nat := n.toNat / 2 ^ 67 % 4
def noticePri (n : BitVec 128) : Nat := n.toNat / 2 ^ 69 % 8
def noticeSize (n : BitVec 128) : Nat := n.toNat / 2 ^ 72 % 2 ^ 24
def noticeTag (n : BitVec 128) : Nat := n.toNat / 2 ^ 96

def mkNotice (tag size pri kind prod bid addr : Nat) : BitVec 128 :=
  BitVec.ofNat 128 (tag * 2 ^ 96 + size * 2 ^ 72 + pri * 2 ^ 69 + kind * 2 ^ 67 + prod * 2 ^ 58 + bid * 2 ^ 43 + addr)

/-- A reserved or unassigned field. -/
def noticeMalformed (n : BitVec 128) : Bool :=
  noticeSize n == 0 || (noticeKind n == 3 && noticeTag n / 2 ^ 24 != 0) ||
  (noticeKind n == 2 && (noticeAddr n / 256 != 0 || decide (11 < noticeAddr n % 16) || decide (11 < noticeAddr n / 16)))

/-- Number of 512-byte segments, and the length of one (R283). -/
def segmentsOf (size : Nat) : Nat := (size + 511) / 512
def segmentLength (size seg : Nat) : Nat := if 512 * (seg + 1) ≤ size then 512 else size - 512 * seg

/-! ### The published-block table (R194, R299) -/

def Core.block (k : Core) (slot : Nat) : Block := Table.get Block.free k.blocks slot
def Core.setBlock (k : Core) (slot : Nat) (b : Block) : Core := { k with blocks := Table.set Block.free k.blocks slot b }

/-- The lowest-numbered free slot. -/
def Core.freeSlot (k : Core) : Option Nat := (List.range 64).find? (fun i => !(k.block i).pinned)

def Block.bid (b : Block) (slot : Nat) : Nat := b.generation.toNat * 64 + slot

/-- Free a block's slot and its range; a completed drain empties its tile (R176, R194). -/
def Core.unpin (k : Core) (now slot : Nat) (pulled : Bool) : Core :=
  let b := k.block slot
  let k := (k.setBlock slot { Block.free with used := true, generation := b.generation, latest := b.latest }).dropRanges now (.block slot)
  if pulled && b.kind == 2 then k.clearTile b.addr else k

/-- The block that a BID names, if it is still pinned. -/
def Core.named (k : Core) (bid : Nat) : Option Nat :=
  let slot := bid % 64
  if (k.block slot).pinned && (k.block slot).bid slot == bid then some slot else none

/-- A core's state where it holds something, or else the saved state of a tile pre-empted there that holds it (R294, R320). -/
def State.coreWith (s : State) (core : Nat) (p : Core → Bool) : Core :=
  if p (s.core core) then s.core core
  else match s.contexts.find? (fun x => x.number == core && p x.state) with
    | some x => x.state
    | none => s.core core

def State.mapCoreWith (s : State) (core : Nat) (p : Core → Bool) (f : Core → Core) : State :=
  if p (s.core core) then s.mapCore core f
  else { s with contexts := s.contexts.map (fun x => if x.number = core ∧ p x.state then { x with state := f x.state } else x) }

/-- The notice of a block for a consumer on another device is held there no longer (R290, R355). -/
def State.told (s : State) (prod bid consumer : Nat) : State :=
  s.mapCoreWith prod (fun k => (k.named bid).isSome) (fun k =>
    match k.named bid with
    | none => k
    | some slot => k.setBlock slot { k.block slot with awaiting := (k.block slot).awaiting.filter (fun x => x != consumer) })

/-- One consumer is done with a block: a completed pull, or a decline (R194). -/
def State.lowerCount (s : State) (prod bid consumer : Nat) (pulled : Bool) : State :=
  (s.told prod bid consumer).mapCoreWith prod (fun k => (k.named bid).isSome) (fun k =>
    match k.named bid with
    | none => k
    | some slot =>
      let b := k.block slot
      if b.count ≤ 1 then k.unpin (s.cycleOf prod) slot pulled else k.setBlock slot { b with count := b.count - 1 })

/-- The command that published a block, where it still stands in its FIFO, with its port. -/
def Core.publisher (k : Core) (b : Block) : Option (Nat × Command) :=
  [1, 2, 3].findSome? (fun p => ((k.fifo p).find? (fun c => c.id == b.command)).map (fun c => (p, c)))

/-- A fault of work that a tile has sent out, for a sequencer of that tile, which may stand pre-empted meanwhile (R364). -/
def State.reportWith (s : State) (core : Nat) (p : Core → Bool) (seq : SeqId) (unit : Nat) (issuePc : Word) (i : FaultInfo) : State :=
  let k := s.coreWith core p
  let (s, ix) := (s.releaseCaches core .device).logFault (faultRecord s.tick issuePc (k.seq seq).pc core seq unit true i k.tile) k.launchOf
  let f : PendingFault := { ecause := ecauseOf i.cause true (ix.getD 0) ix.isNone, tick := s.tick, order := s.clock, stops := none }
  s.mapCoreWith core p (fun k => k.mapSeq seq (fun r => { r with pending := r.pending ++ [f] }))

/-- A notice of this device comes back: the command that published it faults, or its sequencer where that has completed, and the notice counts
as declined (R357, R364, R365, R374). -/
def State.noticeReturned (s : State) (bits : BitVec 128) (consumer : Nat) (i : FaultInfo) : State :=
  let prod := noticeProd bits
  let bid := noticeBid bits
  let has (k : Core) : Bool := (k.named bid).isSome
  let k := s.coreWith prod has
  match k.named bid with
  | none => s
  | some slot =>
    let b := k.block slot
    (match (if has (s.core prod) then k.publisher b else none) with
     | some (port, c) => s.faultCommand prod port c i
     | none => s.reportWith prod has b.seq (if b.kind = 3 then 2 else if b.kind = 2 then 3 else 1) b.pc i).lowerCount prod bid consumer false

/-- A message to the producer of a notice. -/
def declineOf (bits : BitVec 128) (dev consumer : Nat) : Message := .decline bits dev consumer

/-- Enter a block in a free slot and send its notices, in the descriptor's order (R193 steps 3 and 4). The range is the command's own,
handed to the block. -/
def State.publishBlock (s : State) (core slot : Nat) (c : Command) (b : Block) (tag pri addr : Nat) (range : Option Range) : State :=
  let k := s.core core
  let old := k.block slot
  let gen := if old.used then old.latest + 1 else 0
  let b := { b with
    pinned := true, used := true, generation := gen, latest := gen, count := b.consumers.length, expired := false, command := c.id, seq := c.seq,
    pc := c.pc, awaiting := (b.consumers.filter (fun x => x.2 != s.devnum)).map (fun x => x.1 + 512 * x.2) }
  let bits := mkNotice tag b.size pri b.kind core (b.bid slot) addr
  let s := s.mapCore core (fun k =>
    let k := k.setBlock slot b
    match range with
    | some r => { k with ranges := k.ranges ++ [{ r with owner := .block slot }] }
    | none => k)
  b.consumers.foldl (fun (s : State) x => s.post (.notice bits (x.1 + 512 * x.2) s.devnum k.asid none false)) s

/-- Lowest free inbox entry (R42). -/
def Core.inboxEntry (k : Core) : Option Nat := (List.range 64).find? (fun e => !(k.notices.any (fun n => n.entry == e)))

/-- A notice may enter a core's inbox: a tile of its ASID is resident and an entry is free (R290, R295). -/
def State.mayEnter (s : State) (core asid : Nat) : Bool :=
  (match (s.core core).tile with
   | some t => t.asid == asid
   | none => false) && (s.core core).inboxEntry.isSome

/-- A notice of a command that the fabric holds, or would hold if it arrived now, keeps it from completing; so does one for another device until
that has told of its entry (R290, R295, R355). (DEDUCED, log 33) -/
def State.noticeHeld (s : State) (core : Nat) (c : Command) : Bool :=
  (s.core core).blocks.any (fun b => b.2.pinned && b.2.command == c.id && (!b.2.awaiting.isEmpty ||
    s.posts.any (fun p => match p.msg with
      | .notice bits con dev asid held _ =>
        (held.isSome || (decide (con / 512 = s.devnum) && !s.mayEnter (con % 512) asid)) && dev == s.devnum &&
          noticeProd bits == core && noticeBid bits == b.2.bid b.1
      | _ => false)))

/-! ### PUBLISH (R193) -/

/-- The fields of a publish descriptor. -/
structure Publication where
  tag : Nat
  size : Nat
  pri : Nat
  kind : Nat
  addr : Nat
  timeout : Nat
  consumers : List (Nat × Nat)
  bad : Bool

def publication (d : List Byte) : Publication :=
  let f (lo n : Nat) : Nat := bytesNat ((d.drop lo).take n)
  let nc := f 20 1
  let con (i : Nat) : Nat := f (32 + 4 * i) 4
  let cons := (List.range (min nc 8)).map con
  { tag := f 0 4, size := f 4 3, pri := f 7 1 % 8, kind := f 7 1 / 8 % 4, addr := f 8 8, timeout := f 16 4,
    consumers := cons.map (fun x => (x % 512, x / 512 % 2 ^ 15)),
    bad := f 4 3 == 0 || f 7 1 / 32 != 0 || decide (1 < f 7 1 / 8 % 4) || f 8 8 % 512 != 0 || f 16 4 == 0 || nc == 0 || decide (8 < nc) ||
      f 21 11 != 0 || cons.any (fun x => x / 2 ^ 24 != 0) || ((List.range 8).drop nc).any (fun i => con i != 0) ||
      decide (cons.eraseDups.length < cons.length) }

/-- The fault of a command aimed at a fenced core (R374). -/
def fencedCore (core : Nat) : FaultInfo := ⟨.fencedTarget, { FaultAt.none with info := 7 * 2 ^ 27 + core }⟩

/-- Steps 1 and 2: the physical address of a block, or the fault (R193, R355). -/
def State.placeBlock (s : State) (core : Nat) (p : Publication) : Nat ⊕ FaultInfo :=
  let k := s.core core
  if p.bad || p.consumers.any (fun x => decide (1023 < x.2) || !s.reachable x.2) || (p.kind == 0 && !k.inSpad p.addr p.size) then
    .inr (.bare .illegalOperand)
  else match p.consumers.find? (fun x => x.2 == s.devnum && s.coreFenced x.1) with
  | some x => .inr (fencedCore x.1)
  | none =>
  if p.kind = 0 then .inl p.addr
  else match s.engXlate core .virt false p.addr p.size 3 with
    | some f => .inr f
    | none =>
      let shift (va : Nat) : Option (Nat × Nat) :=
        match s.tlbFind core k.asid va with
        | some e => some (e.shift, e.frame)
        | none => (s.walk k.asid va).map (fun e => (e.shift, e.frame))
      match shift p.addr with
      | some (sh, frame) =>
        if p.addr / 2 ^ sh = (p.addr + p.size - 1) / 2 ^ sh then .inl (frame * 2 ^ sh + p.addr % 2 ^ sh)
        else .inr (.virt .illegalOperand p.addr 3)
      | none => .inr (s.lostAt core k.asid p.addr 3)

/-- The span of a block, held off for stores. -/
def Publication.span (p : Publication) : Span := ⟨if p.kind = 0 then .spad else .virt, p.addr, p.size, false⟩

/-- The range that a descriptor names at acceptance, be it well formed or not: a fault of step 1 releases it (R193). -/
def Publication.spans (p : Publication) : List Span := if 1 < p.kind then [] else [p.span]

/-- Bytes at an offset of the scratchpad with what a store writes there. -/
def Access.onto (x : Access) (a : Nat) (bs : List Byte) : List Byte :=
  let put (at_ : Nat) (data : List Byte) (bs : List Byte) : List Byte :=
    bs.mapIdx (fun i b => if at_ ≤ a + i ∧ a + i < at_ + data.length then data.getD (a + i - at_) b else b)
  match x.kind with
  | .store data => put x.addr data bs
  | .vstore writes half =>
    half.foldl (fun bs h => bs.mapIdx (fun i b => if h.1 = a + i then (b &&& ~~~h.2.1) ||| (h.2.2 &&& h.2.1) else b))
      (writes.foldl (fun bs w => put w.1 w.2 bs) bs)
  | _ => bs

/-- The own sequencer's scratchpad stores that are not yet performed, which a push comes after (R183, R270, R277). -/
def State.ownStores (s : State) : List Access :=
  s.me.stores.filter (fun x => x.seq == s.cur.seq && x.space == .spad && s.cur.slot == 0)

/-- Each of them has its data, and no record of such stores has issues still to make. -/
def State.ownStoresFilled (s : State) : Bool :=
  s.ownStores.all (fun x => x.filled) &&
  (s.cur.slot != 0 || (s.me.memoryRecords s.cur.seq).all (fun c => c.result.isSome || c.loadRecord ||
    (match c.issueSpans c.iter with
     | some x => x.1 != .spad
     | none => true)))

/-- The word's command with its copy of the descriptor: as the earlier stores of its sequencer leave it. (DEDUCED, log 79) -/
def State.publishCommand (s : State) (i : Instr) (h : Header) (o : EngOps) : Command :=
  let a := (s.g o.ga).toNat
  { s.engCommand i h o with copy := s.ownStores.foldl (fun bs x => x.onto a bs) (s.xload a 64) }

/-- PUBLISH (R193): it waits for a range held on its descriptor (R190), and for the data of a vector store that comes before it. -/
def execPublish (h : Header) (o : EngOps) (s : State) : Result :=
  issueWord (engineIssue (.publish h o) 1 cs false o) h (fun s =>
    let c := s.publishCommand (.publish h o) h o
    let p := publication c.copy
    if s.cur.slot ≠ 0 then .done (s.deferCommand c) s.pc16
    else if s.rangeWait .spad (s.g o.ga).toNat 64 true then .wait s (some 13)
    else if !s.ownStoresFilled then .wait s none
    else s.enterWith 1 c 16 p.spans) s

/-- Check, place, wait for a slot, enter and send (R193). The outcome's number is the BID. -/
def State.publish (s : State) (core : Nat) (c : Command) (p : Publication) : Perf × Nat :=
  match s.placeBlock core p with
  | .inr f => (.fault (s.mapCore core (fun k => k.dropRanges (s.cycleOf core) (.command c.id))) f, 0)
  | .inl pa =>
    match (s.core core).freeSlot with
    | none => (.wait s, 0)
    | some slot =>
      let b : Block := { Block.free with
        kind := p.kind, addr := pa, vaddr := p.addr, size := p.size, consumers := p.consumers, deadline := s.tick + p.timeout }
      let x := p.span
      let t := s.publishBlock core slot c b p.tag p.pri (pa / 512) (some ⟨.block slot, x.space, x.lo, x.len, false, c.cycle, none⟩)
      (.go t c, ((t.core core).block slot).bid slot)

/-- Perform a PUBLISH word; a descriptor's place that is no multiple of 64 is an alignment fault, found before its range. (DEDUCED, log 33)
(DEDUCED, log 101) -/
def performPublish (s : State) (c : Command) : Perf :=
  let core := s.cur.core
  let a := (c.vals.getD 0 0).toNat
  if a % 64 ≠ 0 then .fault s (.spad .alignment a 3)
  else if !(s.core core).inSpad a 64 then .fault s (.spad .scratchRange a 3)
  else match s.publish core c (publication c.copy) with
    | (.go t c, bid) => .go (t.mapCore core (fun k => k.dropRanges (s.cycleOf core) (.command c.id))) (c.finish .ok bid)
    | (e, _) => e

/-- USH of a publishing record. -/
def recUsh (r : RecOps) : Nat := r.opx.toNat / 4 % 32

/-- PUBLISH's record (R193). -/
def execPublishRecord (h : Header) (r : RecOps) (s : State) : Result :=
  engineRecord (.publishRecord h r) 1 cs h r (fun _ c => recSpan r c.vals c.w 0 (2 ^ (r.da.ulog.toNat + recUsh r)) false) s

/-- One issue of a publishing record: the block at A, the descriptor at B read now, unless a range is held on it (R190); its block takes an
entry of the scoreboard (R253). -/
def performPublishIssue (s : State) (r : RecOps) (c : Command) : Perf :=
  let core := s.cur.core
  let i := recIter r c.w c.iter
  if i.j ≠ 0 ∧ !c.single then
    if s.me.slotLive i.j then .go (s.deferIssue c i.j) c else .go s c
  else
    let a := recOperand r c.vals i 0
    let b := recOperand r c.vals i 1
    match firstFault [a, b] with
    | some f => .fault s (i.fault f)
    | none =>
      match s.engRange core .spad b.addr 64 1 with
      | some f => .fault s (i.fault f)
      | none =>
        if s.me.blocked s.cycle c .spad b.addr 64 || decide (64 ≤ s.me.liveRanges.length) then .wait s
        else
        let p := publication (((s.core core).spad.readBytes b.addr 4) ++ natBytes 3 (2 ^ (r.da.ulog.toNat + recUsh r)) ++
          [((s.core core).spad.read (b.addr + 7) &&& 0xE7) ||| (if r.ka = 1 then 8 else 0)] ++ natBytes 8 a.addr ++
          ((s.core core).spad.readBytes (b.addr + 16) 48))
        match (s.publish core c p).1 with
        | .fault t f => .fault t (i.fault f)
        | e => e

/-! ### ADRAINP (R176) -/

/-- Perform ADRAINP: the tile becomes a block of KIND 2 with one consumer; the array is busy for a cycle (R173). Its timeout is not stated: a
free value. An armed tile is waited for. (DESIGN CHOICE, log 30) (DEDUCED, log 99) -/
def performAdrainp (s : State) (o : EngOps) (c : Command) : Perf :=
  let core := s.cur.core
  let k := s.me
  let tile := o.tile.toNat
  let target := (c.vals.getD 1 0).toNat
  if 512 ≤ target ∨ clusterOf target ≠ clusterOf core ∨ target = core then .fault s ⟨.illegalOperand, { FaultAt.none with opidx := 1 }⟩
  else if k.isArmed tile || k.tileHeld tile || !k.tileReady s.cycle tile || (k.conf == .count && !k.tileReady s.cycle 12) then .wait s
  else if s.coreFenced target then .fault s (fencedCore target)
  else match k.freeSlot with
    | none => .wait s
    | some slot =>
      let s := if k.conf = .count then s.drainBank else s
      let (x, s) := s.free
      let size := match k.conf with
        | .fp => 16384
        | .exact => 49152
        | .count => 12288
      let b : Block := { Block.free with
        kind := 2, addr := tile, size := size, consumers := [(target, s.devnum)], deadline := s.tick + 1 + x % (2 ^ 32 - 1) }
      let tt := o.imm.toNat % 16
      .go ((s.publishBlock core slot c b 0 (o.imm.toNat / 16 % 8) (tt * 16 + tile) none).mapMe (fun k => { k.occupy 3 (s.cycle + 1) with mmaRun := none }))
        (c.finish .ok 0)

/-! ### RECLAIM and REXTEND (R195, R283, R295) -/

/-- The producer withdraws a block: notices on their way enter withdrawn, those the fabric holds are gone, the others are told. -/
def State.withdraw (s : State) (core bid : Nat) : State :=
  let mine (bits : BitVec 128) (dev : Nat) : Bool := dev == s.devnum && noticeProd bits == core && noticeBid bits == bid
  let inbox (c : Nat) (k : Core) : List (BitVec 128 × Nat) :=
    (k.notices.filter (fun n => mine n.bits n.dev)).map (fun n => (n.bits, c + 512 * s.devnum))
  let entered := (List.range 512).flatMap (fun c => inbox c (s.core c)) ++ s.contexts.flatMap (fun x => inbox x.number x.state)
  let away := (((s.coreWith core (fun k => (k.named bid).isSome)).block (bid % 64)).consumers.filter (fun x => x.2 != s.devnum)).map (fun x => x.1 + 512 * x.2)
  let posts := s.posts.filterMap (fun p => match p.msg with
    | .notice bits con dev asid held w =>
      if mine bits dev then (if held.isSome then none else some { p with msg := .notice bits con dev asid held true }) else
        some { p with msg := .notice bits con dev asid held w }
    | _ => some p)
  let s := { s with posts := posts }
  let s := entered.foldl (fun (s : State) n => s.post (.withdrawal n.1 s.devnum n.2 false)) s
  let bits := mkNotice 0 0 0 0 core bid 0
  away.foldl (fun (s : State) c => s.post (.withdrawal bits s.devnum c false)) s

/-- A command performed on acceptance: its outcome or its fault, with the result entry it pushes; it waits for room there, and as a release at
device scope for C-seq's accesses before it (R183, R184, R195, R273, R277). (DEDUCED, log 31) -/
def acceptedWord (h : Header) (o : EngOps) (f : State → State × (Status ⊕ FaultInfo)) (s : State) : Result :=
  issueWord { Issue.scalar [o.gb, o.gc] [] with who := [.c], noSpec := true } h (fun s =>
    let rs := o.imm.getLsbD 15
    if !s.me.fifoRoom 1 || s.me.older s.cur.seq 1 s.cycle then .wait s (some 1)
    else if rs && !s.me.resultRoom 1 then .wait s none
    else if s.cBusy || s.me.unacknowledged (s.me.postedBefore .c) then .wait s none
    else
      let s := (s.releaseCaches s.cur.core .device).mapMe (fun k => k.takePart 1 false)
      let push (s : State) (st : Status) (v : Nat) : State := if rs then s.mapMe (fun k => k.pushResult 1 (resultWord st v) s.nextId) else s
      match f s with
      | (t, .inl st) => .done (push t st 0) s.pc16
      | (_, .inr i) =>
        let (t, ix) := s.reportTo s.cur.core s.cur.seq 1 s.pc i none
        .done (push t .faulted (ix.getD 0)) s.pc16) s

/-- Completions of a block that pulls of the present cycle have sent (R199). -/
def State.completions (s : State) (core bid : Nat) : Nat :=
  (s.posts.filter (fun p => p.sent * s.kOf core / 8 == s.cycleOf core && (match p.msg with
    | .completion bits dev _ => dev == s.devnum && noticeProd bits == core && noticeBid bits == bid
    | _ => false))).length

/-- RECLAIM: pulls that complete in the same cycle have come before it (R199). (DEDUCED, log 31) -/
def execReclaim (h : Header) (o : EngOps) (s : State) : Result :=
  acceptedWord h o (fun s =>
    let x := (s.g o.gb).toNat
    if x / 2 ^ 15 ≠ 0 then (s, .inr (.bare .illegalOperand))
    else match s.me.named x with
      | none => (s, .inl .gone)
      | some slot =>
        if (s.me.block slot).count ≤ s.completions s.cur.core x then (s, .inl .gone)
        else (((s.withdraw s.cur.core x).mapMe (fun k =>
          let k := k.unpin s.cycle slot false
          k.setBlock slot { k.block slot with freedAt := s.cycle + 1 })), .inl .ok)) s

/-- REXTEND. (DEDUCED, log 31) -/
def execRextend (h : Header) (o : EngOps) (s : State) : Result :=
  acceptedWord h o (fun s =>
    let x := (s.g o.gb).toNat
    let t := (s.g o.gc).toNat
    if x / 2 ^ 15 ≠ 0 then (s, .inr (.bare .illegalOperand))
    else if t = 0 ∨ 2 ^ 32 ≤ t then (s, .inr (.bare .illegalOperand))
    else match s.me.named x with
      | none => (s, .inl .gone)
      | some slot =>
        (s.mapMe (fun k => k.setBlock slot { k.block slot with deadline := s.tick + t, expired := false }), .inl .ok)) s

/-! ### Steps of blocks (R194, R199, R292) -/

/-- A RECLAIM has freed the block in the present cycle (R199). -/
def State.justFreed (s : State) (core bid : Nat) : Bool :=
  ((s.core core).block (bid % 64)).freedAt == s.cycleOf core + 1 && ((s.core core).block (bid % 64)).bid (bid % 64) == bid

/-- No pull of a block completes any more in the present cycle: a RECLAIM has acted on it, or its deadline has (R199). -/
def State.cycleClosed (s : State) (core bid : Nat) : Bool :=
  s.justFreed core bid ||
  (match (s.core core).named bid with
   | some slot => ((s.core core).block slot).expired && ((s.core core).block slot).deadline == s.tick
   | none => false)

/-- The post of a number. -/
def State.postOf (s : State) (id : Nat) : Option Message := (s.posts.find? (fun p => p.id == id)).map (fun p => p.msg)

/-- A completion of this block is on its way. -/
def State.completing (s : State) (core bid : Nat) : Bool :=
  s.posts.any (fun p => match p.msg with
    | .completion bits dev _ => dev == s.devnum && noticeProd bits == core && noticeBid bits == bid
    | _ => false)

/-- A block of a core with a count has reached its deadline; a completion of the same tick counts first (R194, R199). (DEDUCED, log 34) -/
def State.expires (s : State) (core slot : Nat) : Bool :=
  let b := (s.core core).block slot
  b.pinned && !b.expired && decide (b.deadline ≤ s.tick) && !(s.tick == b.deadline && s.completing core (b.bid slot))

/-- BLOCK_EXPIRY: at its deadline a block with a count expires (R194). -/
def execBlockExpiry (core slot : Nat) (s : State) : Result :=
  if 512 ≤ core ∨ 64 ≤ slot then .fault .noSuchUnit
  else if s.expires core slot then .next (s.mapCore core (fun k => k.setBlock slot { k.block slot with expired := true }))
  else .next s

/-- A sequencer of a running tile takes what is due to it without a turn: it has halted, or its word, or a copy of it, waits; no RKCOMMIT has
begun to apply slots (R233, R237, R292, R364). The precise cause of a word goes first (R363), which its turn sees to. -/
def State.atBoundary (s : State) (core : Nat) (q : SeqId) : Bool :=
  let k := s.core core
  (match k.tile with
   | some t => !t.dead && !t.stopping && !t.killed
   | none => false) && !s.coreFenced core && ((k.seq q).halted || (k.seq q).waitSince.isSome) && !(k.round.st == .running && k.round.owner == q && k.round.closing)

/-- RECLAIM_TRAP_DELIVERY: at a word boundary of C-seq, outside a handler; a halted C-seq takes it at its HALT (R194, R292, R364). -/
def execReclaimTrapDelivery (core : Nat) (s : State) : Result :=
  if 512 ≤ core then .fault .noSuchUnit
  else
    match (s.core core).due .c with
    | .reclaim _ _ => .next (if s.atBoundary core .c then s.deliver core .c else s)
    | _ => .next s

/-- REPORTED_FAULT_DELIVERY: at the sequencer's next word boundary, outside a handler; a halted sequencer takes it too (R364). -/
def execReportedFaultDelivery (core seq : Nat) (s : State) : Result :=
  if 512 ≤ core ∨ 4 ≤ seq then .fault .noSuchUnit
  else
    let q := seqOfNat seq
    match (s.core core).due q with
    | .fault _ => .next (if s.atBoundary core q then s.deliver core q else s)
    | _ => .next s


/-- PULL_COMPLETION_ARRIVAL (R194): none comes in the cycle after a RECLAIM of its block has acted there (R199). -/
def execPullCompletionArrival (msg : Nat) (s : State) : Result :=
  match s.postOf msg with
  | some (.completion bits dev con) =>
    .next (if dev = s.devnum ∧ s.justFreed (noticeProd bits) (noticeBid bits) then s
      else if dev = s.devnum then (s.unpost msg).lowerCount (noticeProd bits) (noticeBid bits) con true else s)
  | _ => .next s

/-- DECLINE_ARRIVAL (R194). -/
def execDeclineArrival (msg : Nat) (s : State) : Result :=
  match s.postOf msg with
  | some (.decline bits dev con) =>
    .next (if dev = s.devnum then (s.unpost msg).lowerCount (noticeProd bits) (noticeBid bits) con false else s)
  | _ => .next s

end Sys2Proof.Machine
end

