-- ==== Sys2Proof/Machine/Helm.lean ====
section
/-! DEFINITION. The pull fabric, consumer's side: the notice inbox (R196, R290, R295), the Helm's choice and its pulls (R283 to R288), NTAKE,
NDECL and NWAIT (R197), HELMSET and PWIN (R198), peer drains (R177, R297) and the accumulate-on-write ports (R202, R296). -/

namespace Sys2Proof.Machine
open Sys2Proof

/-! ### HELMCFG and PWINCFG (R45) -/

def Core.spkey (k : Core) : Bool := k.helmcfg.getLsbD 52
def Core.pace (k : Core) : Nat := k.helmcfg.toNat / 2 ^ 36 % 2 ^ 16
def Core.ageTicks (k : Core) : Nat := k.helmcfg.toNat / 2 ^ 20 % 2 ^ 16
def Core.ingress (k : Core) : Nat := k.helmcfg.toNat % 2 ^ 20
def Core.windowBase (k : Core) : Nat := k.pwincfg.toNat % 2 ^ 20
def Core.windowSize (k : Core) : Nat := k.pwincfg.toNat / 2 ^ 20

/-! ### The inbox -/

def Notice.kind (n : Notice) : Nat := noticeKind n.bits
/-- SIZE rounded up to 512. -/
def Notice.rounded (n : Notice) : Nat := 512 * segmentsOf (noticeSize n.bits)
/-- Whether the notice goes into the window. -/
def Notice.windowed (n : Notice) : Bool := decide (n.kind ≤ 1)
/-- Window bytes that the notice holds now (R286). -/
def Notice.reserved (n : Notice) : Nat :=
  if n.windowed && !n.withdrawn && n.state != .waiting then n.rounded else if n.windowed && n.state == .pulling then n.rounded else 0

def Core.putNotice (k : Core) (n : Notice) : Core :=
  { k with notices := k.notices.map (fun m => if m.entry = n.entry then n else m) }
def Core.dropNotice (k : Core) (n : Notice) : Core := { k with notices := k.notices.filter (fun m => m.entry != n.entry) }
def Core.noticeAt (k : Core) (entry : Nat) : Option Notice := k.notices.find? (fun n => n.entry == entry)

/-- Consumer id of a core of this device. -/
def State.consumerId (s : State) (core : Nat) : Nat := core + 512 * s.devnum

/-- A KIND 2 notice whose tile kinds differ between its source, pre-empted or not, and the core (R177). -/
def State.drainMismatch (s : State) (core : Nat) (bits : BitVec 128) : Bool :=
  let p := s.coreWith (noticeProd bits) (fun k => (k.named (noticeBid bits)).isSome)
  let k := s.core core
  let tt := noticeAddr bits / 16
  p.conf != k.conf || p.eb != k.eb || decide (tilesOf k.conf ≤ tt)

/-- The ready counter that a KIND 3 notice names, and its receiver offset (R192). -/
def noticeCounter (bits : BitVec 128) : Nat := noticeTag bits / 2 ^ 19 % 32
def noticeOffset (bits : BitVec 128) : Nat := noticeTag bits % 2 ^ 19

def Core.counter (k : Core) (n : Nat) : ReadyCounter := Table.get ReadyCounter.clear k.counters32 n
def Core.setCounter (k : Core) (n : Nat) (r : ReadyCounter) : Core := { k with counters32 := Table.set ReadyCounter.clear k.counters32 n r }

/-- A transfer that falls outside the armed region (R202). -/
def Core.outsideRegion (k : Core) (bits : BitVec 128) : Bool :=
  let r := k.counter (noticeCounter bits)
  decide (noticeOffset bits < r.base) || decide (r.base + 4 * r.words < noticeOffset bits + noticeSize bits)

/-- A transfer refused on arrival: after its counter's flag is set, or outside its armed region (R202). -/
def Core.refusesTransfer (k : Core) (bits : BitVec 128) : Bool :=
  let r := k.counter (noticeCounter bits)
  r.flag || (r.armed && k.outsideRegion bits)

/-- Put a notice into the inbox, landed and withdrawn where its block is gone (R283, R290). -/
def State.enterNotice (s : State) (core : Nat) (bits : BitVec 128) (dev asid : Nat) (withdrawn : Bool) : State :=
  s.mapCore core (fun k =>
    match k.inboxEntry with
    | none => k
    | some e =>
      if withdrawn && decide (1 < noticeKind bits) then k
      else
        let n : Notice := ⟨e, bits, dev, asid, s.tick, k.helm.nextOrder, if withdrawn then .landed else .waiting, 0, 0, 0, 0, withdrawn, false⟩
        { k with notices := k.notices ++ [n], helm := { k.helm with nextOrder := k.helm.nextOrder + 1 } })

/-- A notice that the port engine declines on its arrival (R177, R192, R202). -/
def State.declines (s : State) (core : Nat) (bits : BitVec 128) : Bool :=
  noticeMalformed bits || (noticeKind bits == 2 && s.drainMismatch core bits) || (noticeKind bits == 3 && (s.core core).refusesTransfer bits)

/-- A notice enters the inbox or is declined; the producer of another device is told (R290, R355). -/
def State.acceptNotice (s : State) (core : Nat) (bits : BitVec 128) (dev asid : Nat) (withdrawn : Bool) : State :=
  if s.declines core bits then s.post (declineOf bits dev (s.consumerId core))
  else
    let t := s.enterNotice core bits dev asid withdrawn
    if dev = s.devnum then t else t.post (.entered bits dev (s.consumerId core))

/-- A withdrawal has come before the notice that it withdraws: the notice enters withdrawn (R283). -/
def State.earlyWithdrawal (s : State) (bits : BitVec 128) (dev consumer : Nat) : Bool :=
  s.posts.any (fun p => match p.msg with
    | .withdrawal b d c true => c == consumer && d == dev && noticeProd b == noticeProd bits && noticeBid b == noticeBid bits
    | _ => false)

/-- A notice has come: withdrawals of its slot that came early are used up, and so are those of earlier generations (R283). -/
def State.useWithdrawals (s : State) (bits : BitVec 128) (dev consumer : Nat) : State :=
  { s with posts := s.posts.filter (fun p => match p.msg with
    | .withdrawal b d c true => !(c == consumer && d == dev && noticeProd b == noticeProd bits && noticeBid b % 64 == noticeBid bits % 64)
    | _ => true) }

/-- A notice that names a fenced core takes the fenced-target fault to its producer (R374). -/
def State.refuseFenced (s : State) (bits : BitVec 128) (con dev asid : Nat) : State :=
  if dev = s.devnum then s.noticeReturned bits con (fencedCore (con % 512))
  else s.post (.undelivered (.notice bits con dev asid none false) (7 * 2 ^ 27 + con % 512))

/-- An earlier notice of the same producer for the same consumer has not entered yet (R290). -/
def State.earlierNotice (s : State) (id : Nat) (bits : BitVec 128) (consumer dev : Nat) : Bool :=
  (s.posts.takeWhile (fun p => p.id != id)).any (fun p => match p.msg with
    | .notice b c d _ _ _ => c == consumer && d == dev && noticeProd b == noticeProd bits
    | _ => false)

/-- The held notice of a core that enters next: the one refused in the earliest cycle, then lowest producer device and core (R290, R295). -/
def State.nextHeld (s : State) (core : Nat) : Option (Nat × BitVec 128 × Nat × Nat × Bool) :=
  let held := s.posts.filterMap (fun p => match p.msg with
    | .notice bits con dev asid (some t) w =>
      if con = s.consumerId core ∧ s.mayEnter core asid ∧ !s.earlierNotice p.id bits con dev then
        some ((t * s.kOf core / 8, dev, noticeProd bits), (p.id, bits, dev, asid, w)) else none
    | _ => none)
  (held.foldl (fun (b : Option ((Nat × Nat × Nat) × (Nat × BitVec 128 × Nat × Nat × Bool))) x => match b with
    | none => some x
    | some y =>
      if x.1.1 < y.1.1 ∨ (x.1.1 = y.1.1 ∧ (x.1.2.1 < y.1.2.1 ∨ (x.1.2.1 = y.1.2.1 ∧ x.1.2.2 < y.1.2.2))) then some x else some y) none).map
    (fun x => x.2)

/-- NOTICE_ARRIVAL: a notice reaches its consumer's port engine (R290, R295); while others are held that may enter, it is held behind
them. One that a withdrawal has overtaken enters withdrawn (R283). -/
def execNoticeArrival (msg : Nat) (s : State) : Result :=
  match s.postOf msg with
  | some (.notice bits con dev asid none w) =>
    if con / 512 ≠ s.devnum ∨ s.earlierNotice msg bits con dev then .next s
    else
      let core := con % 512
      let w := w || s.earlyWithdrawal bits dev con
      let s := s.useWithdrawals bits dev con
      if s.coreFenced core then .next ((s.unpost msg).refuseFenced bits con dev asid)
      else if noticeMalformed bits then .next ((s.unpost msg).post (declineOf bits dev con))
      else if s.mayEnter core asid && (s.nextHeld core).isNone then .next ((s.unpost msg).acceptNotice core bits dev asid w)
      else .next { s with posts := s.posts.map (fun p => if p.id = msg then { p with msg := .notice bits con dev asid (some s.tick) w } else p) }
  | _ => .next s

/-- The notices that the fabric holds for a core. -/
def State.heldFor (s : State) (core : Nat) : List (Nat × BitVec 128 × Nat × Nat) :=
  s.posts.filterMap (fun p => match p.msg with
    | .notice bits con dev asid (some _) _ => if con = s.consumerId core then some (p.id, bits, dev, asid) else none
    | _ => none)

/-- HELD_NOTICE_ENTRY; one held for a core that has been fenced is refused (R374). -/
def execHeldNoticeEntry (core : Nat) (s : State) : Result :=
  if 512 ≤ core then .fault .noSuchUnit
  else if s.coreFenced core then
    match s.heldFor core with
    | (id, bits, dev, asid) :: _ => .next ((s.unpost id).refuseFenced bits (s.consumerId core) dev asid)
    | [] => .next s
  else match s.nextHeld core with
    | some (id, bits, dev, asid, w) => .next ((s.unpost id).acceptNotice core bits dev asid w)
    | none => .next s

/-! ### Choosing (R284 to R287) -/

/-- Free runs of the window in bytes: offset and length, rising. -/
def Core.freeRuns (k : Core) : List (Nat × Nat) :=
  let n := k.windowSize / 512
  let taken (i : Nat) : Bool := k.notices.any (fun m => decide (0 < m.reserved) && decide (m.window ≤ 512 * i) && decide (512 * i < m.window + m.reserved))
  (List.range n).foldr (fun i (acc : List (Nat × Nat)) =>
    if taken i then acc
    else match acc with
      | (o, l) :: r => if o = 512 * (i + 1) then (512 * i, l + 512) :: r else (512 * i, 512) :: acc
      | [] => [(512 * i, 512)]) []

/-- The run that a block of a rounded size takes (R286). -/
def Core.chooseRun (k : Core) (size : Nat) : Option (Nat × Nat) :=
  let fit := k.freeRuns.filter (fun r => decide (size ≤ r.2))
  if k.spkey then
    fit.foldl (fun (b : Option (Nat × Nat)) r => match b with
      | none => some r
      | some x => if r.2 < x.2 then some r else some x) none
  else fit.head?

/-- Ripe at a tick (R287): old enough, now or under an earlier AGE, and no larger than the present window. -/
def Core.ripe (k : Core) (now : Nat) (n : Notice) : Bool :=
  n.state == .waiting && n.windowed && (n.ripe || decide (n.arrived + 8 * k.ageTicks ≤ now)) && decide (n.rounded ≤ k.windowSize)

/-- Eligible, the hold-back apart (R284). -/
def Core.eligible (k : Core) (now : Nat) (n : Notice) : Bool :=
  n.state == .waiting &&
  (match n.kind with
   | 2 =>
     (match Table.get none k.armed (noticeAddr n.bits / 16) with
      | some a => decide (0 < a.left)
      | none => false) && !(k.notices.any (fun m => m.kind == 2 && m.state == .pulling))
   | 3 => (k.counter (noticeCounter n.bits)).armed && !(k.counter (noticeCounter n.bits)).flag
   | _ => decide (n.rounded ≤ k.windowSize) && decide (k.helm.windowFrom ≤ now) && (k.chooseRun n.rounded).isSome)

/-- The hold-back of R287: a ripe notice that is not eligible bars every other pull into the window. -/
def Core.heldBack (k : Core) (now : Nat) (n : Notice) : Bool :=
  match (k.notices.filter (fun m => k.ripe now m)).foldl (fun (b : Option Notice) m => match b with
      | none => some m
      | some x => if m.order < x.order then some m else some x) none with
  | some r => n.windowed && r.entry != n.entry && !k.eligible now r
  | none => false

/-- Keys of R285: smaller first. (DEDUCED, log 74) -/
def Core.rank (k : Core) (now : Nat) (n : Notice) : List Nat :=
  let e := min 7 (noticePri n.bits + (now - n.arrived) / k.ageTicks)
  let space := if !n.windowed then 0 else if k.spkey then (match k.chooseRun n.rounded with | some r => r.2 - n.rounded | none => 0) else n.rounded
  if k.ripe now n then [0, n.order] else [1, 7 - e, space, n.arrived, n.order]

def lexLess : List Nat → List Nat → Bool
  | a :: r, b :: t => decide (a < b) || (a == b && lexLess r t)
  | [], _ :: _ => true
  | _, [] => false

/-- The notice that the Helm takes next. (DEDUCED, log 74) -/
def Core.choice (k : Core) (now : Nat) : Option Notice :=
  (k.notices.filter (fun n => k.eligible now n && !k.heldBack now n)).foldl (fun (b : Option Notice) n => match b with
    | none => some n
    | some m => if lexLess (k.rank now n) (k.rank now m) then some n else some m) none

/-- A request may leave now (R288): the reads of what lies elsewhere count with the Helm's own (R354). -/
def Core.mayRequest (k : Core) (now : Nat) : Bool :=
  (match k.helm.lastRequest with
   | some t => decide (t + k.pace ≤ now)
   | none => true) && decide (512 * (k.helm.queue.length + k.unlanded) + 512 ≤ k.ingress)

/-- The notice that is having segments requested (R285). -/
def Core.requesting (k : Core) : Option Notice :=
  k.notices.find? (fun n => n.state == .pulling && !n.withdrawn && decide (n.requested < segmentsOf (noticeSize n.bits)))

/-- The Helm of a core runs: a tile is resident and not being stopped (R294). -/
def State.helmRuns (s : State) (core : Nat) : Bool :=
  (match (s.core core).tile with
   | some t => !t.stopping && !t.dead && !t.killed
   | none => false) && !s.coreFenced core

/-- Request the next segment of a notice. -/
def State.requestSegment (s : State) (core : Nat) (n : Notice) : State :=
  let s := s.post (.request n.bits n.dev (s.consumerId core) n.entry n.requested)
  s.mapCore core (fun k =>
    { k.putNotice { n with requested := n.requested + 1 } with
      helm := { k.helm with lastRequest := some s.tick, queue := k.helm.queue ++ [(n.entry, n.requested)] } })

/-- A pull into the window holds off its bytes from its first request to its landing (R190). -/
def Core.windowRange (k : Core) (n : Notice) (now : Nat) : Core :=
  k.addRange ⟨.notice n.entry, .spad, k.windowBase + n.window, n.rounded, true, now, none⟩

/-- A notice that the Helm could pull waits for an entry of the range scoreboard (R253). -/
def Core.scoreboardFull (k : Core) (n : Notice) : Bool := n.windowed && decide (64 ≤ k.liveRanges.length)

/-- HELM_PULL_START: the Helm chooses a notice and issues its first request (R285, R286); a pull into the window takes an entry of the range
scoreboard (R253). (DEDUCED, log 74) -/
def execHelmPullStart (core : Nat) (s : State) : Result :=
  if 512 ≤ core then .fault .noSuchUnit
  else
    let k := s.core core
    if !s.helmRuns core || k.requesting.isSome || !k.mayRequest s.tick then .next s
    else match k.choice s.tick with
      | none => .next s
      | some n =>
        if n.kind = 3 ∧ k.outsideRegion n.bits then
          .next ((s.mapCore core (fun k => k.dropNotice n)).post (declineOf n.bits n.dev (s.consumerId core)))
        else if k.scoreboardFull n then .next s
        else
          let off := if n.windowed then (match k.chooseRun n.rounded with | some r => r.1 | none => 0) else 0
          let n := { n with state := .pulling, window := off, ripe := false }
          let s := s.mapCore core (fun k =>
            let k := k.putNotice n
            let k := if n.windowed then k.windowRange n (s.cycleOf core) else k
            if n.kind = 2 then { k with helm := { k.helm with staging := [] } } else k)
          .next (s.requestSegment core n)

/-- The reads of a core with those of its loads that may be performed now and have not begun (R354). -/
def State.withLoadReads (s : State) (core : Nat) : State :=
  let k := s.core core
  k.loads.foldl (fun s a =>
    if a.space = .virt && s.performable core k.loads a && !(s.core core).postedOverlap (s.farBytes a) then s.addReads core a.id (s.farBytes a) else s) s

/-- The oldest read whose request has not left, by its place among the core's reads (R354). -/
def Core.nextRead (k : Core) : Option Nat := (k.reads.zipIdx.find? (fun x => !x.1.asked)).map (fun x => x.2)

/-- The request of a read leaves (R354). -/
def Core.askRead (k : Core) (tick i : Nat) : Core :=
  { k with reads := k.reads.mapIdx (fun j r => if j = i then { r with asked := true } else r), helm := { k.helm with lastRequest := some tick } }

/-- SEGMENT_REQUEST: the next request of the core within PACE and INGR: of a read of what lies elsewhere, or else the next segment of the notice
being requested (R288, R354). (DESIGN CHOICE, log 97) -/
def execSegmentRequest (core : Nat) (s : State) : Result :=
  if 512 ≤ core then .fault .noSuchUnit
  else
    let t := s.withLoadReads core
    if !(s.core core).mayRequest s.tick then .next s
    else match (t.core core).nextRead, (s.core core).requesting with
    | some i, _ => .next (t.mapCore core (fun k => k.askRead s.tick i))
    | none, some n => .next (if s.helmRuns core then s.requestSegment core n else s)
    | none, none => .next s

/-- The answer to the n-th read of a core: the home's bytes, or why there are none (R26, R354). A load learns of a home that cannot serve it at its
issue (log 73). -/
def State.answerRead (s : State) (core n : Nat) : State :=
  match (s.core core).reads[n]? with
  | none => s
  | some r =>
    if !r.asked || r.answered then s
    else
      let pas := (List.range r.bytes).map (fun i => r.addr + i)
      let load : Bool := (s.core core).loads.any (fun a => a.id == r.owner)
      let lost := pas.findSome? (fun pa => if load then s.answerFault pa else s.remoteFault pa)
      let r := { r with lost := lost, data := if lost.isSome then none else some (s.physReadBytes false r.addr r.bytes) }
      s.mapCore core (fun k => { k with reads := k.reads.set n r })

/-- The notices that are ripe stay so under another AGE (R287). -/
def Core.keepRipe (k : Core) (now : Nat) : Core := { k with notices := k.notices.map (fun n => { n with ripe := n.ripe || k.ripe now n }) }

/-- NOTICE_RIPE (R287). -/
def execNoticeRipe (core entry : Nat) (s : State) : Result :=
  if 512 ≤ core ∨ 64 ≤ entry then .fault .noSuchUnit
  else .next (s.mapCore core (fun k =>
    match k.noticeAt entry with
    | some n => if k.ripe s.tick n then k.putNotice { n with ripe := true } else k
    | none => k))

/-! ### Segments (R283) -/

/-- The bytes of a tile as a peer drain carries them (R176). -/
def Core.tileBytes (k : Core) (t : Nat) : List Byte :=
  let sz := match k.conf with
    | .fp => 4
    | _ => 12
  (List.range k.tileSize).flatMap (fun i => natBytes sz (k.element t i).toNat)

/-- The bytes of a segment, read at the producer: the scratchpad, L2, or the tile. -/
def State.readSegment (s : State) (k : Core) (slot seg : Nat) : List Byte :=
  let b := k.block slot
  let n := segmentLength b.size seg
  match b.kind with
  | 1 => s.physReadBytes false (b.addr + 512 * seg) n
  | 2 => ((k.tileBytes b.addr).drop (512 * seg)).take n
  | _ => k.spad.readBytes (b.addr + 512 * seg) n

/-- A block of the scratchpad meets a matrix or vector access of the segment's bank group in this cycle (R283). -/
def State.segmentShared (s : State) (core : Nat) (k : Core) (slot seg : Nat) : Bool :=
  let b := k.block slot
  (b.kind == 0 || b.kind == 3) && (k.mbanks ++ k.vbanks).contains ((b.addr + 512 * seg) / 16384 % 4, s.cycleOf core)

/-- The core of this device whose block a request reads. -/
def State.readsBlockOf (s : State) (msg : Nat) : Option Nat :=
  match s.postOf msg with
  | some (.request bits dev _ _ _) => if dev = s.devnum then some (noticeProd bits) else none
  | _ => none

/-- SEGMENT_READ: a request reaches its producer; a block no longer pinned comes back withdrawn (R283, R195). -/
def execSegmentRead (msg : Nat) (s : State) : Result :=
  match s.postOf msg with
  | some (.request bits dev con entry seg) =>
    if dev ≠ s.devnum then .next s
    else
      let prod := noticeProd bits
      let s0 := s
      let s := s.unpost msg
      let k := s.coreWith prod (fun k => (k.named (noticeBid bits)).isSome)
      match k.named (noticeBid bits) with
      | some slot => .next (if s0.segmentShared prod k slot seg then s0 else s.post (.response bits dev con entry seg (s.readSegment k slot seg) false))
      | none => .next (s.post (.response bits dev con entry seg [] true))
  | _ => .next s

/-- End of a pull withdrawn by its producer: its window bytes become zero and it lands with size 0 (R196, R283). -/
def Core.endWithdrawn (k : Core) (now : Nat) (n : Notice) : Core :=
  if n.windowed then
    let k := { k with spad := k.spad.clear (k.windowBase + n.window) n.rounded }
    (k.dropRanges now (.notice n.entry)).putNotice { n with state := .landed, size := 0, window := 0, withdrawn := true }
  else if n.kind = 2 then { k.dropNotice n with helm := { k.helm with staging := [] } }
  else k.dropNotice n

/-- A withdrawn pull ends once no request of its is outstanding (R283). -/
def Core.settleWithdrawn (k : Core) (now entry : Nat) : Core :=
  match k.noticeAt entry with
  | some n => if n.withdrawn && n.state == .pulling && !(k.helm.queue.any (fun q => q.1 == entry)) then k.endWithdrawn now n else k
  | none => k

/-- One element of a peer's tile added into the target (R65, R177). -/
def addElement (conf : AccConf) (x y : BitVec 96) : BitVec 96 × BitVec 5 × Bool :=
  if conf = .fp then
    let r := arithFloat 0 fmt32 .rne (x.toNat % 2 ^ 32) (y.toNat % 2 ^ 32) 0
    (BitVec.ofNat 96 r.1, r.2, false)
  else
    let r := addExact x y.toInt
    (r.1, 0, r.2)

/-- A completed peer drain adds into the armed tile and arrives at its barrier (R177, R297). -/
def State.addDrain (s : State) (core : Nat) (bits : BitVec 128) : State :=
  let k := s.core core
  let tt := noticeAddr bits / 16
  let sz := if k.conf = .fp then 4 else 12
  let staged (i : Nat) : BitVec 96 := BitVec.ofNat 96 (bytesNat (k.helm.staging.readBytes (sz * i) sz))
  let new := ((List.range k.tileSize).map (fun i => addElement k.conf (k.element tt i) (staged i))).toArray
  let k := (k.setTile tt k.tileSize (fun i => (new.getD i (0, 0, false)).1)).setLive tt true
  let now := s.cycleOf core
  let flags := new.foldl (fun f e => f ||| e.2.1) 0
  let sat := new.any (fun e => e.2.2)
  let k := { k.noteRaised now flags sat 0 with
    fflags := k.fflags ||| flags, aovf := k.aovf || sat
    arrivals := k.arrivals.filter (fun a => a.1 == now) ++ [(now, tt, noticeProd bits)]
    helm := { k.helm with staging := [] } }
  match Table.get none k.armed tt with
  | none => s.setCore core k
  | some a =>
    let k := { k with armed := Table.set none k.armed tt (if a.left ≤ 1 then none else some { a with left := a.left - 1 }) }
    let ok := match k.barrierFault a.barrier with
      | some _ => none
      | none => (k.barrier a.barrier).arrive 0
    match ok with
    | some b => s.setCore core (k.setBarrier a.barrier b)
    | none =>
      let (s, ix) := (s.setCore core k).reportTo core .x 3 k.seqX.pc (.bare .barrier) (some 3)
      s.mapCore core (fun k => { k with stopped := Table.set none k.stopped 3 (some ⟨none, ix.getD 0, false⟩) })

/-- A peer's tile may be added in this cycle: the matrix engine has been taken up in it, and no tile of a higher source core has arrived
(R65, R177). -/
def State.mayArrive (s : State) (core : Nat) (bits : BitVec 128) : Bool :=
  let k := s.core core
  let now := s.cycleOf core
  (!k.working || Table.get 0 k.portAt 3 == now + 1) &&
  !(k.arrivals.any (fun a => a.1 == now && a.2.1 == noticeAddr bits / 16 && decide (noticeProd bits < a.2.2)))

/-- The last segment has landed: the notice is landed, or gone where no window holds it; the producer is told (R283). -/
def State.pullComplete (s : State) (core : Nat) (n : Notice) : State :=
  let s := if n.kind = 2 then s.addDrain core n.bits else s
  let s := s.mapCore core (fun k =>
    if n.windowed then (k.dropRanges (s.cycleOf core) (.notice n.entry)).putNotice { n with state := .landed, size := noticeSize n.bits } else k.dropNotice n)
  s.post (.completion n.bits n.dev (s.consumerId core))

/-- Landed segments in the order in which they are applied: as they land, those of one cycle by ascending source core (R202, R296). -/
def insertLanded (l : List Landed) (x : Landed) : List Landed :=
  let before (y : Landed) : Bool := decide (y.cycle < x.cycle) || (y.cycle == x.cycle && decide (y.source ≤ x.source))
  l.takeWhile before ++ x :: l.dropWhile before

/-- Land one response: its bytes go to the window, the staging buffer or an accumulate-on-write port. -/
def State.landSegment (s : State) (core : Nat) (n : Notice) (seg : Nat) (data : List Byte) (withdrawn : Bool) : State :=
  let s := s.mapCore core (fun k => { k with helm := { k.helm with queue := k.helm.queue.drop 1 } })
  if withdrawn ∨ n.withdrawn then
    s.mapCore core (fun k => (k.putNotice { n with withdrawn := true }).settleWithdrawn (s.cycleOf core) n.entry)
  else
    let n := { n with landed := n.landed + 1 }
    let s := s.mapCore core (fun k =>
      let k := k.putNotice n
      match n.kind with
      | 2 => { k with helm := { k.helm with staging := k.helm.staging.writeBytes (512 * seg) data } }
      | 3 =>
        let x : Landed := ⟨noticeCounter n.bits, noticeOffset n.bits + 512 * seg, data, noticeProd n.bits, s.cycleOf core, s.cycleOf core⟩
        { k with helm := { k.helm with applying := insertLanded k.helm.applying x } }
      | _ => { k with spad := k.spad.writeBytes (k.windowBase + n.window + 512 * seg) data })
    if n.landed = segmentsOf (noticeSize n.bits) then s.pullComplete core n else s

/-- SEGMENT_LAND: the response to the earliest outstanding request lands (R283); the last one of a peer drain in the order of R65, and none where
its block has been reclaimed or has expired in the cycle (R199). -/
def execSegmentLand (core : Nat) (s : State) : Result :=
  if 512 ≤ core then .fault .noSuchUnit
  else
    let k := s.core core
    match k.helm.queue with
    | [] => .next s
    | (entry, seg) :: _ =>
      match s.posts.findSome? (fun p => match p.msg with
          | .response _ _ con e g data w => if con = s.consumerId core ∧ e = entry ∧ g = seg then some (p.id, data, w) else none
          | _ => none), k.noticeAt entry with
      | some (id, data, w), some n =>
        let last := !w && !n.withdrawn && n.landed + 1 == segmentsOf (noticeSize n.bits)
        let waits := last && ((n.kind == 2 && !s.mayArrive core n.bits) ||
          (n.dev == s.devnum && s.cycleClosed (noticeProd n.bits) (noticeBid n.bits)))
        .next (if waits then s else (s.unpost id).landSegment core n seg data w)
      | _, _ => .next s

/-- Notices of a reclaimed block that another device's producer has sent to a consumer of this one: one still on its way enters withdrawn, one
that the fabric holds is gone (R283, R295). -/
def State.withdrawPosts (s : State) (dev prod bid con : Nat) : State :=
  { s with posts := s.posts.filterMap (fun p => match p.msg with
      | .notice b c d asid held _ =>
        if c = con ∧ d = dev ∧ noticeProd b = prod ∧ noticeBid b = bid then
          (if held.isSome then none else some { p with msg := .notice b c d asid held true })
        else some p
      | _ => some p) }

/-- A withdrawal from another device finds neither the notice nor its entry here: the notice is still on its way (R283, R357). -/
def State.overtakes (s : State) (bits : BitVec 128) (dev con : Nat) : Bool :=
  let same (b : BitVec 128) (d : Nat) : Bool := d == dev && noticeProd b == noticeProd bits && noticeBid b == noticeBid bits
  dev != s.devnum &&
  !(s.coreWith (con % 512) (fun k => k.notices.any (fun n => same n.bits n.dev))).notices.any (fun n => same n.bits n.dev) &&
  !s.posts.any (fun p => match p.msg with
    | .notice b c d _ _ _ => c == con && same b d
    | _ => false)

/-- WITHDRAWAL_ARRIVAL: the consumer learns that the producer has reclaimed the block (R283, R295). -/
def execWithdrawalArrival (msg : Nat) (s : State) : Result :=
  match s.postOf msg with
  | some (.withdrawal bits dev con early) =>
    if con / 512 ≠ s.devnum ∨ early then .next s
    else
      let mine (k : Core) : Option Notice := k.notices.find? (fun n => n.dev == dev && noticeProd n.bits == noticeProd bits &&
        noticeBid n.bits == noticeBid bits && (n.state == .waiting || n.state == .pulling))
      if s.overtakes bits dev con then
        .next { s with posts := s.posts.map (fun p => if p.id = msg then { p with msg := .withdrawal bits dev con true } else p) }
      else .next (((s.unpost msg).withdrawPosts dev (noticeProd bits) (noticeBid bits) con).mapCoreWith (con % 512) (fun k => (mine k).isSome) (fun k =>
        match mine k with
        | none => k
        | some n =>
          if n.state = .waiting then
            (if n.windowed then k.putNotice { n with state := .landed, size := 0, withdrawn := true } else k.dropNotice n)
          else (k.putNotice { n with withdrawn := true }).settleWithdrawn (s.cycleOf (con % 512)) n.entry))
  | _ => .next s

/-! ### Accumulate on write (R202, R296) -/

/-- One word combined with the word in place: 0 put, 1 add, 2 max, 3 min, in S32, FP32, BF16 or FP16. -/
def combineWord (op : Nat) (t : BitVec 4) (old new : Nat) : Nat × BitVec 5 :=
  if op = 0 then (new, 0)
  else
    let w := typeWidth t
    let fn := combineFn (op - 1)
    if w = 32 then arithLane fn t false .rne old new 0
    else
      let lo := arithLane fn t false .rne (old % 2 ^ 16) (new % 2 ^ 16) 0
      let hi := arithLane fn t false .rne (old / 2 ^ 16) (new / 2 ^ 16) 0
      (lo.1 + hi.1 * 2 ^ 16, lo.2 ||| hi.2)

/-- Apply words at rising offsets. -/
def Core.applyWords (k : Core) (now : Nat) (r : ReadyCounter) (off : Nat) : Nat → List Byte → Core
  | 0, _ => k
  | n + 1, bs =>
    let new := bytesNat (bs.take 4)
    let c := combineWord r.op r.type (bytesNat (k.spad.readBytes off 4)) new
    Core.applyWords { k.noteRaised now c.2 false 0 with spad := k.spad.writeBytes off (natBytes 4 c.1), fflags := k.fflags ||| c.2 } now r
      (off + 4) n (bs.drop 4)

/-- The bank group of a landed segment. -/
def Landed.group (x : Landed) : Nat := x.offset / 16384 % 4

/-- The write port of a segment's bank group has had its cycles, one for .put and four for the others, and this is the last of them: a cycle in
which it meets a matrix read there does not count (R296). -/
def Core.portReady (k : Core) (now : Nat) (x : Landed) : Bool :=
  let free (c : Nat) : Bool := !(k.mbanks.contains (x.group, c))
  free now && decide ((if (k.counter x.counter).op = 0 then 1 else 4) ≤
    ((List.range (now - x.start)).filter (fun i => free (x.start + 1 + i))).length)

/-- Apply the segment that landed first; the flag is set with the last expected word and the region is released (R202, R296). The
segments behind it in its port begin then. -/
def Core.applySegment (k : Core) (now : Nat) : Core :=
  match k.helm.applying with
  | [] => k
  | x :: rest =>
    if !k.portReady now x then k
    else
      let rest := rest.map (fun y => if y.group = x.group then { y with start := max y.start now } else y)
      let k := { k with helm := { k.helm with applying := rest } }
      let r := k.counter x.counter
      let words := x.data.length / 4
      let k := k.applyWords now r x.offset words x.data
      let arrived := r.arrived + words
      if r.words ≤ arrived then (k.setCounter x.counter { r with arrived := arrived, flag := true, armed := false }).dropRanges now (.counter x.counter)
      else k.setCounter x.counter { r with arrived := arrived }

/-- COLL_SEGMENT_APPLY. -/
def execCollSegmentApply (core : Nat) (s : State) : Result :=
  if 512 ≤ core then .fault .noSuchUnit else .next (s.mapCore core (fun k => k.applySegment (s.cycleOf core)))

/-! ### NTAKE, NDECL, NWAIT (R196, R197, R302) -/

/-- A notice matches a value and a mask. -/
def Notice.matched (n : Notice) (value mask : Word) : Bool :=
  (noticeTag n.bits &&& mask.toNat) == (value.toNat &&& mask.toNat)

/-- The oldest notice of a list. -/
def oldest (l : List Notice) : Option Notice :=
  l.foldl (fun (b : Option Notice) n => match b with
    | none => some n
    | some m => if n.order < m.order then some n else some m) none

/-- A command of the port engine's FIFO in format ENG. -/
def portWord (i : Instr) (who : List SeqId) (h : Header) (o : EngOps) (s : State) : Result :=
  engineWord i 1 who true false h o (fun s => s.engCommand i h o) (fun _ _ => []) s

/-- NTAKE. -/
def execNtake (h : Header) (o : EngOps) (s : State) : Result := portWord (.ntake h o) cl h o s
/-- NDECL. -/
def execNdecl (h : Header) (o : EngOps) (s : State) : Result := portWord (.ndecl h o) cl h o s
/-- NWAIT. -/
def execNwait (h : Header) (o : EngOps) (s : State) : Result := portWord (.nwait h o) cl h o s

/-- NTAKE at the head of the port FIFO: the oldest matching notice that is landed and not taken. -/
def performNtake (s : State) (c : Command) : Perf :=
  let k := s.me
  match oldest (k.notices.filter (fun n => n.windowed && n.state == .landed && n.matched (c.vals.getD 1 0) (c.vals.getD 2 0))) with
  | none => .wait s
  | some n =>
    .go (s.mapMe (fun k => k.putNotice { n with state := .taken }))
      (c.finish (if n.withdrawn then .withdrawn else .ok) (n.size * 2 ^ 32 + n.window))

/-- The Helm is about to request a notice's first segment in the present cycle. -/
def State.pullsNow (s : State) (core : Nat) (n : Notice) : Bool :=
  let k := s.core core
  s.helmRuns core && k.requesting.isNone && k.mayRequest s.tick && (k.choice s.tick).any (fun m => m.entry == n.entry)

/-- NDECL: the oldest matching notice by its state; one that is pulling is waited for. A first segment request of the same cycle goes before
it (R199). -/
def performNdecl (s : State) (c : Command) : Perf :=
  let k := s.me
  let matching := k.notices.filter (fun n => n.windowed && n.matched (c.vals.getD 1 0) (c.vals.getD 2 0))
  let pick := if c.phase = 0 then (oldest (matching.filter (fun n => n.state != .taken))).orElse (fun _ => oldest matching)
    else k.notices.find? (fun n => n.entry + 1 == c.phase)
  match pick with
  | none => .go s (c.finish .none 0)
  | some n =>
    match n.state with
    | .waiting =>
      if c.due.isNone && s.pullsNow s.cur.core n then .wait s
      else .go ((s.mapMe (fun k => k.dropNotice n)).post (declineOf n.bits n.dev (s.consumerId s.cur.core))) (c.finish .ok 0)
    | .pulling => .wait (s.mapMe (fun k => k.putCommand 1 { c with phase := n.entry + 1 }))
    | .landed | .taken => .go (s.mapMe (fun k => k.dropNotice n)) (c.finish .ok 0)

/-- NWAIT: the oldest matching notice's 16 bytes go to x:G(GA). -/
def performNwait (s : State) (c : Command) : Perf :=
  let k := s.me
  let a := (c.vals.getD 0 0).toNat
  if a % 16 ≠ 0 then .fault s (.spad .alignment a 3)
  else if !k.inSpad a 16 then .fault s (.spad .scratchRange a 3)
  else match oldest (k.notices.filter (fun n => n.matched (c.vals.getD 1 0) (c.vals.getD 2 0))) with
    | none => .wait s
    | some n =>
      if k.blocked s.cycle c .spad a 16 then .wait s
      else .go (s.mapMe (fun k => { k with spad := k.spad.writeBytes a (natBytes 16 n.bits.toNat) })) (c.finish .ok 0)

/-! ### HELMSET and PWIN (R198, R303) -/

/-- HELMSET. -/
def execHelmset (h : Header) (o : EngOps) (s : State) : Result := portWord (.helmset h o) [.c] h o s
/-- PWIN. -/
def execPwin (h : Header) (o : EngOps) (s : State) : Result := portWord (.pwin h o) [.c] h o s

/-- HELMSET's checks; HELMCFG changes when the command completes (R198, R288). -/
def performHelmset (s : State) (c : Command) : Perf :=
  let x := (c.vals.getD 0 0).toNat
  let ingr := x % 2 ^ 20
  if x / 2 ^ 53 ≠ 0 ∨ x / 2 ^ 36 % 2 ^ 16 = 0 ∨ x / 2 ^ 20 % 2 ^ 16 = 0 ∨ ingr % 512 ≠ 0 ∨ ingr < 512 ∨ 65536 < ingr then
    .fault s (.bare .illegalOperand)
  else .go s (c.finish .ok 0)

/-- PWIN: from here to its completion the Helm chooses no notice for a window (R303). -/
def performPwin (s : State) (c : Command) : Perf :=
  let x := (c.vals.getD 0 0).toNat
  let base := x % 2 ^ 20
  let size := x / 2 ^ 20
  if x / 2 ^ 40 ≠ 0 ∨ base % 512 ≠ 0 ∨ size % 512 ≠ 0 then .fault s (.bare .illegalOperand)
  else if !s.me.inSpad base size then .fault s (.spad .scratchRange base 3)
  else if s.me.notices.any (fun n => n.state != .waiting) then .wait s
  else .go (s.mapMe (fun k => { k with helm := { k.helm with windowFrom := 2 ^ 64 } })) (c.finish .ok 0)

/-- What takes effect as a command completes: HELMSET's bounds (R198), and PWIN's window from the next tick on (R303). -/
def Core.takeEffect (k : Core) (tick : Nat) (c : Command) : Core :=
  match c.instr with
  | .helmset _ _ => { k.keepRipe tick with helmcfg := BitVec.ofNat 53 (c.vals.getD 0 0).toNat }
  | .pwin _ _ => { k with pwincfg := BitVec.ofNat 40 (c.vals.getD 0 0).toNat, helm := { k.helm with windowFrom := tick + 1 } }
  | _ => k

end Sys2Proof.Machine
end

