-- ==== Sys2Proof/Machine/Collective.lean ====
section
/-! DEFINITION. The collective unit: COLL and its record (R200, R201), ACCW (R202) and RDYWAIT (R203). -/

namespace Sys2Proof.Machine
open Sys2Proof

/-- A collective transfer: block, peer, receiver offset and counter, priority, timeout exponent (R200). -/
structure Transfer where
  src : Nat
  size : Nat
  dst : Nat
  peer : Nat
  counter : Nat
  pri : Nat
  tlog : Nat

/-- Fields of a transfer are in range: offsets in units of 512, a receiver offset that the notice can name, a peer that is not the
issuer. (DEDUCED, log 25) -/
def Transfer.bad (t : Transfer) (core : Nat) : Bool :=
  t.src % 512 != 0 || t.dst % 512 != 0 || decide (2 ^ 19 ≤ t.dst) || t.size % 4 != 0 || t.size == 0 || t.peer == core

/-- Emit a transfer: its block pinned with one consumer, its notice of KIND 3 sent (R200, R192). -/
def State.emitTransfer (s : State) (core : Nat) (c : Command) (t : Transfer) (opidx : Nat) : Perf :=
  let k := s.core core
  if t.bad core then .fault s (.bare .illegalOperand)
  else if s.coreFenced t.peer then .fault s (fencedCore t.peer)
  else match s.engRange core .spad t.src t.size opidx with
    | some f => .fault s f
    | none =>
      match k.freeSlot with
      | none => .wait s
      | some slot =>
        let b : Block := { Block.free with
          kind := 3, addr := t.src, size := t.size, consumers := [(t.peer, s.devnum)], deadline := s.tick + 1024 * 2 ^ t.tlog }
        .go (s.publishBlock core slot c b (t.dst + t.counter * 2 ^ 19) t.pri (t.src / 512)
          (some ⟨.block slot, .spad, t.src, t.size, false, c.cycle, none⟩)) c

/-- The transfer of a word: G(GA), G(GB) and the fields of G(GC). -/
def wordTransfer (c : Command) : Transfer :=
  let x := (c.vals.getD 2 0).toNat
  { src := (c.vals.getD 0 0).toNat, size := x / 2 ^ 32, dst := (c.vals.getD 1 0).toNat, peer := x % 512,
    counter := x / 2 ^ 9 % 32, pri := x / 2 ^ 14 % 8, tlog := x / 2 ^ 17 % 32 }

/-- COLL (R200): SIZE from 4 to 16,777,212. -/
def execColl (h : Header) (o : EngOps) (s : State) : Result :=
  engineWord (.coll h o) 2 cs true false h o (fun s => s.engCommand (.coll h o) h o)
    (fun _ c => let t := wordTransfer c; if t.size < 2 ^ 24 then [⟨.spad, t.src, t.size, false⟩] else []) s

/-- Perform COLL. -/
def performColl (s : State) (c : Command) : Perf :=
  let t := wordTransfer c
  let core := s.cur.core
  if 2 ^ 24 ≤ t.size ∨ (c.vals.getD 2 0).toNat / 2 ^ 22 % 2 ^ 10 ≠ 0 then .fault s (.bare .illegalOperand)
  else match s.emitTransfer core c t 3 with
    | .go u c => .go (u.mapMe (fun k => k.dropRanges s.cycle (.command c.id))) (c.finish .ok 0)
    | e => e

/-- COLL's record (R201). -/
def execCollRecord (h : Header) (r : RecOps) (s : State) : Result :=
  engineRecord (.collRecord h r) 2 cs h r (fun _ c => recSpan r c.vals c.w 0 (2 ^ r.da.ulog.toNat) false) s

/-- The peer of an issue (R201). -/
def peerOf (r : RecOps) (p : Nat) (i : Iter) : Nat :=
  let m : Int := 2 ^ (r.opx.toNat / 2 ^ 9 % 16)
  let q (n : Nat) : Int := sext 8 (r.ext.toNat / 2 ^ (8 * n))
  ((p : Int) / m * m + ((p : Int) % m + i.i0 * q 0 + i.i1 * q 1 + i.i2 * q 2 + i.i3 * q 3) % m).toNat

/-- One issue of a collective record: COLL is illegal in a slot other than 0 (R209); each transfer's block takes an entry of the scoreboard
(R190, R253). -/
def performCollIssue (s : State) (r : RecOps) (c : Command) : Perf :=
  let core := s.cur.core
  let i := recIter r c.w c.iter
  if i.j ≠ 0 then if s.me.slotLive i.j then .fault s (i.fault (.bare .speculation)) else .go s c
  else
    let peer := peerOf r ((c.vals.getD 3 0).toNat % 512) i
    if peer = core ∧ r.opx.getLsbD 8 then .go s { c with phase := c.phase + 1 }
    else
      let a := recOperand r c.vals i 0
      let d := recOperand r c.vals i 2
      match firstFault [a, d] with
      | some f => .fault s (i.fault f)
      | none =>
        let t : Transfer := ⟨a.addr, 2 ^ r.da.ulog.toNat, d.addr, peer, r.opx.toNat / 2 ^ 13 % 32, r.opx.toNat / 2 ^ 23 % 8,
          r.opx.toNat / 2 ^ 18 % 32⟩
        if 64 ≤ s.me.liveRanges.length then .wait s
        else match s.emitTransfer core c t 0 with
        | .fault u f => .fault u (i.fault f)
        | e => e

/-- The region of ACCW. -/
def accwSpans (c : Command) : List Span :=
  let n := (c.vals.getD 1 0).toNat
  if n ≤ 2 ^ 22 then [⟨.spad, (c.vals.getD 0 0).toNat, 4 * n, true⟩] else []

/-- ACCW (R202). -/
def execAccw (h : Header) (o : EngOps) (s : State) : Result :=
  engineWord (.accw h o) 2 cl true false h o (fun s => s.engCommand (.accw h o) h o)
    (fun _ c => accwSpans c) s

/-- Perform ACCW: the region's range passes to the counter until its flag is set (R190, R202). -/
def performAccw (s : State) (o : EngOps) (c : Command) : Perf :=
  let k := s.me
  let n := o.imm.toNat % 32
  let a := (c.vals.getD 0 0).toNat
  let words := (c.vals.getD 1 0).toNat
  let r := k.counter n
  if words = 0 ∨ 2 ^ 22 < words then .fault s ⟨.illegalOperand, { FaultAt.none with opidx := 1 }⟩
  else if r.armed && !r.flag then .fault s (.bare .illegalOperand)
  else if a % 4 ≠ 0 then .fault s (.spad .alignment a 0)
  else if !k.inSpad a (4 * words) then .fault s (.spad .scratchRange a 0)
  else
    let armed : ReadyCounter := { armed := true, base := a, words := words, arrived := 0, op := o.imm.toNat / 32 % 4, type := o.tc, flag := false }
    let hand (x : Range) : Range := if x.owner = .command c.id ∧ x.gone = none then { x with owner := .counter n } else x
    .go (s.mapMe (fun k =>
      let k := k.setCounter n armed
      { k with ranges := k.ranges.map hand })) (c.finish .ok 0)

/-- RDYWAIT holds its issuer until the flag is set; an acquire at device scope (R203). -/
def execRdywait (h : Header) (o : EngOps) (s : State) : Result :=
  issueWord { Issue.scalar [] [] with noSpec := true } h (fun s =>
    if (s.me.counter (o.imm.toNat % 32)).flag then .done (s.acquireCaches s.cur.core .device) s.pc16 else .wait s none) s

end Sys2Proof.Machine
end

