-- ==== Sys2Proof/Machine/Chart.lean ====
section
/-! DEFINITION. Charts, pools and beam maps: their layouts (R213 to R215, R228), the view walk (R216), and what each Chart and beam-map
command does to them as one indivisible step (R211, R212, R218 to R230). -/

namespace Sys2Proof.Machine
open Sys2Proof

/-- A command's step over the structures: a fault discards all it has written (R211). -/
abbrev Tx := StateT State (Except FaultInfo)

def txFault {α : Type} (i : FaultInfo) : Tx α := fun _ => .error i
def txRead {α : Type} (f : State → α) : Tx α := fun s => .ok (f s, s)
def txModify (f : State → State) : Tx Unit := fun s => .ok ((), f s)
def txCheck (f : State → Option FaultInfo) : Tx Unit := fun s =>
  match f s with
  | some i => .error i
  | none => .ok ((), s)

/-! ### Memory of the structures (R211, R212, R326) -/

/-- An n-byte number at a virtual address, as an engine reads it. -/
def rdv (a n : Nat) : Tx Nat := do
  txCheck (fun s => s.engSource s.cur.core .virt a n 3)
  txRead (fun s => bytesNat (s.engBytes s.cur.core 0 .virt a n))

/-- Bytes that a command writes at L2; the core keeps no clean copy now, and none when the command completes (R278). -/
def State.structureWrite (s : State) (bytes : List (Nat × Byte)) : State :=
  { (bytes.foldl (fun (s : State) w => s.physWrite false w.1 w.2) s).dropClean s.cur.core (bytes.map (fun w => w.1)) with
    noted := s.noted ++ (runsOf bytes).map (fun r => (r.1, r.2.length)) }

/-- Write bytes at virtual addresses. -/
def wrBytes (a : Nat) (data : List Byte) : Tx Unit := do
  txCheck (fun s => s.engTarget s.cur.core .virt a data.length 3)
  txModify (fun s =>
    let k := s.me
    s.structureWrite ((spread a data).filterMap (fun w => (s.resolve s.cur.core k.asid w.1 .write).map (fun pa => (pa, w.2)))))

def wrv (a n x : Nat) : Tx Unit := wrBytes a (natBytes n x)

/-- The alignment fault of a chart structure, with its address (R211). (DEDUCED, log 26) -/
def misaligned {α : Type} (a : Nat) : Tx α := txFault (.virt .alignment a 3)
def malformed {α : Type} (a : Nat) : Tx α := txFault (.virt .illegalOperand a 3)

/-- Key-value pages by physical address, without translation, under the checks of R211. -/
def wrPage (pa : Nat) (data : List Byte) : Tx Unit := do
  txCheck (fun s => (List.range data.length).findSome? (fun i =>
    match s.physFault s.me.asid (pa + i) true false with
    | some c => some ⟨c, ⟨3, pa + i, 0, 3, 0, 0⟩⟩
    | none => s.dataFault false (pa + i)))
  txModify (fun s => s.structureWrite (spread pa data))

/-- Set or clear the read-only-shared bit of a page of this device's memory, by either name of the page (R217, R347). -/
def State.setRos (s : State) (ppn : Nat) (b : Bool) : State :=
  match s.place (16384 * ppn) with
  | .hbm x =>
    let a := s.mgmt.rosbase.toNat + x / 16384 / 8
    s.l2Write a (setBit (s.l2Read a) (x / 16384 % 8) b)
  | _ => s

/-! ### Chart entries (R214) -/

structure ChartEntry where
  pool : Nat
  ovl : Nat
  parent : Nat
  home : Nat
  len : Nat
  cap : Nat
  npg : Nat
  fork : Nat
  nch : Nat
  epoch : Nat
  spec : Nat
  owner : Nat
  ro : Bool
  depth : Nat
  state : Nat
deriving DecidableEq, Repr

def bitsOf (x lo w : Nat) : Nat := x / 2 ^ lo % 2 ^ w

def ChartEntry.parse (x : Nat) : ChartEntry :=
  { pool := bitsOf x 448 64, ovl := bitsOf x 384 64, parent := bitsOf x 320 64, home := bitsOf x 256 64, len := bitsOf x 224 32,
    cap := bitsOf x 208 16, npg := bitsOf x 192 16, fork := bitsOf x 176 16, nch := bitsOf x 160 16, epoch := bitsOf x 148 12,
    spec := bitsOf x 140 8, owner := bitsOf x 133 3, ro := bitsOf x 132 1 == 1, depth := bitsOf x 129 3, state := bitsOf x 0 2 }

def ChartEntry.pack (e : ChartEntry) : Nat :=
  e.pool * 2 ^ 448 + e.ovl * 2 ^ 384 + e.parent * 2 ^ 320 + e.home * 2 ^ 256 + e.len % 2 ^ 32 * 2 ^ 224 + e.cap % 2 ^ 16 * 2 ^ 208 +
  e.npg % 2 ^ 16 * 2 ^ 192 + e.fork % 2 ^ 16 * 2 ^ 176 + e.nch % 2 ^ 16 * 2 ^ 160 + e.epoch % 2 ^ 12 * 2 ^ 148 + e.spec % 2 ^ 8 * 2 ^ 140 +
  e.owner % 8 * 2 ^ 133 + (if e.ro then 2 ^ 132 else 0) + e.depth % 8 * 2 ^ 129 + e.state % 4

def ChartEntry.free : ChartEntry := ChartEntry.parse 0
def ChartEntry.isFree (e : ChartEntry) : Bool := e.pack == 0

/-- Read and check a chart entry (R211). (DEDUCED, log 26) -/
def rdEntry (a : Nat) : Tx ChartEntry := do
  if a % 64 ≠ 0 then misaligned a
  else
    let x ← rdv a 64
    let e := ChartEntry.parse x
    if e.ovl % 16 ≠ 0 then misaligned a
    else if bitsOf x 136 4 ≠ 0 ∨ bitsOf x 2 127 ≠ 0 ∨ e.state = 3 ∨ 4 < e.depth then malformed a
    else pure e

def wrEntry (a : Nat) (e : ChartEntry) : Tx Unit := wrv a 64 e.pack

/-! ### Page entries (R215) -/

structure PageEntry where
  scale : Nat
  ppn : Nat
  fill : Nat
  ros : Bool
  sealed : Bool
  v : Bool
deriving DecidableEq, Repr

def PageEntry.parse (x : Nat) : PageEntry :=
  ⟨bitsOf x 72 8, bitsOf x 26 38, bitsOf x 9 7, bitsOf x 2 1 == 1, bitsOf x 1 1 == 1, bitsOf x 0 1 == 1⟩

def PageEntry.pack (t : PageEntry) : Nat :=
  t.scale % 256 * 2 ^ 72 + t.ppn % 2 ^ 38 * 2 ^ 26 + t.fill % 128 * 2 ^ 9 + (if t.ros then 4 else 0) + (if t.sealed then 2 else 0) +
  (if t.v then 1 else 0)

/-- Own overlay entry k of a chart, checked. -/
def rdOverlay (e : ChartEntry) (k : Nat) : Tx PageEntry := do
  let a := e.ovl + 16 * k
  let x ← rdv a 16
  let t := PageEntry.parse x
  if bitsOf x 80 48 ≠ 0 ∨ bitsOf x 64 8 ≠ 0 ∨ bitsOf x 16 10 ≠ 0 ∨ bitsOf x 3 6 ≠ 0 ∨ 64 < t.fill ∨ (x ≠ 0 ∧ !t.v) then malformed a
  else pure t

def wrOverlay (e : ChartEntry) (k : Nat) (t : PageEntry) : Tx Unit := wrv (e.ovl + 16 * k) 16 t.pack
def clearOverlay (e : ChartEntry) (k : Nat) : Tx Unit := wrv (e.ovl + 16 * k) 16 0

/-- The walk of R216 from a chart through its parents: the page entry and its level. A fork of a chart of depth 4 stands one level
deeper while BMPERM makes its flat copy (R230). -/
def viewFrom (k lvl : Nat) : Nat → ChartEntry → Tx (Option (PageEntry × Nat))
  | 0, _ => pure none
  | n + 1, e => do
    let t ← if k < e.cap then rdOverlay e k else pure (PageEntry.parse 0)
    if t.v then pure (some (t, lvl))
    else if e.depth = 0 ∨ e.fork ≤ k then pure none
    else
      let p ← rdEntry e.parent
      viewFrom k (lvl + 1) n p

/-- The view entry of page k (R216). -/
def viewEntry (e : ChartEntry) (k : Nat) : Tx (Option (PageEntry × Nat)) :=
  if e.npg ≤ k then pure none else viewFrom k 0 6 e

/-! ### Pools (R213) -/

structure Pool where
  addr : Nat
  stk : Nat
  top : Nat
  nstk : Nat
  ref : Nat
  pbase : Nat
  npages : Nat
  kvt : Nat
deriving DecidableEq, Repr

def Pool.fp8 (p : Pool) : Bool := p.kvt == 8 || p.kvt == 9
/-- Head dimension. -/
def Pool.dim (p : Pool) : Nat := if p.fp8 then 128 else 64

def rdPool (a : Nat) : Tx Pool := do
  if a % 64 ≠ 0 then misaligned a
  else
    let x ← rdv a 64
    let p : Pool := ⟨a, bitsOf x 0 64, bitsOf x 64 32, bitsOf x 96 32, bitsOf x 128 64, bitsOf x 192 64, bitsOf x 256 32, bitsOf x 288 8⟩
    if p.stk % 8 ≠ 0 then misaligned a
    else if x / 2 ^ 296 ≠ 0 ∨ p.kvt < 8 ∨ 11 < p.kvt then malformed a
    else pure p

/-- The address of a page's count; a page outside its pool is malformed. -/
def refAddr (p : Pool) (q : Nat) : Tx Nat :=
  if q < p.pbase ∨ p.pbase + p.npages ≤ q then malformed p.addr else pure (p.ref + 2 * (q - p.pbase))

def addRef (p : Pool) (q : Nat) : Tx Unit := do
  let a ← refAddr p q
  let n ← rdv a 2
  wrv a 2 (n + 1)

/-- Push a page at entry TOP (R213). -/
def pushPage (p : Pool) (q : Nat) : Tx Unit := do
  let top ← rdv (p.addr + 8) 4
  if p.nstk ≤ top then malformed p.addr
  else
    wrv (p.stk + 8 * top) 8 q
    wrv (p.addr + 8) 4 (top + 1)

/-- Pop entry TOP - 1, its count becoming 1. -/
def popPage (p : Pool) : Tx Nat := do
  let top ← rdv (p.addr + 8) 4
  let q ← rdv (p.stk + 8 * (top - 1)) 8
  let a ← refAddr p q
  wrv a 2 1
  wrv (p.addr + 8) 4 (top - 1)
  pure q

/-- Lower a page's count; at 0 its read-only-shared bit clears and it is pushed (R213, R226). -/
def dropRef (p : Pool) (q : Nat) : Tx Unit := do
  let a ← refAddr p q
  let n ← rdv a 2
  wrv a 2 (n + 65535)
  if n = 1 then
    txModify (fun s => s.setRos q false)
    pushPage p q

/-! ### The layout of beam maps (R228) -/

/-- A beam map as read. -/
structure BeamMap where
  addr : Nat
  slots : List Nat
  spare : List Nat
  nb : Nat
  nsp : Nat
  cap : Nat

/-- The slots of a beam map below a bound. -/
def rdSlots (a n : Nat) : Tx (List Nat) := do
  let x ← rdv a (8 * n)
  pure ((List.range n).map (fun i => bitsOf x (64 * i) 64))

/-- Read a beam map above its slots, and check the bytes that must be zero (R211, R228). -/
def rdFields (a : Nat) : Tx BeamMap := do
  if a % 64 ≠ 0 then misaligned a
  else
    let x ← rdv (a + 512) 1536
    let m : BeamMap := ⟨a, [], (List.range 128).map (fun i => bitsOf x (64 * i) 64), bitsOf x (8 * 1024) 8, bitsOf x (8 * 1025) 8, bitsOf x (8 * 1026) 16⟩
    if x / 2 ^ (8 * 1028) ≠ 0 then malformed a else pure m

/-- Read a beam map with all its slots. -/
def rdMap (a : Nat) : Tx BeamMap := do
  let m ← rdFields a
  let slots ← rdSlots a 64
  pure { m with slots := slots }

/-- Read and check a beam map whose counts the command uses: NB, NSP and CAP are in their ranges as well (R228); of the slots only those below NB
are read (R334). BMSET and BMLOOK use no count. (DEDUCED, log 103) -/
def rdCounts (a : Nat) : Tx BeamMap := do
  let m ← rdFields a
  if m.nb = 0 ∨ 64 < m.nb ∨ 128 < m.nsp ∨ m.cap = 0 ∨ 32767 < m.cap then malformed a
  else
    let slots ← rdSlots a m.nb
    pure { m with slots := slots }

/-! ### Outcomes (R211) -/

inductive ChartOutcome where
  | done | partial_ | depth | full | busy | absent | owner | state | spare | forked
deriving DecidableEq, Repr

def ChartOutcome.code : ChartOutcome → Nat
  | .done => 0
  | .partial_ => 1
  | .depth => 2
  | .full => 3
  | .busy => 4
  | .absent => 5
  | .owner => 6
  | .state => 7
  | .spare => 8
  | .forked => 9

/-- A result value: the outcome in [55:48] and a number below. -/
def chartResult (o : ChartOutcome) (v : Nat) : Nat := o.code * 2 ^ 48 + v

/-- OWNER of a core's die and partition (R214). -/
def State.ownerCode (s : State) (core : Nat) : Nat := dieOf core * 2 + (if s.inDecode (clusterOf core) then 1 else 0)

/-- STATE for a chart that is not live (or read-only, where asked), then OWNER. -/
def liveOwned (e : ChartEntry) (ro : Bool) : Tx (Option ChartOutcome) := do
  let own ← txRead (fun s => s.ownerCode s.cur.core)
  pure (if e.state ≠ 1 ∨ (ro ∧ e.ro) then some .state else if e.owner ≠ own then some .owner else none)

/-! ### Fork, flat copy, free (R219, R220, R226) -/

def zeroOverlay (ovl cap : Nat) : Tx Unit := wrBytes ovl (List.replicate (16 * cap) 0)

/-- CHFORK's effect: the child's entry. -/
def forkChart (child ovl cap parent : Nat) (p : ChartEntry) : Tx ChartEntry := do
  let c : ChartEntry := { ChartEntry.free with
    state := 1, pool := p.pool, owner := p.owner, ro := p.ro, parent := parent, depth := p.depth + 1, ovl := ovl, cap := cap,
    fork := p.npg, npg := p.npg, len := p.len }
  zeroOverlay ovl cap
  if 0 < p.npg then
    match ← viewEntry p (p.npg - 1) with
    | some (t, _) =>
      if !t.sealed ∧ t.fill < 64 then
        wrOverlay c (p.npg - 1) { t with sealed := true }
        let pl ← rdPool p.pool
        addRef pl t.ppn
    | none => pure ()
  wrEntry parent { p with nch := p.nch + 1 }
  wrEntry child c
  pure c

/-- Free(e) of R226; a chain of retired parents ends after at most n entries. -/
def freeChart : Nat → Nat → Tx Unit
  | 0, _ => pure ()
  | n + 1, a => do
    let e ← rdEntry a
    if 0 < e.nch then wrEntry a { e with state := 2 }
    else
      (List.range e.cap).forM (fun k => do
        let t ← rdOverlay e k
        if t.v then
          let pl ← rdPool e.pool
          dropRef pl t.ppn
          clearOverlay e k)
      wrv a 64 0
      if e.home ≠ 0 then
        let m ← rdCounts e.home
        if m.nsp < 128 then
          wrv (e.home + 512 + 8 * m.nsp) 8 a
          wrv (e.home + 1537) 1 (m.nsp + 1)
      if e.parent ≠ 0 then
        let p ← rdEntry e.parent
        wrEntry e.parent { p with nch := p.nch - 1 }
        if p.state = 2 ∧ p.nch = 1 then freeChart n e.parent

/-- A chain has at most five levels, one more within BMPERM. -/
def freeLevels : Nat := 6

/-- CHFLAT's effect on a chart of depth above 0. -/
def flatChart (a : Nat) (e : ChartEntry) : Tx ChartEntry := do
  (List.range e.fork).forM (fun k => do
    let own ← if k < e.cap then rdOverlay e k else pure (PageEntry.parse 0)
    if !own.v then
      match ← viewEntry e k with
      | some (t, _) =>
        wrOverlay e k t
        let pl ← rdPool e.pool
        addRef pl t.ppn
      | none => pure ())
  let f := { e with parent := 0, depth := 0, fork := 0 }
  wrEntry a f
  let p ← rdEntry e.parent
  wrEntry e.parent { p with nch := p.nch - 1 }
  if p.state = 2 ∧ p.nch = 1 then freeChart freeLevels e.parent
  pure f

/-! ### The commands' steps -/

/-- CHNEW (R218). -/
def chartNew (a ovl pool cap : Nat) : Tx Nat := do
  if a % 64 ≠ 0 then misaligned a
  else if ovl % 16 ≠ 0 then misaligned ovl
  else if cap = 0 then txFault (.bare .illegalOperand)
  else
    let _ ← rdPool pool
    let e ← rdEntry a
    if !e.isFree then pure (chartResult .state 0)
    else
      let own ← txRead (fun s => s.ownerCode s.cur.core)
      zeroOverlay ovl cap
      wrEntry a { ChartEntry.free with state := 1, pool := pool, ovl := ovl, cap := cap, owner := own }
      pure (chartResult .done 0)

/-- CHFORK (R219). -/
def chartFork (child ovl parent cap : Nat) : Tx Nat := do
  if child % 64 ≠ 0 then misaligned child
  else if ovl % 16 ≠ 0 then misaligned ovl
  else if cap = 0 then txFault (.bare .illegalOperand)
  else
    let p ← rdEntry parent
    match ← liveOwned p false with
    | some o => pure (chartResult o 0)
    | none =>
      if p.depth = 4 then pure (chartResult .depth 0)
      else if cap < p.npg then pure (chartResult .full 0)
      else
        let c ← rdEntry child
        if !c.isFree then pure (chartResult .state 0)
        else
          let _ ← forkChart child ovl cap parent p
          pure (chartResult .done 0)

/-- CHFLAT (R220). -/
def chartFlat (a : Nat) : Tx Nat := do
  let e ← rdEntry a
  match ← liveOwned e false with
  | some o => pure (chartResult o 0)
  | none =>
    if e.depth = 0 then pure (chartResult .done 0)
    else if 0 < e.nch then pure (chartResult .busy 0)
    else
      let _ ← flatChart a e
      pure (chartResult .done 0)

/-- Fills of the first n pages of a chart's view. -/
def viewFills (e : ChartEntry) : Nat → Tx (List Nat)
  | 0 => pure []
  | n + 1 => do
    let r ← viewFills e n
    match ← viewEntry e n with
    | some (t, _) => pure (r ++ [t.fill])
    | none => pure (r ++ [0])

/-- Remove own pages backward while the tokens before them are at least t; gives the pages that stay (R224). -/
def trimPages (e : ChartEntry) (pl : Pool) (fills : List Nat) (t : Nat) : Nat → Tx Nat
  | 0 => pure 0
  | n + 1 => do
    if e.fork ≤ n ∧ t ≤ (fills.take n).sum then
      let own ← rdOverlay e n
      if own.v then
        dropRef pl own.ppn
        clearOverlay e n
      trimPages e pl fills t n
    else pure (n + 1)

/-- CHTRUNC (R224). -/
def chartTrunc (a t : Nat) : Tx Nat := do
  let e ← rdEntry a
  match ← liveOwned e true with
  | some o => pure (chartResult o 0)
  | none =>
    if 0 < e.nch then pure (chartResult .busy 0)
    else if e.len ≤ t then pure (chartResult .done 0)
    else
      let fills ← viewFills e e.npg
      if t < (fills.take e.fork).sum then pure (chartResult .forked 0)
      else
        let pl ← rdPool e.pool
        let n ← trimPages e pl fills t e.npg
        if 0 < n then
          match ← viewEntry e (n - 1) with
          | some (p, 0) => wrOverlay e (n - 1) { p with fill := t - (fills.take (n - 1)).sum }
          | _ => pure ()
        wrEntry a { e with npg := n, len := t }
        pure (chartResult .done 0)

/-- CHSEAL (R225). -/
def chartSeal (a : Nat) (ro : Bool) : Tx Nat := do
  let e ← rdEntry a
  match ← liveOwned e true with
  | some o => pure (chartResult o 0)
  | none =>
    if 0 < e.npg then
      match ← viewEntry e (e.npg - 1) with
      | some (t, lvl) =>
        if !t.sealed ∧ t.fill < 64 then
          if 0 < lvl then
            let pl ← rdPool e.pool
            addRef pl t.ppn
          wrOverlay e (e.npg - 1) { t with sealed := true }
      | none => pure ()
    if ro then
      (List.range e.cap).forM (fun k => do
        let t ← rdOverlay e k
        if t.v then
          wrOverlay e k { t with ros := true }
          txModify (fun s => s.setRos t.ppn true))
      wrEntry a { e with ro := true }
    pure (chartResult .done 0)

/-- CHFREE (R226). -/
def chartFree (a : Nat) : Tx Nat := do
  let e ← rdEntry a
  match ← liveOwned e false with
  | some o => pure (chartResult o 0)
  | none =>
    freeChart freeLevels a
    pure (chartResult .done 0)

/-- CHGIVE (R227). -/
def chartGive (a target : Nat) : Tx Nat := do
  if 8 ≤ target then txFault (.bare .illegalOperand)
  else
    let e ← rdEntry a
    match ← liveOwned e false with
    | some o => pure (chartResult o 0)
    | none =>
      wrEntry a { e with owner := target }
      pure (chartResult .done 0)

/-! ### CHAPPEND (R221, R222) -/

/-- Greatest finite magnitude of a token's elements, as m 2^e. -/
def greatest (vs : List FVal) : Nat × Int :=
  vs.foldl (fun (b : Nat × Int) v => match v with
    | .fin _ m e => if FVal.lt (.fin false b.1 b.2) (.fin false m e) then (m, e) else b
    | _ => b) (0, 0)

def largestOf (kvt : Nat) : Nat := if kvt = 8 then 448 else 57344

/-- a 2^x is at most b 2^y. -/
def scaledLe (a : Nat) (x : Int) (b : Nat) (y : Int) : Bool := !FVal.lt (.fin false b y) (.fin false a x)

/-- Fits(token, x) (R222). -/
def fits (kvt : Nat) (m : Nat × Int) (x : Int) : Bool := scaledLe m.1 m.2 (largestOf kvt) x

/-- Scale(token) (R222). -/
def scaleOf (kvt : Nat) (m : Nat × Int) : Int :=
  if m.1 = 0 then 0
  else (((List.range 256).map (fun (i : Nat) => (i : Int) - 128)).find? (fun x => scaledLe (16 * m.1) m.2 (largestOf kvt) x)).getD 127

/-- An element as a page stores it (R222). -/
def storeElement (kvt : Nat) (x : Int) (v : FVal) : List Byte :=
  if kvt = 8 ∨ kvt = 9 then
    let w := match v with
      | .fin n m e => FVal.fin n m (e - x)
      | u => u
    natBytes 1 ((fmtOf (BitVec.ofNat 4 kvt)).enc .rne true w).1
  else natBytes 2 ((fmtOf (BitVec.ofNat 4 kvt)).enc .rne false v).1

/-- Physical places of some virtual bytes with what they hold, to be put back (R237). -/
def remember (a n : Nat) : Tx (List (Nat × List Byte)) :=
  txRead (fun s => (List.range n).filterMap (fun i =>
    (s.resolve s.cur.core s.me.asid (a + i) .write).map (fun pa => (pa, [s.physRead false pa]))))

/-- Append one token to the chart at a for a slot; none where nothing stops it, else the outcome (R221, R234). -/
def appendToken (a slot : Nat) (raw : List Byte) : Tx (Option ChartOutcome) := do
  let e ← rdEntry a
  match ← liveOwned e true with
  | some o => pure (some o)
  | none =>
    let pl ← rdPool e.pool
    let d := pl.dim
    let vals := (List.range (2 * d)).map (fun i => fmt32.val (bytesNat ((raw.drop (4 * i)).take 4)))
    let m := greatest vals
    let view ← if e.npg = 0 then pure none else viewEntry e (e.npg - 1)
    let before ← remember (a + 24) 8
    let last ← if 0 < e.npg ∧ e.npg ≤ e.cap then remember (e.ovl + 16 * (e.npg - 1)) 16 else pure []
    let next ← if e.npg < e.cap then remember (e.ovl + 16 * e.npg) 16 else pure []
    let fresh : Bool := match view with
      | none => true
      | some (t, lvl) => decide (0 < lvl) || t.sealed || t.fill == 64 || (pl.fp8 && !fits pl.kvt m (sext 8 t.scale))
    if fresh ∧ e.npg = e.cap then pure (some .full)
    else if fresh ∧ pl.top = 0 then pure (some .partial_)
    else
      let (k, t, e, pages) ← if fresh then do
          match view with
          | some (t, 0) => if !t.sealed then wrOverlay e (e.npg - 1) { t with sealed := true }
          | _ => pure ()
          let q ← popPage pl
          let sc := if pl.fp8 then wrapInt 8 (scaleOf pl.kvt m) else 0
          pure (e.npg, (⟨sc, q, 0, false, false, true⟩ : PageEntry), { e with npg := e.npg + 1 }, [q])
        else match view with
          | some (t, _) => pure (e.npg - 1, t, e, [])
          | none => pure (0, PageEntry.parse 0, e, [])
      let x := sext 8 t.scale
      let enc (l : List FVal) : List Byte := l.flatMap (storeElement pl.kvt x)
      wrPage (t.ppn * 16384 + 128 * t.fill) (enc (vals.take d))
      wrPage (t.ppn * 16384 + 8192 + 128 * t.fill) (enc (vals.drop d))
      wrOverlay e k { t with fill := t.fill + 1 }
      let epoch ← txRead (fun s => s.me.round.epoch.toNat)
      let e := { e with len := e.len + 1 }
      wrEntry a (if slot = 0 then e else { e with epoch := epoch, spec := e.spec ||| 2 ^ slot })
      if slot ≠ 0 then
        txModify (fun s => s.mapMe (fun k =>
          { k with round := { k.round with appends := k.round.appends ++ [⟨slot, a, e.pool, before ++ last ++ next, pages⟩] } }))
      pure none

/-- Memory with the appends tagged above j taken out of their charts, the latest first (R234, R237). -/
def State.withoutAppends (s : State) (core j : Nat) : State :=
  ((s.core core).round.appends.filter (fun x => decide (j < x.tag))).reverse.foldl (fun (s : State) x =>
    x.undo.foldl (fun (s : State) u => s.physWriteBytes false u.1 u.2) s) s

/-- Push back the pages that removed appends took, in reverse order of taking; the counts become 0 (R237). -/
def pushBack (pages : List (Nat × Nat)) : Tx Unit :=
  pages.forM (fun p => do
    let pl ← rdPool p.1
    dropRef pl p.2)

/-- Remove every append tagged above j (R234, R237); with `settle`, SPEC clears on every chart that the round touched. -/
def State.removeAppends (s : State) (core j : Nat) (settle : Bool) : State :=
  let mine := (s.core core).round.appends
  let gone := mine.filter (fun x => decide (j < x.tag))
  let t := { s.withoutAppends core j with cur := ⟨core, s.cur.seq, 0⟩ }
  let t := match (pushBack (gone.reverse.flatMap (fun x => x.pages.reverse.map (fun q => (x.pool, q))))).run t with
    | .ok (_, u) => u
    | .error _ => t
  let spec (t : State) (chart : Nat) : State :=
    match (do
        let e ← rdEntry chart
        wrEntry chart { e with spec := if settle then 0 else e.spec % 2 ^ (j + 1) } : Tx Unit).run t with
    | .ok (_, u) => u
    | .error _ => t
  let t := ((if settle then mine else gone).map (fun x => x.chart)).eraseDups.foldl spec t
  { t.mapCore core (fun k => { k with round := { k.round with
      appends := if settle then [] else k.round.appends.filter (fun x => decide (x.tag ≤ j)) } }) with cur := s.cur, noted := s.noted }

/-- The outcome of CHAPPEND over its list (R221): sequences done, what stopped it, or a fault. The round's 257th tagged append stops its
slot without effect: appends that have been removed do not count (R235). (DEDUCED, log 116) -/
def State.appendAll (s : State) (slot lst src : Nat) : Nat → Nat → State × Nat × (Option ChartOutcome ⊕ FaultInfo)
  | 0, i => (s, i, .inl none)
  | n + 1, i =>
    let core := s.cur.core
    let a := bytesNat (s.engBytes core slot .spad (lst + 8 * i) 8)
    let higher := (s.me.round.appends.filter (fun x => x.chart == a && decide (slot < x.tag))).map (fun x => x.tag)
    let s : State := match higher.min? with
      | some h => (s.mapMe (fun k => k.squash h)).removeAppends core (h - 1) false
      | none => s
    match (s.engRange core .spad (lst + 8 * i) 8 0).orElse (fun _ => s.engRange core .spad (src + 1024 * i) 1024 1) with
    | some f => (s, i, .inr f)
    | none =>
      match (appendToken a slot (s.engBytes core slot .spad (src + 1024 * i) 1024)).run s with
      | .error f => (s, i, .inr f)
      | .ok (some o, _) => (if slot ≠ 0 ∧ (o = .partial_ ∨ o = .full) then s.squash else s, i, .inl (some o))
      | .ok (none, t) =>
        if slot ≠ 0 ∧ 256 ≤ s.me.round.appends.length then (s.squash, i, .inl none)
        else State.appendAll t slot lst src n (i + 1)

/-! ### The beam-map commands (R229, R230) -/

/-- BMSET (R229). -/
def mapSet (a entry slot : Nat) : Tx Nat := do
  if a % 64 ≠ 0 then misaligned a
  else if 63 < slot then txFault (.bare .illegalOperand)
  else
    let _ ← rdMap a
    wrv (a + 8 * slot) 8 entry
    pure (chartResult .done 0)

/-- Entries at some addresses. -/
def rdEntries : List Nat → Tx (List ChartEntry)
  | [] => pure []
  | a :: r => do
    let e ← rdEntry a
    let t ← rdEntries r
    pure (e :: t)

/-- The new slots of BMPERM, in order: a slot keeps its old chart or takes a fork from the spare stack. -/
def permute (m : BeamMap) (sel : List Nat) : Nat → Nat → List Nat → Tx (List Nat)
  | 0, _, _ => pure []
  | n + 1, nsp, seen => do
    let s := sel.length - (n + 1)
    let o := sel.getD s 0
    let old := m.slots.getD o 0
    if seen.contains o then
      let c := m.spare.getD (nsp - 1) 0
      if c % 64 ≠ 0 then misaligned c
      else
        wrv (m.addr + 1537) 1 (nsp - 1)
        let p ← rdEntry old
        let ch ← forkChart c (c + 64) m.cap old p
        let ch ← if p.depth = 4 then flatChart c ch else pure ch
        wrEntry c { ch with home := m.addr }
        let rest ← permute m sel n (nsp - 1) seen
        pure (c :: rest)
    else
      let rest ← permute m sel n nsp (o :: seen)
      pure (old :: rest)

/-- BMPERM (R230). -/
def mapPermute (a : Nat) (sel : List Nat) (selAt : Nat) : Tx Nat := do
  let m ← rdCounts a
  let sel := sel.take m.nb
  if sel.any (fun o => decide (m.nb ≤ o)) then txFault (.spad .illegalOperand selAt 3)
  else if (m.slots.take m.nb).any (fun x => x == 0) then malformed a
  else
    let named := m.slots.take m.nb
    let forks := m.nb - sel.eraseDups.length
    let es ← rdEntries named
    let spares ← rdEntries ((m.spare.take m.nsp).drop (m.nsp - forks))
    let own ← txRead (fun s => s.ownerCode s.cur.core)
    let twice (o : Nat) : Bool := decide (1 < (sel.filter (fun x => x == o)).length)
    if es.any (fun e => e.state != 1) || spares.any (fun e => !e.isFree) then pure (chartResult .state 0)
    else if es.any (fun e => e.owner != own) then pure (chartResult .owner 0)
    else if m.nsp < forks then pure (chartResult .spare 0)
    else if (List.range m.nb).any (fun o => twice o && (match es[o]? with | some e => decide (m.cap < e.npg) | none => false)) then
      pure (chartResult .full 0)
    else
      let new ← permute m sel m.nb m.nsp []
      (List.range m.nb).forM (fun o => if sel.contains o then pure () else freeChart freeLevels (named.getD o 0))
      (List.range m.nb).forM (fun s => wrv (a + 8 * s) 8 (new.getD s 0))
      pure (chartResult .done 0)

end Sys2Proof.Machine
end

