-- ==== Sys2Proof/Machine/ChartUnit.lean ====
section
/-! DEFINITION. The Chart and beam-map words (R210 to R230): CHNEW to CHGIVE, BMSET, BMPERM and BMLOOK. -/

namespace Sys2Proof.Machine
open Sys2Proof

/-- A Chart or beam-map word: it enters the transfer engine's FIFO (R210). -/
def chartWord (i : Instr) (noSpec : Bool) (h : Header) (o : EngOps) (spans : Command → List Span) (s : State) : Result :=
  engineWord i 0 csl noSpec false h o (fun s => s.engCommand i h o) (fun _ c => spans c) s

/-- Register value n of a command. -/
def Command.val (c : Command) (n : Nat) : Nat := (c.vals.getD n 0).toNat

/-- Intervals of CHAPPEND, CHLOOK, BMPERM and BMLOOK on the range scoreboard (R190, R212). -/
def chappendSpans (c : Command) : List Span :=
  let n := if c.val 2 ≤ 256 then c.val 2 else 0
  [⟨.spad, c.val 0, 8 * n, false⟩, ⟨.spad, c.val 1, 1024 * n, false⟩]
def chlookSpans (c : Command) : List Span := [⟨.spad, c.val 0, 16, true⟩]
/-- BMPERM's selection: NB is not known before it is performed, and 64 bytes are held. (DEDUCED, log 115) -/
def bmpermSpans (c : Command) : List Span := [⟨.spad, c.val 1, 64, false⟩]
def bmlookSpans (c : Command) : List Span := [⟨.spad, c.val 0, 8, true⟩]

/-- Perform a step over the structures; its value is the result. (DEDUCED, log 38) -/
def runChart (s : State) (c : Command) (f : Tx Nat) : Perf :=
  match f.run s with
  | .error i => .fault s i
  | .ok (v, t) => .go t (c.finish .ok v)

/-- CHNEW (R218). -/
def execChnew (h : Header) (o : EngOps) (s : State) : Result := chartWord (.chnew h o) true h o (fun _ => []) s
/-- CHFORK (R219). -/
def execChfork (h : Header) (o : EngOps) (s : State) : Result := chartWord (.chfork h o) true h o (fun _ => []) s
/-- CHFLAT (R220). -/
def execChflat (h : Header) (o : EngOps) (s : State) : Result := chartWord (.chflat h o) true h o (fun _ => []) s
/-- CHAPPEND (R221): its list and its source hold off stores (R212). -/
def execChappend (h : Header) (o : EngOps) (s : State) : Result :=
  chartWord (.chappend h o) (o.imm.getLsbD 0) h o chappendSpans s
/-- CHLOOK (R223): its output holds off loads and stores (R212). -/
def execChlook (h : Header) (o : EngOps) (s : State) : Result :=
  chartWord (.chlook h o) false h o chlookSpans s
/-- CHTRUNC (R224). -/
def execChtrunc (h : Header) (o : EngOps) (s : State) : Result := chartWord (.chtrunc h o) true h o (fun _ => []) s
/-- CHSEAL (R225). -/
def execChseal (h : Header) (o : EngOps) (s : State) : Result := chartWord (.chseal h o) true h o (fun _ => []) s
/-- CHFREE (R226). -/
def execChfree (h : Header) (o : EngOps) (s : State) : Result := chartWord (.chfree h o) true h o (fun _ => []) s
/-- CHGIVE (R227). -/
def execChgive (h : Header) (o : EngOps) (s : State) : Result := chartWord (.chgive h o) true h o (fun _ => []) s
/-- BMSET (R229). -/
def execBmset (h : Header) (o : EngOps) (s : State) : Result := chartWord (.bmset h o) true h o (fun _ => []) s
/-- BMPERM (R230): its selection holds off stores (R212). -/
def execBmperm (h : Header) (o : EngOps) (s : State) : Result :=
  chartWord (.bmperm h o) true h o bmpermSpans s
/-- BMLOOK (R229): its output holds off loads and stores (R212). -/
def execBmlook (h : Header) (o : EngOps) (s : State) : Result :=
  chartWord (.bmlook h o) false h o bmlookSpans s

/-! ### Performing them -/

/-- Write an output to the scratchpad, or for a slot to its store buffer. -/
def State.chartOutput (s : State) (c : Command) (at_ : Nat) (data : List Byte) : State :=
  (s.engWrite s.cur.core c.slot false .spad (spread at_ data)).1

/-- An output's place: its alignment, then its range. -/
def State.outputFault (s : State) (at_ align n : Nat) : Option FaultInfo :=
  if at_ % align ≠ 0 then some (.spad .alignment at_ 0) else s.engRange s.cur.core .spad at_ n 0

/-- CHAPPEND (R221, R234): a dry free list is also a reported fault where F asks for it. (DEDUCED, log 39) -/
def performChappend (s : State) (o : EngOps) (c : Command) : Perf :=
  let n := c.val 2
  if c.val 0 % 8 ≠ 0 then .fault s (.spad .alignment (c.val 0) 0)
  else if c.val 1 % 512 ≠ 0 then .fault s (.spad .alignment (c.val 1) 1)
  else if n = 0 ∨ 256 < n then .fault s (.bare .illegalOperand)
  else match s.appendAll c.slot (c.val 0) (c.val 1) n 0 with
    | (t, done, .inr f) => let _ := done; .fault t f
    | (t, done, .inl none) => .go t (c.finish .ok (chartResult .done done))
    | (t, done, .inl (some oc)) =>
      if oc = .partial_ ∧ o.imm.getLsbD 0 then .fault t ⟨.freeList, { FaultAt.none with iter := done }⟩
      else .go t (c.finish .ok (chartResult oc done))

/-- CHLOOK (R223): a slot sees the appends tagged up to its own number (R234). -/
def performChlook (s : State) (c : Command) : Perf :=
  let k := c.val 2
  match s.outputFault (c.val 0) 16 16 with
  | some f => .fault s f
  | none =>
    if 65536 ≤ k then .fault s (.bare .illegalOperand)
    else match (do let e ← rdEntry (c.val 1); viewEntry e k : Tx (Option (PageEntry × Nat))).run
        (s.withoutAppends s.cur.core c.slot) with
      | .error f => .fault s f
      | .ok (some (t, lvl), _) => .go (s.chartOutput c (c.val 0) (natBytes 16 t.pack)) (c.finish .ok (chartResult .done lvl))
      | .ok (none, _) => .go (s.chartOutput c (c.val 0) (List.replicate 16 0)) (c.finish .ok (chartResult .absent 0))

/-- BMPERM (R230). -/
def performBmperm (s : State) (c : Command) : Perf :=
  let core := s.cur.core
  match (do
      let m ← rdCounts (c.val 0)
      txCheck (fun s => s.engRange core .spad (c.val 1) m.nb 1)
      let sel ← txRead (fun s => (s.engBytes core 0 .spad (c.val 1) m.nb).map (fun b => b.toNat))
      mapPermute (c.val 0) sel (c.val 1) : Tx Nat).run s with
  | .error f => .fault s f
  | .ok (v, t) => .go t (c.finish .ok v)

/-- BMLOOK (R229). -/
def performBmlook (s : State) (c : Command) : Perf :=
  match s.outputFault (c.val 0) 8 8 with
  | some f => .fault s f
  | none =>
    match (do
        if c.val 1 % 64 ≠ 0 then misaligned (c.val 1)
        else if 63 < c.val 2 then txFault (.bare .illegalOperand)
        else do
          let m ← rdMap (c.val 1)
          pure (m.slots.getD (c.val 2) 0) : Tx Nat).run s with
    | .error f => .fault s f
    | .ok (v, _) => .go (s.chartOutput c (c.val 0) (natBytes 8 v)) (c.finish .ok (chartResult .done 0))

/-- Chart words by FN (R210). (DEDUCED, log 38) -/
def performChartWord (s : State) (fn : Nat) (o : EngOps) (c : Command) : Perf :=
  let cap := o.imm.toNat % 2 ^ 15
  match fn with
  | 0 => runChart s c (chartNew (c.val 0) (c.val 1) (c.val 2) cap)
  | 1 => runChart s c (chartFork (c.val 0) (c.val 1) (c.val 2) cap)
  | 2 => runChart s c (chartFlat (c.val 0))
  | 3 => performChappend s o c
  | 4 => performChlook s c
  | 5 => runChart s c (chartTrunc (c.val 0) (c.val 2))
  | 6 => runChart s c (chartSeal (c.val 0) (o.imm.getLsbD 0))
  | 7 => runChart s c (chartFree (c.val 0))
  | _ => runChart s c (chartGive (c.val 0) (c.val 2))

/-- Beam-map words by FN (R210). -/
def performMapWord (s : State) (fn : Nat) (c : Command) : Perf :=
  match fn with
  | 0 => runChart s c (mapSet (c.val 0) (c.val 1) (c.val 2))
  | 1 => performBmperm s c
  | _ => performBmlook s c

end Sys2Proof.Machine
end

