-- ==== Sys2Proof/Machine/MemorySide.lean ====
section
/-! DEFINITION. The memory-side commands served by the Sextant and Lodestone units: SORTK, ECHOOSE, RCSNAP and LATTN with their records
(R204 to R208), and the order of candidates (R72). -/

namespace Sys2Proof.Machine
open Sys2Proof

/-! ### The units (R204, R373) -/

def stacksPerDie : Nat := 6

/-- A unit of a kind on the die of a stack serves: Sextant units are 0 and 1 of each stack, Lodestone units 2 to 9 (R366). (DEDUCED, log 41) -/
def State.unitServes (s : State) (stack : Nat) (sextant : Bool) : Bool :=
  (List.range stacksPerDie).any (fun i =>
    (if sextant then [0, 1] else [2, 3, 4, 5, 6, 7, 8, 9]).any (fun j =>
      !s.faults.funit.getLsbD (10 * (stack / stacksPerDie * stacksPerDie + i) + j)))

/-- The fault where no unit of the kind remains: kind 5. (DEDUCED, log 41) -/
def noUnit (stack : Nat) (sextant : Bool) : FaultInfo :=
  ⟨.dataError, { FaultAt.none with info := 5 * 2 ^ 27 + 10 * stack + (if sextant then 0 else 2) }⟩

/-- The stack of a physical address of this device's memory (R204); 24 elsewhere. -/
def State.stackAt (s : State) (pa : Nat) : Nat :=
  match s.place pa with
  | .hbm a => stackOf a
  | _ => 24

/-- The fault of a command whose input a stack's units serve: an uncorrectable error of one of them that no command has met yet, or none of
them left on the die (R204, R373). (DEDUCED, log 41) -/
def State.unitFault' (s : State) (stack : Nat) (sextant : Bool) : Option FaultInfo :=
  match s.unitErrors.find? (fun u => u / 10 == stack && decide (u % 10 < 2) == sextant) with
  | some u => some ⟨.dataError, { FaultAt.none with info := 5 * 2 ^ 27 + u }⟩
  | none => if s.unitServes stack sextant then none else some (noUnit stack sextant)

/-- The unit that serves an input at a virtual address. -/
def State.unitFaultAt (s : State) (va : Nat) (sextant : Bool) : Option FaultInfo :=
  (s.resolve s.cur.core s.me.asid va .read).bind (fun pa => s.unitFault' (s.stackAt pa) sextant)

/-- A fault of an input: a unit's error is met once (R204). -/
def inputFault (s : State) (f : FaultInfo) : Perf :=
  .fault (if f.cause = .dataError ∧ f.loc.info / 2 ^ 27 = 5 then
    { s with unitErrors := s.unitErrors.filter (fun u => u != f.loc.info % 2 ^ 27) } else s) f

/-! ### The order of candidates (R72) -/

/-- Candidate x does not come after candidate y: value and index; `small` asks for the smallest first. -/
def candLe (small : Bool) (x y : FVal × Nat) : Bool :=
  match x.1.isNan, y.1.isNan with
  | true, true => decide (x.2 ≤ y.2)
  | true, false => false
  | false, true => true
  | false, false =>
    if (if small then FVal.lt x.1 y.1 else FVal.lt y.1 x.1) then true
    else if (if small then FVal.lt y.1 x.1 else FVal.lt x.1 y.1) then false
    else decide (x.2 ≤ y.2)

/-- Candidates in order. -/
def sortCands {α : Type} (small : Bool) (value : α → FVal × Nat) (l : List α) : List α :=
  l.mergeSort (fun x y => candLe small (value x) (value y))

/-- Elements of a row of a floating type, as patterns. -/
def patternsOf (t : BitVec 4) (data : List Byte) (n : Nat) : List Nat :=
  let w := typeWidth t / 8
  (List.range n).map (fun i => bytesNat ((data.drop (w * i)).take w))

/-! ### Outputs and inputs -/

/-- Write an output: its checks, its own slot's buffer or memory, and what goes to another device. -/
def State.putOutput (s : State) (c : Command) (slot : Nat) (sp : Space) (at_ opidx : Nat) (data : List Byte) :
    (State × Command) ⊕ FaultInfo :=
  match s.engTarget s.cur.core sp at_ data.length opidx with
  | some f => .inr f
  | none =>
    let r := s.engWrite s.cur.core slot false sp (spread at_ data)
    .inl (r.1, c.wrote' r.2 (fun _ => (match recordOf c.instr with | some (_, _, _, q) => (recIter q c.w c.iter).pack | none => 0, slot)))

/-- Perform an output as the last thing a command does. -/
def finishOutput (s : State) (c : Command) (slot : Nat) (sp : Space) (at_ opidx : Nat) (data : List Byte)
    (after : State → Command → State × Command) : Perf :=
  if s.engOverlap s.cur.core sp at_ data.length then .wait s
  else match s.putOutput c slot sp at_ opidx data with
    | .inr f => .fault s f
    | .inl r => let u := after r.1 r.2; .go u.1 u.2

/-- The output kind of a word (R204). -/
def outSpace (o : EngOps) : Space := spaceOf (o.imm.toNat % 4)

/-! ### SORTK (R205) -/

/-- The parameter register: direction, k, n; none where a field is out of range. -/
def sortParams (p : Nat) : Option (Bool × Nat × Nat) :=
  let n := p % 2 ^ 24
  let k := p / 2 ^ 24 % 2 ^ 16
  if 2 ^ 41 ≤ p ∨ k = 0 ∨ n < k then none else some (p / 2 ^ 40 % 2 == 1, k, n)

/-- The first k entries of a row: index, then the value in FP32. -/
def sortRow (t : BitVec 4) (small : Bool) (k n : Nat) (data : List Byte) : List Byte :=
  let f := fmtOf t
  let cands := sortCands small (fun (x : Nat × Nat) => (f.val x.1, x.2)) (patternsOf t data n).zipIdx
  (cands.take k).flatMap (fun x => natBytes 4 x.2 ++ natBytes 4 (fmt32.enc .rne false (f.val x.1)).1)

/-- One selection: row at a virtual address, output, parameters. -/
def State.select (s : State) (c : Command) (slot : Nat) (t : BitVec 4) (row : Nat) (sp : Space) (dst p : Nat)
    (after : State → Command → State × Command) : Perf :=
  match sortParams p with
  | none => .fault s (.bare .illegalOperand)
  | some (small, k, n) =>
    let bytes := n * (typeWidth t / 8)
    match (s.engSource s.cur.core .virt row bytes 0).orElse (fun _ => s.unitFaultAt row true) with
    | some f => inputFault s f
    | none => finishOutput s c slot sp dst 2 (sortRow t small k n (s.engBytes s.cur.core slot .virt row bytes)) after

/-- Ranges of a selection word. -/
def selectSpans (t : BitVec 4) (sp : Space) (row dst inputs outputs : Nat) : List Span :=
  [⟨.virt, row, inputs * (typeWidth t / 8), false⟩, ⟨sp, dst, 8 * outputs, true⟩]

/-- Intervals of SORTK, of ECHOOSE, of RCSNAP and of LATTN on the range scoreboard (R190, R203). -/
def sortkSpans (o : EngOps) (c : Command) : List Span :=
  match sortParams (c.val 2) with
  | some (_, k, n) => selectSpans o.ta (outSpace o) (c.val 1) (c.val 0) n k
  | none => []
def rcsnapSpans (o : EngOps) (c : Command) : List Span := [⟨outSpace o, c.val 0, 1024, true⟩]

/-- SORTK: its output goes to the destination of GA. -/
def execSortk (h : Header) (o : EngOps) (s : State) : Result :=
  engineWord (.sortk h o) 0 csl false false h o (fun s => s.engCommand (.sortk h o) h o) (fun _ c => sortkSpans o c) s

def performSortk (s : State) (o : EngOps) (c : Command) : Perf :=
  s.select c c.slot o.ta (c.val 1) (outSpace o) (c.val 0) (c.val 2) (fun s c => (s, c.finish .ok 0))

/-- SORTK's record: A the row, C the output, XG the parameter register. -/
def execSortkRecord (h : Header) (r : RecOps) (s : State) : Result :=
  engineRecord (.sortkRecord h r) 0 csl h r (fun _ c =>
    match sortParams (c.val 3) with
    | some (_, k, n) => recSpan r c.vals c.w 0 (n * (typeWidth r.ta / 8)) false ++ recSpan r c.vals c.w 2 (8 * k) true
    | none => []) s

def performSortkIssue (s : State) (r : RecOps) (c : Command) : Perf :=
  let i := recIter r c.w c.iter
  let s := { s with cur := { s.cur with slot := i.j } }
  if !s.me.slotLive i.j then .go s c
  else match recOperand r c.vals i 0, recOperand r c.vals i 2 with
  | .fault f, _ | _, .fault f => .fault s (i.fault f)
  | a, d =>
    match s.select c i.j r.ta a.addr (spaceOf r.kc.toNat) d.addr (c.val 3) (fun s c => (s, c)) with
    | .fault u f => .fault u (i.fault f)
    | e => e

/-! ### ECHOOSE and RCSNAP (R206, R207) -/

/-- C, E and T of the parameter register. -/
def choiceParams (p : Nat) : Option (Nat × Nat × Nat) :=
  let t := p % 2 ^ 16
  let e := p / 2 ^ 16 % 2 ^ 9
  let c := p / 2 ^ 25 % 2 ^ 16
  if 2 ^ 41 ≤ p ∨ t = 0 ∨ e = 0 ∨ 256 < e ∨ c = 0 ∨ t < c then none else some (c, e, t)
def echooseSpans (o : EngOps) (c : Command) : List Span :=
  match choiceParams (c.val 2) with
  | some (n, e, t) => selectSpans o.ta (outSpace o) (c.val 1) (c.val 0) (t * e) (e * n)
  | none => []

/-- Enc(FP32, e^d) for a difference d ≤ 0. -/
def expDiff (d : FVal) : Nat :=
  match d with
  | .fin _ m e =>
    if m = 0 then 0x3F800000
    else if atLeastPow m e 7 then 0
    else
      let x := expWide (fixed m e)
      let one := 2 ^ fracBits
      (encApprox fmt32 .rne false 7 (m * 2 ^ 12 + (e + 2048).toNat)
        (if atLeastPow m e (-64) then decided (one * one / x.2, ceilDiv (one * one) x.1) else some nearOne)).1
  | _ => 0

/-- Enc(FP32, a / b) for FP32 patterns of positive numbers, or +0. -/
def divF32 (a b : Nat) : Nat :=
  match fmt32.val a, fmt32.val b with
  | .fin _ m1 e1, .fin _ m2 e2 =>
    if m1 = 0 ∨ m2 = 0 then 0
    else
      let n := bitLength m2 + 64
      (fmt32.encFin .rne false false (m1 * 2 ^ n / m2) (e1 - e2 - n) (decide (m1 * 2 ^ n % m2 ≠ 0))).1
  | _, _ => 0

/-- Enc(FP32, 1/k). -/
def recipF32 (k : Nat) : Nat := let a := rcpOf k 0; (fmt32.encFin .rne false false a.m a.e a.sticky).1

/-- Gate probabilities of one token: (expert, probability) for its logits that are numbers (R206). -/
def gateOf (xs : List FVal) : List (Nat × Nat) :=
  let l := (xs.zipIdx.filter (fun x => !x.1.isNan))
  let tops := (l.filter (fun x => x.1 == .inf false)).length
  if l.isEmpty then []
  else if 0 < tops then l.map (fun x => (x.2, if x.1 == .inf false then recipF32 tops else 0))
  else if l.all (fun x => x.1 == .inf true) then l.map (fun x => (x.2, recipF32 l.length))
  else
    let m := (l.foldl (fun (b : FVal) x => if FVal.lt b x.1 then x.1 else b) (.inf true))
    let es := l.map (fun x => (x.2, expDiff (FVal.add .rne x.1 m.negate).1))
    let sum := match es.map (fun x => x.2) with
      | [] => 0
      | a :: r => r.foldl (fun b x => (fmt32.enc .rne false (FVal.add .rne (fmt32.val b) (fmt32.val x)).1).1) a
    es.map (fun x => (x.1, divF32 x.2 sum))

/-- The first expert of a token, by probability and then by index. -/
def firstExpert (g : List (Nat × Nat)) : Option Nat :=
  ((sortCands false (fun (x : Nat × Nat) => (fmt32.val x.2, x.1)) g).head?).map (fun x => x.1)

/-- Each expert's first c candidates: (token, probability). -/
def expertPicks (gates : List (List (Nat × Nat))) (c e : Nat) : List (List (Nat × Nat)) :=
  (List.range e).map (fun x =>
    let cands := gates.zipIdx.filterMap (fun g => (g.1.find? (fun p => p.1 == x)).map (fun p => (g.2, p.2)))
    (sortCands false (fun (y : Nat × Nat) => (fmt32.val y.2, y.1)) cands).take c)

def execEchoose (h : Header) (o : EngOps) (s : State) : Result :=
  engineWord (.echoose h o) 0 csl true false h o (fun s => s.engCommand (.echoose h o) h o) (fun _ c => echooseSpans o c) s

def performEchoose (s : State) (o : EngOps) (c : Command) : Perf :=
  match choiceParams (c.val 2) with
  | none => .fault s (.bare .illegalOperand)
  | some (n, e, t) =>
    let bytes := t * e * (typeWidth o.ta / 8)
    match (s.engSource s.cur.core .virt (c.val 1) bytes 0).orElse (fun _ => s.unitFaultAt (c.val 1) true) with
    | some f => inputFault s f
    | none =>
      let pats := patternsOf o.ta (s.engBytes s.cur.core 0 .virt (c.val 1) bytes) (t * e)
      let gates := (List.range t).map (fun i => gateOf (((pats.drop (e * i)).take e).map (fmtOf o.ta).val))
      let picks := expertPicks gates n e
      let data := picks.flatMap (fun p =>
        p.flatMap (fun x => natBytes 4 x.1 ++ natBytes 4 x.2) ++
        (List.replicate (n - p.length) (natBytes 4 0xFFFFFFFF ++ natBytes 4 0)).flatten)
      let chosen := (picks.flatMap (fun p => p.map (fun x => x.1))).eraseDups
      let bump (r : Table (BitVec 32)) (x : Nat) : Table (BitVec 32) :=
        let v := Table.get 0 r x
        if v = BitVec.allOnes 32 then r else Table.set 0 r x (v + 1)
      finishOutput s c 0 (outSpace o) (c.val 0) 2 data (fun s c =>
        (s.mapMe (fun k => { k with routing := (gates.filterMap firstExpert).foldl bump k.routing }),
          c.finish .ok (t - chosen.length)))

def execRcsnap (h : Header) (o : EngOps) (s : State) : Result :=
  engineWord (.rcsnap h o) 0 csl true false h o (fun s => s.engCommand (.rcsnap h o) h o)
    (fun _ c => rcsnapSpans o c) s

def performRcsnap (s : State) (o : EngOps) (c : Command) : Perf :=
  let data := (List.range 256).flatMap (fun i => natBytes 4 (Table.get 0 s.me.routing i).toNat)
  finishOutput s c 0 (outSpace o) (c.val 0) 2 data
    (fun s c => (s.mapMe (fun k => { k with routing := [] }), c.finish .ok 0))

/-! ### LATTN (R208) -/

/-- Pages of a chart's view with positions, by page index. -/
def viewPages (a : Nat) : Tx (List PageEntry) := do
  let e ← rdEntry a
  let rec go (k : Nat) : Nat → Tx (List PageEntry)
    | 0 => pure []
    | n + 1 => do
      let t ← viewEntry e k
      let r ← go (k + 1) n
      pure (match t with
        | some (p, _) => if p.fill = 0 then r else p :: r
        | none => r)
  go 0 e.npg

/-- A row of a page as values: d elements from an address, FP8 ones scaled by 2^x (R208). -/
def State.pageRow (s : State) (t : BitVec 4) (d a : Nat) (x : Int) : List FVal :=
  let w := typeWidth t / 8
  (patternsOf t (s.physReadBytes false a (w * d)) d).map (fun p =>
    match (fmtOf t).val p with
    | .fin n m e => .fin n m (e + (if w = 1 then x else 0))
    | v => v)

/-- Checks of a page's bytes that are read: by physical address (R211, R372, R373). -/
def State.pageFault (s : State) (p : PageEntry) : Option FaultInfo :=
  let bytes := (List.range (128 * p.fill)).map (fun i => p.ppn * 16384 + i)
  (bytes ++ bytes.map (fun a => a + 8192)).findSome? (fun a =>
    match s.physFault s.me.asid a false false with
    | some c => some ⟨c, ⟨3, a, 0, 3, 0, 0⟩⟩
    | none => (s.dataFault true a).orElse (fun _ => s.remoteFault a))

/-- An attention triple of some positions: maximum, sum, one accumulator for each component (R208). -/
structure Triple where
  m : Nat
  sum : Nat
  acc : List Nat

def f32 (v : FVal) : Nat := (fmt32.enc .rne false v).1

/-- Enc(FP32, 2^(score - m)). (DEDUCED, log 40) -/
def weightOf (score m : Nat) : Nat :=
  match (FVal.add .rne (fmt32.val score) (fmt32.val m).negate).1 with
  | .nan _ => fmt32.nan
  | .inf n => if n then 0 else fmt32.infPattern
  | .fin n a e => if a = 0 then 0x3F800000 else
      (encApprox fmt32 .rne false 6 ((a * 2 ^ 12 + (e + 2048).toNat) * 2 + (if n then 1 else 0)) (exp2Of n a e)).1

/-- The largest score; NaN where one is NaN. (DEDUCED, log 40) -/
def topScore (scores : List Nat) : Nat :=
  if scores.any (fun x => (fmt32.val x).isNan) then fmt32.nan
  else match scores with
    | [] => 2 ^ 31 + fmt32.infPattern
    | a :: r => r.foldl (fun b x => if FVal.lt (fmt32.val b) (fmt32.val x) then x else b) a

/-- A stack's triple over its positions in ascending order. -/
def stackTriple (q : List FVal) (rows : List (List FVal × List FVal)) : Triple :=
  let scores := rows.map (fun r => f32 (groupSum (q.zip r.1)).1)
  let m := topScore scores
  let ws := scores.map (fun x => weightOf x m)
  let one : FVal := .fin false 1 0
  let step (b : Option Nat) (w : Nat) (v : FVal) : Option Nat :=
    some (match b with
      | none => f32 (groupSum [(fmt32.val w, v)]).1
      | some x => f32 (groupSum [(fmt32.val x, one), (fmt32.val w, v)]).1)
  let sum := ws.foldl (fun b w => step b w one) none
  let acc := (List.range q.length).map (fun j =>
    (ws.zip rows).foldl (fun b w => step b w.1 (w.2.2.getD j (.fin false 0 0))) none)
  ⟨m, sum.getD 0, acc.map (fun a => a.getD 0)⟩

/-- Two triples merged by R150's rules. -/
def mergeTriple (x y : Triple) : Triple :=
  let z := (x.acc.zip y.acc).map (fun a => (mergeLane (x.m, x.sum, a.1) (y.m, y.sum, a.2)).1)
  ⟨(z.head?.map (fun t => t.1)).getD 0, (z.head?.map (fun t => t.2.1)).getD 0, z.map (fun t => t.2.2)⟩

/-- The bytes of three registers' lanes (R208). -/
def tripleBytes (d : Nat) (t : Triple) : List Byte :=
  let pad (x : Nat) : List Byte := (List.replicate (128 - d) (natBytes 4 x)).flatten
  (List.replicate d (natBytes 4 t.m)).flatten ++ pad (2 ^ 31 + fmt32.infPattern) ++
  (List.replicate d (natBytes 4 t.sum)).flatten ++ pad 0 ++ t.acc.flatMap (natBytes 4) ++ pad 0

/-- The triple of a query over the pages of a view: each stack's, merged in ascending stack number. (DEDUCED, log 40) -/
def State.attention (s : State) (t : BitVec 4) (q : List FVal) (pages : List PageEntry) : Triple :=
  let d := q.length
  let rowsOf (p : PageEntry) : List (List FVal × List FVal) := (List.range p.fill).map (fun i =>
    let a := p.ppn * 16384 + 128 * i
    (s.pageRow t d a (sext 8 p.scale), s.pageRow t d (a + 8192) (sext 8 p.scale)))
  let triples := (List.range 25).filterMap (fun st =>
    let mine := pages.filter (fun p => s.stackAt (p.ppn * 16384) == st)
    if mine.isEmpty then none else some (stackTriple q (mine.flatMap rowsOf)))
  match triples with
  | [] => ⟨2 ^ 31 + fmt32.infPattern, 0, List.replicate d 0⟩
  | a :: r => r.foldl mergeTriple a

/-- Head dimension of a key and value type. -/
def attnDim (t : BitVec 4) : Nat := if typeWidth t = 8 then 128 else 64

/-- One query: query and output in the scratchpad, chart entry in memory; a slot sees its own appends and lower ones (R234). -/
def State.attend (s : State) (c : Command) (slot : Nat) (t : BitVec 4) (query entry dst : Nat)
    (after : State → Command → State × Command) : Perf :=
  let d := attnDim t
  if dst % 512 ≠ 0 then .fault s (.spad .alignment dst 2)
  else match s.engSource s.cur.core .spad query (4 * d) 0 with
    | some f => .fault s f
    | none =>
      let v := s.withoutAppends s.cur.core slot
      match (viewPages entry).run v with
      | .error f => .fault s f
      | .ok (pages, _) =>
        let unit (p : PageEntry) : Option FaultInfo := s.unitFault' (s.stackAt (p.ppn * 16384)) false
        match (pages.findSome? v.pageFault).orElse (fun _ => pages.findSome? unit) with
        | some f => inputFault s f
        | none =>
          let q := (patternsOf 12 (s.engBytes s.cur.core slot .spad query (4 * d)) d).map fmt32.val
          finishOutput s c slot .spad dst 2 (tripleBytes d (v.attention t q pages)) after

def lattnSpans (o : EngOps) (c : Command) : List Span :=
  [⟨.spad, c.val 1, 4 * attnDim o.ta, false⟩, ⟨.virt, c.val 2, 64, false⟩, ⟨.spad, c.val 0, 1536, true⟩]

/-- LATTN. -/
def execLattn (h : Header) (o : EngOps) (s : State) : Result :=
  engineWord (.lattn h o) 0 csl false false h o (fun s => s.engCommand (.lattn h o) h o) (fun _ c => lattnSpans o c) s

def performLattn (s : State) (o : EngOps) (c : Command) : Perf :=
  s.attend c c.slot o.ta (c.val 1) (c.val 2) (c.val 0) (fun s c => (s, c.finish .ok 0))

/-- LATTN's record: A the query, B the chart entry, C the output. -/
def execLattnRecord (h : Header) (r : RecOps) (s : State) : Result :=
  engineRecord (.lattnRecord h r) 0 csl h r (fun _ c =>
    recSpan r c.vals c.w 0 (4 * attnDim r.ta) false ++ recSpan r c.vals c.w 1 64 false ++ recSpan r c.vals c.w 2 1536 true) s

def performLattnIssue (s : State) (r : RecOps) (c : Command) : Perf :=
  let i := recIter r c.w c.iter
  let s := { s with cur := { s.cur with slot := i.j } }
  if !s.me.slotLive i.j then .go s c
  else match recOperand r c.vals i 0, recOperand r c.vals i 1, recOperand r c.vals i 2 with
  | .fault f, _, _ | _, .fault f, _ | _, _, .fault f => .fault s (i.fault f)
  | a, b, d =>
    match s.attend c i.j r.ta a.addr b.addr d.addr (fun s c => (s, c)) with
    | .fault u f => .fault u (i.fault f)
    | e => e

/-- Words of MAJ 0xAB by FN. -/
def performMemorySide (s : State) (fn : Nat) (o : EngOps) (c : Command) : Perf :=
  match fn with
  | 0 => performSortk s o c
  | 1 => performEchoose s o c
  | 2 => performRcsnap s o c
  | _ => performLattn s o c

end Sys2Proof.Machine
end

