-- ==== Sys2Proof/Machine/Reckoner.lean ====
section
/-! DEFINITION. The Reckoner's words: RKBEGIN opens a round (R232), ACMP confirms guesses (R236), RKCOMMIT and RKEND close it
(R237, R238, R346), RKSTAT reports (R238). -/

namespace Sys2Proof.Machine
open Sys2Proof

/-- Who may issue a round word: while a round is open, its owner (R210). -/
def State.roundIssuers (s : State) : List SeqId := if s.me.round.st = .closed then allSeqs else [s.me.round.owner]

/-- A word that acts once for the round. -/
def roundWord (who : List SeqId) (srcs dsts : List (BitVec 6)) (h : Header) (body : State → Eff) (s : State) : Result :=
  issueWord { Issue.scalar srcs dsts with who := who, once := true } h body s

/-- RKBEGIN (R232); it waits for the registers that it carries (R242), and its going to the routine is a taken transfer (R246).
(DEDUCED, log 42) -/
def execRkbegin (h : Header) (o : EngOps) (s : State) : Result :=
  roundWord allSeqs ([o.ga, o.gc] ++ ({ Round.closed with carried := s.g o.gc } : Round).carriedRegs.map (BitVec.ofNat 6)) [] h (fun s =>
    let t := s.g o.ga
    let mask := s.g o.gc
    if s.me.round.st ≠ .closed then .trap (.bare .illegal)
    else if t.toNat % 64 ≠ 0 then .trap (.virt .alignment t.toNat 3)
    else if mask.getLsbD 0 || decide (8 < ((List.range 64).filter (fun n => mask.getLsbD n)).length) then
      .trap (.bare .illegalOperand)
    else if 64 ≤ s.mySeq.shadow.length then .trap (.bare .controlIntegrity)
    else
      let old := s.me.round
      let r := s.mySeq
      let w := o.imm.toNat % 16
      let new : Round := { Round.closed with
        st := .guessing, w := w, acc := old.acc, epoch := BitVec.ofNat 12 (o.imm.toNat / 16), owner := s.cur.seq, sq := old.sq,
        matched := old.matched, carried := mask, pc := s.pc, routine := t, run := 1, depth := r.shadow.length }
      let new := { new with carries0 := r.carries new.carriedRegs }
      .jump ((s.mapMe (fun k => { k with round := new })).pushShadow s.pc16) t) s

/-- ACMP (R236). -/
def Core.confirm (k : Core) : Core :=
  let rd := k.round
  let regs := rd.carriedRegs
  let carry (j n : Nat) : Word := if j = 0 then (k.seq rd.owner).getG n else Table.get 0 (k.slot j).g n
  let eq (j : Nat) : Bool := regs.all (fun n => carry j n == Table.get 0 (Table.get [] rd.guesses (j + 1)) n)
  let ok (j : Nat) : Bool := k.slotLive j && k.slotLive (j + 1) && eq j && (!rd.confirmed || rd.matched.getLsbD (j + 1))
  let m := ((List.range (rd.w - 1)).filter ok).map (fun j => 2 ^ (j + 1))
  { k with round := { rd with matched := BitVec.ofNat 8 m.sum, confirmed := true } }

def execAcmp (h : Header) (o : EngOps) (s : State) : Result :=
  let _ := o
  roundWord s.roundIssuers (s.me.round.carriedRegs.map (BitVec.ofNat 6)) [] h (fun s =>
    if s.me.round.st = .running then .done (s.mapMe Core.confirm) s.pc16 else .trap (.bare .illegal)) s

/-! ### Closing a round (R237, R346) -/

/-- The last accepted slot: guesses 1 to a confirmed, slots 1 to a not squashed. -/
def Round.accepted (r : Round) : Nat :=
  ((List.range (r.w - 1)).takeWhile (fun j => r.matched.getLsbD (j + 1) && !r.sq.getLsbD (j + 1))).length

/-- Something issued for the round by a sequencer of the core has still to complete (R237): of the other sequencers' loads, those numbered below
a bound, since they go on. -/
def Core.roundBusy (k : Core) (bound : Nat) : Bool :=
  k.loads.any (fun a => decide (a.slot ≠ 0) || decide (a.id < bound)) ||
  !(k.seq k.round.owner).outstanding.isEmpty ||
  (List.range 8).any (fun p => (k.fifo p).any (fun c => !c.single && (decide (c.slot ≠ 0) || decide (1 < c.w))))

/-- Ranges of a deferred command as it enters its FIFO. (DEDUCED, log 42) -/
def State.deferredSpans (s : State) (c : Command) : List Span :=
  let issue (r : RecOps) (fn ext : Nat) : List Span :=
    let i := recIter r c.w c.iter
    if fn = 4 then
      match recOperand r c.vals i 0 with
      | .virt a => [⟨.virt, a, ext, false⟩]
      | .spad a => [⟨.spad, a, ext, false⟩]
      | _ => []
    else match s.issueMove fn r c i with
      | .inl m => (if m.fill.isSome then [] else [⟨spaceOf m.sk, m.src 0, m.size, false⟩]) ++ [⟨spaceOf m.dk, m.dst 0, m.size, true⟩]
      | .inr _ => []
  match c.instr with
  | .xcopy _ o => wordSpans 0 o c
  | .xgath _ o => wordSpans 1 o c
  | .xscat _ o => wordSpans 2 o c
  | .xfill _ o => wordSpans 3 o c
  | .publish _ _ => (publication c.copy).spans
  | .xcopyRecord _ r => issue r 0 0
  | .xgathRecord _ r => issue r 1 0
  | .xscatRecord _ r => issue r 2 0
  | .xfillRecord _ r => issue r 3 0
  | .publishRecord _ r => issue r 4 (2 ^ (r.da.ulog.toNat + recUsh r))
  | _ => []

/-- The port of a deferred command. -/
def deferredPort (c : Command) : Nat :=
  match c.instr with
  | .publish _ _ | .publishRecord _ _ => 1
  | _ => 0

/-- What remains to be done for an accepted slot: done, or held, by what (`Sequencer.waitOn`). -/
inductive Applied where
  | done (s : State)
  | held (s : State) (on : Option Nat)

def Applied.andThen (a : Applied) (f : State → Applied) : Applied :=
  match a with
  | .done s => f s
  | .held s on => .held s on

/-- A slot's store becomes a store of the owner at core scope, issued now (R237): it waits for a held range (R253), and for an entry where
it goes to another device or the host (R349). -/
def State.ownerStore (s : State) (x : SlotStore) : Applied :=
  let n := x.data.length
  let pas := if x.space = .virt then s.pasOf s.cur.core s.me.asid x.addr n else []
  let far := pas.any s.isRemote
  if s.me.held s.cycle x.space x.addr n true then .held s (some 13)
  else if far && (s.me.postedOverlap pas || !s.me.postedRoom 1) then .held s none
  else
    let a := s.access (.store x.data) x.space x.addr n .core false false none
    let a := { a with
      phys := if x.space = .virt then [(pas.headD 0, n)] else []
      after := a.after ++ (if s.cur.seq = .c then s.me.openAccesses .c else []) }
    let s := if far then s.mapMe (fun k => k.addPosted a.id (pas.headD 0) x.data 8 s.cur.seq s.pc none false) else s
    .done (s.queueStore a)

/-- The owner's stores for slot j, in writing order. -/
def State.applyStores (s : State) (j : Nat) : List SlotStore → Applied
  | [] => .done (s.mapMe (fun k => { k with round := { k.round with stores := k.round.stores.filter (fun x => x.slot != j) } }))
  | x :: rest =>
    match s.ownerStore x with
    | .done t => State.applyStores t j rest
    | .held _ on => .held (s.mapMe (fun k =>
        { k with round := { k.round with stores := k.round.stores.filter (fun y => y.slot != j) ++ (x :: rest) } })) on

/-- Push a slot's held results, while there is room (R346). -/
def State.applyResults (s : State) (j : Nat) : List (Nat × Nat × Word) → Applied
  | [] => .done (s.mapMe (fun k =>
      { k with round := { k.round with heldResults := k.round.heldResults.filter (fun x => x.1 != j) } }))
  | x :: rest =>
    if s.me.resultRoom x.2.1 then
      State.applyResults { s.mapMe (fun k => k.pushResult x.2.1 x.2.2 s.nextId) with nextId := s.nextId + 1 } j rest
    else .held (s.mapMe (fun k =>
      { k with round := { k.round with heldResults := k.round.heldResults.filter (fun y => y.1 != j) ++ (x :: rest) } })) (some (40 + x.2.1))

/-- A deferred command as issued now (R209): PUBLISH copies its descriptor, XGATH and XSCAT their index register, where they stand now. -/
def State.issuedNow (s : State) (c : Command) : Command ⊕ Option Nat :=
  let index (o : EngOps) : Command ⊕ Option Nat :=
    if s.me.vecAwaited c.seq s.cycle o.vb.toNat then .inr none else .inl { c with copy := natBytes 512 (s.v o.vb.toNat).toNat }
  match c.instr with
  | .publish _ _ =>
    let a := (c.vals.getD 0 0).toNat
    if s.me.held s.cycle .spad a 64 true then .inr (some 13)
    else if !s.ownStoresFilled then .inr none
    else .inl { c with copy := s.ownStores.foldl (fun bs x => x.onto a bs) (s.xload a 64) }
  | .xgath _ o | .xscat _ o => index o
  | _ => .inl c

/-- A slot's deferred commands enter their FIFOs in issue order, as issued now. -/
def State.applyDeferred (s : State) (j : Nat) : List Command → Applied
  | [] => .done (s.mapMe (fun k => k.setSlot j { k.slot j with deferred := [] }))
  | c :: rest =>
    let keep : State := s.mapMe (fun k => k.setSlot j { k.slot j with deferred := c :: rest })
    match s.issuedNow c with
    | .inr on => .held keep on
    | .inl c =>
      let port := deferredPort c
      let spans := (s.deferredSpans c).filter (fun x => x.len != 0)
      if 64 < s.me.liveRanges.length + spans.length then .held keep none
      else if !s.me.fifoRoom port || s.me.older s.cur.seq port s.cycle then .held keep (some port)
      else
        let c := { c with
          id := s.nextId, slot := 0, cycle := s.cycle, due := none, waits := s.me.openAccesses c.seq, behind := s.me.postedBefore c.seq }
        let enter (k : Core) : Core := spans.foldl (fun (k : Core) (x : Span) =>
          k.addRange ⟨.command c.id, x.space, x.lo, x.len, x.loads, c.cycle, none⟩) (k.accept port c)
        State.applyDeferred { s.mapMe enter with nextId := s.nextId + 1 } j rest

/-- Slot j's held registers, masks, FFLAGS and AOVF become the core's. -/
def Core.applyRegisters (k : Core) (now j : Nat) : Core :=
  let t := k.slot j
  let k := t.v.foldl (fun (k : Core) (x : Nat × Option VReg) => match x.2 with
    | some y => k.putV now k.round.owner x.1 y (BitVec.allOnes 512)
    | none => k) k
  let k := k.noteRaised now t.fflags t.aovf 0
  let ks := t.k.foldl (fun (m : Table Mask) (x : Nat × Option Mask) => match x.2 with
    | some y => Table.set 0 m x.1 y
    | none => m) k.k
  let k := { k with em := t.em.getD k.em, cm := t.cm.getD k.cm, k := ks, fflags := k.fflags ||| t.fflags, aovf := k.aovf || t.aovf }
  k.setSlot j { t with v := [], em := none, cm := none, k := [], fflags := 0, aovf := false }

/-- Step 4 of R237 for one slot. -/
def State.applySlot (s : State) (j : Nat) : Applied :=
  let s := s.mapMe (fun k => k.applyRegisters s.cycle j)
  let rd := s.me.round
  (s.applyStores j (rd.stores.filter (fun x => x.slot == j))).andThen (fun s =>
    (s.applyResults j (rd.heldResults.filter (fun x => x.1 == j))).andThen (fun s => s.applyDeferred j (s.me.slot j).deferred))

/-- Slots 1 to n, ascending. (DEDUCED, log 42) -/
def State.applySlots (s : State) : Nat → Applied
  | 0 => .done s
  | n + 1 => (s.applySlots n).andThen (fun s => s.applySlot (n + 1))

/-- A core whose queues, entries and ranges are all free. -/
def Core.unburdened (k : Core) : Core :=
  { k with fifos := [], results := [], posted := [], ranges := [], loads := [], stores := [], vready := [] }

/-- The places of the core could take all that the slots hand over in one step. (DEDUCED, log 42) -/
def State.fitsAtOnce (s : State) (a : Nat) : Bool :=
  match (s.mapMe Core.unburdened).applySlots a with
  | .done _ => true
  | .held _ _ => false

/-- Close the round with last accepted slot a (R237); RKEND keeps the g-registers. It waits without any effect until the places that the
slots take are free, so that it may be abandoned (R259, R292); slots that hand over more than the core's places hold are applied as
places come free. (DEDUCED, log 42) -/
def closeRound (s : State) (a : Nat) (dest : Option (BitVec 6)) : Eff :=
  let core := s.cur.core
  let bound := s.mySeq.drain.getD s.nextId
  if s.me.roundBusy bound then .wait (s.mapMySeq (fun r => { r with drain := some bound })) none
  else match (s.removeAppends core a true).applySlots a with
    | .held t on =>
      if s.me.round.closing || !s.fitsAtOnce a then .wait (t.mapMe (fun k => { k with round := { k.round with closing := true } })) on
      else .wait s on
    | .done t =>
      let k := t.me
      let rd := k.round
      let last := k.slot a
      let t := match dest with
        | none => t
        | some ga =>
          let t := if a = 0 then t else t.mapMySeq (fun r => { r with g := last.g })
          t.setG ga (BitVec.ofNat 64 (a + 1))
      let t := t.mapMe (fun k => { k with round := { Round.closed with
        acc := a, epoch := rd.epoch, owner := rd.owner, sq := rd.sq, matched := rd.matched } })
      match (if a = 0 then none else last.fault) with
      | none => .done t s.pc16
      | some f =>
        let f := { f with loc := { f.loc with slot := a } }
        .done (t.reportTo core last.faultSeq last.faultUnit last.faultPc f none).1 s.pc16

/-- RKCOMMIT (R237). (DEDUCED, log 42) -/
def execRkcommit (h : Header) (o : EngOps) (s : State) : Result :=
  roundWord s.roundIssuers [] [o.ga] h (fun s =>
    if s.me.round.st = .running then closeRound s s.me.round.accepted (some o.ga) else .trap (.bare .illegal)) s

/-- RKEND (R238). -/
def execRkend (h : Header) (o : EngOps) (s : State) : Result :=
  let _ := o
  roundWord s.roundIssuers [] [] h (fun s =>
    match s.me.round.st with
    | .closed => .done s s.pc16
    | .guessing => .trap (.bare .illegal)
    | .running => closeRound s 0 none) s

/-- RKSTAT: RKSTATE with the number of the slot that carries it out (R238). -/
def execRkstat (h : Header) (o : EngOps) (s : State) : Result :=
  issueWord (Issue.scalar [] [o.ga]) h (fun s => .done (s.setG o.ga (s.me.round.word s.cur.slot)) s.pc16) s

end Sys2Proof.Machine
end

