-- ==== Sys2Proof/Machine/Engine.lean ====
section
/-! DEFINITION. The engines at work: a command at its FIFO's head starts, a record's issues follow, a triggered command begins, and a
performed command completes (R92, R93, R134, R158, R173, R183, R184, R186, R191, R247, R248, R252, R277). -/

namespace Sys2Proof.Machine
open Sys2Proof

/-! ### Performing a word or an issue -/

/-- Perform a word, by its encoding. -/
def State.performWord (s : State) (port : Nat) (c : Command) : Perf :=
  match c.instr.parts with
  | some (0xA0, 0x09, _, .eng o) => performAdrainp s o c
  | some (0xA0, fn, h, .eng o) => performMatrixWord s fn h o c
  | some (0xA8, fn, _, .eng o) => performTransferWord s fn o c
  | some (0xA9, 0, _, .eng _) => performPublish s c
  | some (0xA9, 1, _, .eng _) => performNtake s c
  | some (0xA9, 2, _, .eng _) => performNdecl s c
  | some (0xA9, 3, _, .eng _) => performNwait s c
  | some (0xA9, 6, _, .eng _) => performHelmset s c
  | some (0xA9, _, _, .eng _) => performPwin s c
  | some (0xAA, 0, _, .eng _) => performColl s c
  | some (0xAA, _, _, .eng o) => performAccw s o c
  | some (0xAB, fn, _, .eng o) => performMemorySide s fn o c
  | some (0xB0, fn, _, .eng o) => performChartWord s fn o c
  | some (0xB1, fn, _, .eng _) => performMapWord s fn c
  | some (maj, fn, h, .vec o) => performVectorWord s port maj fn h o c
  | _ => .go s (c.finish .ok 0)

/-- Perform the next issue of a record. -/
def State.performIssue (s : State) (port : Nat) (c : Command) : Perf :=
  match c.instr.parts with
  | some (0xF0, fn, _, .record r) => performMatrixIssue s fn r c
  | some (0xF1, fn, _, .record r) => performTransferIssue s fn r c
  | some (0xF2, _, _, .record r) => performPublishIssue s r c
  | some (0xF3, _, _, .record r) => performCollIssue s r c
  | some (0xF4, 0, _, .record r) => performSortkIssue s r c
  | some (0xF4, _, _, .record r) => performLattnIssue s r c
  | some (maj, fn, h, .record r) => performVectorIssue s port maj fn h r c
  | _ => .go s c

/-- Number of issues that a record in a FIFO makes: one where it stands for one issue held with a slot. -/
def Command.total (c : Command) : Option Nat := (recordOf c.instr).map (fun x => recTotal x.2.2.2 c.w)

/-- The scope of a command's push and of its writes: SCO, or device scope where it names none (R183, R277). -/
def Command.scope (c : Command) : Scope :=
  match c.instr with
  | .xcopy _ o | .xgath _ o | .xscat _ o | .xfill _ o => scopeOf o.sco
  | .xcopyRecord _ r | .xgathRecord _ r | .xscatRecord _ r | .xfillRecord _ r => scopeOf (BitVec.ofNat 3 (r.opx.toNat / 256))
  | _ => .device

/-- TE and TRG: the ready flag that a triggered command waits for (R191). -/
def Command.trigger (c : Command) : Option Nat :=
  match c.instr with
  | .xcopy _ o | .xgath _ o | .xscat _ o | .xfill _ o =>
    if o.imm.getLsbD 5 then some (o.imm.toNat / 64 % 32) else none
  | .xcopyRecord _ r | .xgathRecord _ r | .xscatRecord _ r | .xfillRecord _ r =>
    if recTriggered r then some (recTrigger r) else none
  | _ => none

/-- CR of a transfer word: the barrier that its bytes are credited to (R191). -/
def Command.creditBar (c : Command) : Option Nat :=
  match c.instr with
  | .xcopy _ o | .xgath _ o | .xscat _ o | .xfill _ o =>
    if o.imm.getLsbD 4 then some ((c.vals.getD 2 0).toNat / 2 ^ 32) else none
  | _ => none

/-! ### When a command may start -/

/-- A tile that a matrix command of a FIXED region may not find armed (R173). -/
def Command.armTile (c : Command) : Option Nat :=
  match c.instr with
  | .mma _ o => some (o.tile.toNat + c.slot)
  | .mvec _ o => some o.tile.toNat
  | .mmaRecord _ r => some (r.opx.toNat % 16)
  | .mmac _ _ | .mmacRecord _ _ => some 0
  | _ => none

/-- A peer's tile has arrived in the present cycle: no issue of the matrix engine comes after it there (R65, R177). -/
def State.tileArrived (s : State) (core : Nat) : Bool := (s.core core).arrivals.any (fun a => a.1 == s.cycleOf core)

/-- What a push comes after has been performed, what lies elsewhere at the homes, and no range stands in the way (R183, R190, R273, R277); the
matrix engine begins nothing in a cycle after a peer's tile has arrived in it (R65). (DEDUCED, log 18) -/
def State.mayStart (s : State) (core port : Nat) (c : Command) : Bool :=
  let k := s.core core
  let behind := c.remote.isSome || k.performed c.waits
  match port with
  | 0 | 1 | 2 => behind && !k.rangesBlocked (s.cycleOf core) c && !(c.scope != .core && k.unacknowledged c.behind)
  | 3 => behind && (if c.due.isSome then !(c.armTile.any (fun t => k.isArmed t)) else !s.tileArrived core)
  | _ => true

/-! ### The ends of a turn -/

/-- A fault of a command: a slot's is held and the record goes on without it (R235); any other is reported (R93, R186). -/
def State.issueFault (s : State) (core port : Nat) (c : Command) (f : FaultInfo) : State × Option Command :=
  if f.loc.slot ≠ 0 ∧ c.slot = 0 ∧ !c.single then
    let t := { s with cur := ⟨core, c.seq, f.loc.slot⟩ }
    let found := (t.me.slot f.loc.slot).fault.isNone
    let u := if f.cause = .speculation then t.squash else t.holdFault f c.pc
    (u.mapCore core (fun k =>
      if found then k.setSlot f.loc.slot { k.slot f.loc.slot with faultUnit := engineOfPort port } else k), some c)
  else (s.faultCommand core port c f, none)

/-- Count an issue, and end a record with its last (R93): the value of its result is the number of issues retired. -/
def Command.counted (c : Command) : Command :=
  let c := { c with started := true, iter := c.iter + 1 }
  match c.total with
  | none => c
  | some n =>
    if c.single then c.finish .ok 0
    else if n ≤ c.iter then
      c.finish .ok (match c.instr with
        | .collRecord _ _ => c.iter - c.phase
        | _ => c.iter)
    else c

/-- The fault of a record's credit: that of its last issue (R191). -/
def Command.creditFault (c : Command) : FaultInfo :=
  match recordOf c.instr with
  | some (_, _, _, r) => (recIter r c.w (c.iter - 1)).fault (.bare .barrier)
  | none => .bare .barrier

/-- Bytes for other devices take entries as they come free. A fault found behind them is reported once they are acknowledged (R186, R349,
R376), and so are an issue's bytes credited: a credit is a release of them (R191, R279). -/
def State.postOut (s : State) (core port : Nat) (c : Command) : State :=
  let (s, rest) := s.postPiece core port c
  let c := { c with out := rest }
  let k := s.core core
  let put (s : State) (c : Command) : State := s.mapCore core (fun k => k.putCommand port c)
  let fail (c : Command) (f : FaultInfo) : State :=
    match s.issueFault core port c f with
    | (t, some c) => put t { c with failed := none }
    | (t, none) => t
  let open_ : Bool := k.posted.any (fun e => e.command == some c.id)
  match rest, c.failed, c.owing with
  | [], some f, _ => if open_ then put s c else fail c f
  | [], none, some (bar, bytes) =>
    if open_ then put s c
    else match s.credit core bar bytes with
      | some t => put t { c with phase := 0 }
      | none => fail { c with phase := 0 } c.creditFault
  | _, _, _ => put s c

/-- A schedule miss of a command in a FIXED region (R247, R248). (DEDUCED, log 22) -/
def State.missCommand (s : State) (core port : Nat) (c : Command) : State := s.faultCommand core port c (.bare .scheduleMiss)

/-- What a command reads elsewhere it asks for first (R354); an entry of the core that overlaps it stands before (R349). -/
def State.readFirst (s : State) (core port : Nat) (c : Command) (pas : List Nat) : State :=
  if (s.core core).postedOverlap pas then s
  else (s.addReads core c.id pas).mapCore core (fun k => k.putCommand port { c with started := true })

/-- Only the answers to a command's own reads are before it. -/
def State.ownReads (s : State) (core id : Nat) : State := s.mapCore core (fun k => { k with reads := k.reads.filter (fun r => r.owner == id) })

/-- A command's turn has used the answers to its reads; those of others stand as before. -/
def State.usedReads (t : State) (s : State) (core id : Nat) : State :=
  t.mapCore core (fun k => { k with reads := (s.core core).reads.filter (fun r => r.owner != id) })

/-- One turn of a command: a word is performed, a record makes its next issue. -/
def State.work (s : State) (core port : Nat) (c : Command) : State :=
  let cur := s.cur
  let back (t : State) : State := { t.usedReads s core c.id with cur := cur }
  let isRecord := c.total.isSome
  let t := { s.ownReads core c.id with cur := ⟨core, c.seq, c.slot⟩, noted := [] }
  let missing := s.toRead core c
  if c.total = some 0 then s.mapCore core (fun k => k.putCommand port { c.finish .ok 0 with started := true })
  else if !missing.isEmpty then s.readFirst core port c missing
  else if !(s.core core).readsDone c.id then s
  else
    match (if isRecord then t.performIssue port c else t.performWord port c) with
    | .wait u =>
      if !c.started && c.due.isSome then { s.missCommand core port c with cur := cur }
      else { u.mapCore core (fun k => { k with reads := (s.core core).reads }) with cur := cur }
    | .fault u f =>
      match { u with noted := [] }.issueFault core port c f with
      | (v, some c) => back (v.mapCore core (fun k => k.putCommand port c.counted))
      | (v, none) => back v
    | .go u c =>
      let c := { c with started := true, wrote := c.wrote ++ u.noted }
      back ({ u with noted := [] }.postOut core port (if isRecord then c.counted else c))

/-- Start a command, or let it go on: its cycle, the engine's own pace, and the release of its push. -/
def State.startCommand (s : State) (core port : Nat) (c : Command) : State :=
  let now := s.cycleOf core
  let busy := decide (now < Table.get 0 (s.core core).portFree port)
  if !c.out.isEmpty || c.failed.isSome || c.owing.isSome then s.postOut core port c
  else if c.started then (if busy || (port == 3 && s.tileArrived core) then s else s.work core port c)
  else match c.due with
    | some d =>
      if now < d then s
      else if d < now || busy || !s.mayStart core port c then s.missCommand core port c
      else go
    | none => if busy || !s.mayStart core port c then s else go
where
  go : State :=
    let s := if port ≤ 2 ∧ c.remote.isNone then s.commandRelease core c.scope (s.rangePas core c) else s
    (if port = 3 then s.mapCore core Core.releaseTiles else s).work core port c

def onPort (core port : Nat) (f : Unit → State) : Result :=
  if 512 ≤ core ∨ 8 ≤ port then .fault .noSuchUnit else .next (f ())

/-- The engine of a port is taken up in the present cycle (R41, R65, R252). -/
def State.takeUp (s : State) (core port : Nat) : State :=
  s.mapCore core (fun k => { k with portAt := Table.set 0 k.portAt port (s.cycleOf core + 1) })

/-- The next issue of a record is for a slot that is squashed: it takes no cycle of the engine (R92, R234). -/
def State.skipsSlot (s : State) (core : Nat) (c : Command) : Bool :=
  match recordOf c.instr with
  | some (_, _, _, r) =>
    let j := (recIter r c.w c.iter).j
    c.started && !c.single && decide (c.iter < recTotal r c.w) && j != 0 && !(s.core core).slotLive j
  | none => false

/-- While the tile does not run, only what has been begun goes out. -/
def State.flushOut (s : State) (core port : Nat) (c : Command) : State :=
  if c.out.isEmpty && c.owing.isNone then s else s.postOut core port c

/-- ENGINE_COMMAND_START: the command at the head of a port starts; a word goes on with bytes that wait for entries (R183). -/
def execEngineCommandStart (core port : Nat) (s : State) : Result :=
  onPort core port (fun _ =>
    let k := s.core core
    match k.nextCommand port with
    | some c =>
      if !k.working then s.flushOut core port c
      else if c.trigger.isSome && !c.started then
        (if c.due.any (fun d => decide (d < s.cycleOf core)) then s.missCommand core port c else s)
      else if c.total.isSome && c.started then s
      else (s.takeUp core port).startCommand core port c
    | none => s.takeUp core port)

/-- RECORD_ISSUE: an accepted record's next issue (R92). -/
def execRecordIssue (core port : Nat) (s : State) : Result :=
  onPort core port (fun _ =>
    let k := s.core core
    match k.nextCommand port with
    | some c =>
      if !k.working then s.flushOut core port c
      else if c.total.isSome && c.started then (if s.skipsSlot core c then s else s.takeUp core port).startCommand core port c
      else s
    | none => s)

/-- TRIGGERED_COMMAND_START: a triggered command at the head of its FIFO begins once its ready flag is set (R191, R202). -/
def execTriggeredCommandStart (core port : Nat) (s : State) : Result :=
  onPort core port (fun _ =>
    let k := s.core core
    match k.nextCommand port with
    | some c =>
      match c.trigger with
      | some n => if k.working && !c.started && (k.counter n).flag then s.startCommand core port c else s
      | none => s
    | none => s)

/-! ### Completion (R78, R93, R183, R184, R191, R278) -/

/-- A performed command may complete: its bytes have entries and are credited, its own accesses are performed, its pipeline has run out or
works for a later command, its latency has passed (R173), what it wrote elsewhere is acknowledged (R188, R279), and the fabric holds no notice of
a published block (R290, R295). (DEDUCED, log 33) -/
def State.mayComplete (s : State) (core port : Nat) (c : Command) : Bool :=
  let k := s.core core
  let noticing := match c.instr with
    | .publish _ _ | .publishRecord _ _ | .adrainp _ _ => s.noticeHeld core c
    | _ => false
  !c.unfinished && k.performed c.own && decide (c.nextCycle ≤ s.cycleOf core + 1) &&
  (decide (port < 3) || decide (Table.get 0 k.portFree port ≤ s.cycleOf core + 1) ||
    (port == 3 && (k.fifo port).any (fun d => decide (c.id < d.id) && d.started))) &&
  !((c.scope != .core || c.creditBar.isSome) && k.posted.any (fun e => e.command == some c.id)) && !noticing

/-- Push the result, release the ranges and a drained tile (R172), drop the clean bytes of what was written (R278), make the TKS pushes. -/
def State.complete (s : State) (core port : Nat) (c : Command) (r : CmdResult) : State :=
  let engine := engineOfPort port
  let entry := resultWord r.status r.value
  let pushes := pushesResult c.instr && !(c.single && c.total.isSome)
  let s := if pushes then
      s.mapCore core (fun k =>
        if c.slot = 0 then k.pushResult engine entry c.id
        else { k with round := { k.round with heldResults := k.round.heldResults ++ [(c.slot, engine, entry)] } })
    else s
  let s := s.mapCore core (fun k => ((if c.releases.isSome ∧ c.phase = 0 then k.releaseTiles else k).dropCommand (s.cycleOf core) port c).takeEffect s.tick c)
  (s.dropClean core (c.wrote.flatMap (fun w => (List.range w.2).map (fun i => w.1 + i)))).commandTokens core c

/-- COMMAND_COMPLETE: the performed command at a port's head completes; a stopped FIFO whose handler has returned pushes its
FAULTED entry once there is room (R365). -/
def execCommandComplete (core port : Nat) (s : State) : Result :=
  onPort core port (fun _ =>
    let k := s.core core
    match Table.get none k.stopped port with
    | some st => if st.resumed then s.mapCore core (fun k => k.resume port) else s
    | none =>
      match (k.fifo port).head? with
      | none => s
      | some c =>
        match c.result with
        | none => s
        | some r =>
          if !s.mayComplete core port c then s
          else if pushesResult c.instr && !(c.single && c.total.isSome) && decide (c.slot = 0) && !k.resultRoom (engineOfPort port) then s
          else match c.creditBar with
            | none => s.complete core port c r
            | some bar =>
              match s.credit core bar r.value with
              | some t => t.complete core port c r
              | none => s.faultCommand core port c (.bare .barrier))

end Sys2Proof.Machine
end

