-- ==== Sys2Proof/Machine/Translation.lean ====
section
/-! DEFINITION. The steps of translation (R325): a page walk that ends, and the invalidation that TIGO starts. -/

namespace Sys2Proof.Machine
open Sys2Proof

/-- PAGE_WALK_COMPLETE: the walk's leaf fills the TLBs, or the waiting word learns of the fault; a waiting miss takes the walker. -/
def execPageWalkComplete (walk : Nat) (s : State) : Result :=
  match s.walks.find? (fun w => w.id == walk && w.running) with
  | none => .next s
  | some w =>
    let rest := s.walks.filter (fun x => x.id != walk)
    let next := rest.find? (fun x => !x.running && dieOf x.core == dieOf w.core)
    let rest := match next with
      | some n => rest.map (fun x => if x.id = n.id then { x with running := true } else x)
      | none => rest
    let s := { s with walks := rest }
    .next (match s.walk w.asid w.va with
      | some e => s.tlbFill w.core e
      | none => s.mapCore w.core (fun k => { k with walkFaults := (w.asid, w.va / 65536, s.walkLost w.asid w.va) :: k.walkFaults }))

/-- Whether an entry lies in the invalidated range: the whole ASID for zero bytes (R325). -/
def TlbEntry.inRange (e : TlbEntry) (asid va n : Nat) : Bool :=
  e.asid == asid && (decide (n = 0) || overlaps (e.vpage * 2 ^ e.shift) (2 ^ e.shift) va n)

/-- TIGO_INVALIDATE: a write of a multiple of 64 KiB starts the invalidation of TIASID's range at TIVA, both as they stand now. A write of
another count, or one while an invalidation runs, is discarded. (DESIGN CHOICE, log 107) -/
def execTigoInvalidate (bytes : Nat) (s : State) : Result :=
  if bytes % 65536 ≠ 0 ∨ s.tigo.isSome then .next s
  else .next { s with tigo := some (s.tiasid.toNat, s.tiva.toNat, bytes) }

/-- A core has an access under way that may have used a translation of the range: one in its queues, or a write to another device or the host
that is not acknowledged. -/
def Core.usesRange (k : Core) (asid va n : Nat) : Bool :=
  k.asid == asid && (!k.posted.isEmpty || (k.loads ++ k.stores).any (fun a =>
    a.space == .virt && (decide (n = 0) || a.spans.any (fun x => overlaps x.1 x.2 va n))))

/-- A tile, resident or saved, has such an access. -/
def State.usesRange (s : State) (asid va n : Nat) : Bool :=
  s.cores.any (fun c => c.2.usesRange asid va n) || s.contexts.any (fun x => x.state.usesRange asid va n)

/-- TLB_INVALIDATE_COMPLETE: no TLB holds a matching entry, and every access that used one has been performed at device scope, dirty bytes of
the first-level caches among them (R261, R325). -/
def execTlbInvalidateComplete (s : State) : Result :=
  match s.tigo with
  | none => .next s
  | some (asid, va, n) =>
    if s.usesRange asid va n then .next s
    else
      let keep (l : List TlbEntry) : List TlbEntry := l.filter (fun e => !(e.inRange asid va n))
      let clean (t : Table (List TlbEntry)) : Table (List TlbEntry) :=
        (t.map (fun x => (x.1, keep x.2))).filter (fun x => !x.2.isEmpty)
      let failed (w : Nat × Nat × Option FaultInfo) : Bool := w.1 == asid && (decide (n = 0) || overlaps (w.2.1 * 65536) 65536 va n)
      let t := (s.cores.foldl (fun t c => t.releaseCaches c.1 .device) s).mapCores (fun _ k =>
        { k with tlb := keep k.tlb, walkFaults := k.walkFaults.filter (fun w => !failed w) })
      .next { t with tigo := none, clusterTlb := clean s.clusterTlb, dieTlb := clean s.dieTlb }

end Sys2Proof.Machine
end

