-- ==== Sys2Proof/Machine/Tiles.lean ====
section
/-! DEFINITION. Tiles: how a core is set when a tile starts and what its end leaves (R47, R315), the end by fault (R370), and the
serving of remote command blocks (R316, R317). -/

namespace Sys2Proof.Machine
open Sys2Proof

/-! ### The scratchpad partition (R315) -/

/-- Granules 0 to n - 1 become the scratchpad: lines of granules that leave the cache are written back and dropped, granules that
join it do so without a line. -/
def State.setGranules (s : State) (core n : Nat) : State :=
  let lost := (s.core core).l1.filter (fun l => decide (l.granule < n))
  let s := lost.foldl (fun (s : State) l => s.writeBack l) s
  s.mapCore core (fun k =>
    { k with
      granules := BitVec.ofNat 5 n
      l1 := k.l1.filter (fun l => decide (n ≤ l.granule))
      spad := k.spad.clear (16384 * n) (327680 - 16384 * n) })

/-! ### Starting a tile (R47, R314) -/

/-- Entry point of a sequencer: CODE + 64 ENTRY. -/
def Launch.entry (l : Launch) (q : SeqId) : Word :=
  BitVec.ofNat 64 (l.field 8 8 + 64 * l.field (16 + 2 * q.num) 2)

/-- A sequencer at a tile's start: its entry point, and the tile's indices in g1 to g4. -/
def Launch.sequencer (l : Launch) (q : SeqId) (n : Nat) : Sequencer :=
  let (i1, i2, i3, i4) := l.indices n
  { Sequencer.reset with
    pc := l.entry q
    g := [(1, i1), (2, i2), (3, i3), (4, i4)].foldl (fun t x => Table.set 0 t x.1 (BitVec.ofNat 64 x.2)) [] }

/-- What a remote block's issuer holds until the block has been read outlives its tile (R123). (DEDUCED, log 48) -/
def Range.remote (r : Range) : Bool :=
  match r.owner with
  | .remq _ _ => true
  | _ => false

/-- A core's queues, FIFOs, combiner, scoreboard and waits, emptied. (DEDUCED, log 46) -/
def Core.emptied (k : Core) : Core :=
  { k with
    tokens := [], reserved := [], dataLX := [], dataXS := [], outcomes := [], fifos := [], stopped := [], portFree := [], vready := []
    vlog := [], raisedFlags := 0, raisedAovf := false, raisedDrains := 0, domainBefore := none, stuckSince := none
    deferral := [], inbox := [], notices := [], participating := 0, reached := 0, notified := 0, later := [], events := []
    helm := { Helm.reset with nextOrder := k.helm.nextOrder }
    ranges := k.ranges.filter Range.remote
    reads := [], loads := [], stores := [], counters32 := [], leewayWait := false, tready := [], mmaRun := none, walkFaults := [] }

/-- The first tile of a launch on the core. -/
def Core.firstTile (k : Core) (l : Launch) : Core :=
  { k with
    v := [], conf := .fp, eb := 0, acc := [], counters := [], combination := none, live := 0, armed := [], cwb := 0, cbound := 0
    fmt := [], spad := [], fflags := 0, aovf := false, cdrains := 0, round := .closed
    domain := BitVec.ofNat 8 (l.field 2 1), helmcfg := BitVec.ofNat 53 (l.field 48 8), pwincfg := BitVec.ofNat 40 (l.field 43 5) }

/-- Set a core for place n of a launch. -/
def State.startTile (s : State) (core : Nat) (l : Launch) (n : Nat) : State :=
  let first := (s.core core).lastLaunch != some (l.queue, l.lseq)
  let s := (if first then s.setGranules core (l.scratch / 16384) else s).forgetCount (clusterOf core) (l.queue, l.lseq)
  let qu := s.queue l.queue
  let tile : Tile :=
    { queue := l.queue, lseq := l.lseq, index := n, asid := qu.asid, prio := qu.prio, dispatch := s.clock, yielded := false,
      yieldedFor := [], dead := false, stopping := false, killed := false }
  s.mapCore core (fun k =>
    let k := if first then k.emptied.firstTile l else k.emptied
    { k with
      seqC := l.sequencer .c n, seqL := l.sequencer .l n, seqX := l.sequencer .x n, seqS := l.sequencer .s n
      em := BitVec.allOnes 1024, cm := 0, k := [], rrb := 0, phase := 0, tile := some tile
      lastLaunch := some (l.queue, l.lseq) })

/-! ### Ending a tile (R47, R370) -/

def State.mapLaunch (s : State) (q lseq : Nat) (f : Launch → Launch) : State :=
  { s with launches := s.launches.map (fun l => if l.queue = q ∧ l.lseq = lseq then f l else l) }

/-- Every notice that has neither landed nor been declined counts as declined (R47). -/
def State.declineNotices (s : State) (core : Nat) (notices : List Notice) : State :=
  notices.foldl (fun (s : State) n =>
    match n.state with
    | .waiting | .pulling => s.post (declineOf n.bits n.dev (s.consumerId core))
    | _ => s) s

/-- Requests of a core's Helm and the responses to them land nothing (R47). -/
def State.dropPulls (s : State) (core : Nat) : State :=
  let me := s.consumerId core
  { s with posts := s.posts.filter (fun p => match p.msg with
      | .request _ _ con _ _ => con != me
      | .response _ _ con _ _ _ _ => con != me
      | _ => true) }

/-- A launch has set a group's membership on a die (R314). -/
def State.ownsGroup (s : State) (launch : Option (Nat × Nat)) (die i : Nat) : Bool :=
  s.launches.any (fun l => launch == some (l.queue, l.lseq) && l.dies.contains die && decide (l.field 3 1 / 128 = 1) && l.field 3 1 % 32 == i)

/-- The end of a launch's tile on a core: the core counts as arrived in the groups that the launch has set, and in any other that names it,
but for those of a launch that has another tile of the core, pre-empted ones among them (R256). (DEDUCED, log 102) -/
def State.leaveGroups (s : State) (core : Nat) (launch : Option (Nat × Nat)) : State :=
  let others := ((s.core core).launchOf :: (s.contexts.filter (fun x => x.number == core)).map (fun x => x.state.launchOf)).filter (fun l => l != launch)
  (List.range 32).foldl (fun (s : State) i =>
    let n := 32 * dieOf core + i
    let g := s.group n
    if g.mask.getLsbD (core % 128) && (s.ownsGroup launch (dieOf core) i || !others.any (fun l => s.ownsGroup l (dieOf core) i)) then
      s.setGroup n ({ g with ended := setBit g.ended (core % 128) true }.settle (s.fencedMask (dieOf core)))
    else s) s

/-- Close an open round as RKEND closes a running one, but for what its slots hold (R47): ST 0, W 0, ACC 0. -/
def State.discardRound (s : State) (core : Nat) : State :=
  if (s.core core).round.st = .closed then s
  else (s.removeAppends core 0 true).mapCore core (fun k =>
    { k with round := { Round.closed with epoch := k.round.epoch, owner := k.round.owner, sq := k.round.sq, matched := k.round.matched } })

/-- What the end of a tile leaves: queues and inboxes discarded, the round closed, the core free; its cluster's count may rise (R257). -/
def State.leaveTile (s : State) (core : Nat) : State :=
  let s := (((s.noteCount (clusterOf core)).declineNotices core (s.core core).notices).dropPulls core).discardRound core
  (s.leaveGroups core (s.core core).launchOf).mapCore core (fun k => { k.emptied with
    tile := none, lastLaunch := match k.launchOf with
      | some l => some l
      | none => k.lastLaunch })

/-- All that a tile's normal end waits for (R47, R194, R317, R349). (DEDUCED, log 46) (DEDUCED, log 47) -/
def Core.finished (k : Core) : Bool :=
  (match k.tile with
   | some t => !t.dead && !t.stopping && !t.killed
   | none => false) &&
  allSeqs.all (fun q => (k.seq q).halted && (match k.due q with | .nothing => true | _ => false)) &&
  k.fifos.isEmpty && k.inbox.isEmpty && !(k.blocks.any (fun b => b.2.pinned)) && k.posted.isEmpty

/-- A tile ends in the present cycle (R47). -/
def State.ends (s : State) (core : Nat) : Bool := (s.core core).finished && !s.coreFenced core

/-- TILE_END (R47). -/
def execTileEnd (core : Nat) (s : State) : Result :=
  if 512 ≤ core then .fault .noSuchUnit
  else
    match (s.core core).tile with
    | none => .next s
    | some t =>
      if !s.ends core then .next s
      else .next ((s.leaveTile core).mapLaunch t.queue t.lseq (fun l =>
        { l with running := l.running - 1, done := l.done ++ [t.index] }))

/-- Drop what a stopped tile has not started, reclaim its blocks, decline its notices, discard its deferral queue and its inbox
(R321, R370). A command whose bytes are on their way to entries of the remote-write buffer keeps its place until they have one. (DEDUCED, log 48) -/
def State.dropTile (s : State) (core : Nat) : State :=
  let k := s.core core
  let s := ((s.declineNotices core k.notices).dropPulls core).discardRound core
  let s := k.inbox.foldl (fun (s : State) b =>
    s.mapCoreWith b.source (fun m => m.ranges.any (fun r => r.owner == .remq core b.id)) (fun m => m.dropRanges (s.cycleOf b.source) (.remq core b.id))) s
  let pinned := (k.blocks.filter (fun b => b.2.pinned)).map (fun b => b.1)
  let s := pinned.foldl (fun (s : State) i =>
    (s.withdraw core ((s.core core).block i |>.bid i)).mapCore core (fun k => k.unpin (s.cycleOf core) i false)) s
  s.mapCore core (fun k =>
    let keep (l : List Command) : List Command := l.filter (fun c => c.started && !c.out.isEmpty)
    let fifos := (List.range 8).foldl (fun t p => Table.set [] t p (keep (k.fifo p))) []
    { k with
      fifos := fifos, reads := k.reads.filter (fun r => k.loads.any (fun a => a.id == r.owner)), notices := [], deferral := [], inbox := [], stopped := []
      helm := { k.helm with queue := [], applying := [] }
      ranges := k.ranges.filter Range.remote })

/-- Nothing of a stopped tile is still under way: no bytes wait for entries, no entry for its answer, no access can be performed
(R310, R353). (DEDUCED, log 50) -/
def State.quiet (s : State) (core : Nat) : Bool :=
  let k := s.core core
  k.posted.isEmpty && (List.range 8).all (fun p => (k.fifo p).all (fun c => c.out.isEmpty)) &&
  !(k.loads.any (fun a => s.performable core k.loads a)) && !(k.stores.any (fun a => s.performable core k.stores a))

/-- A stopped tile ends: first it is dropped, and once nothing of it is under way its core is free. (DEDUCED, log 50) -/
def State.endStopped (s : State) (core : Nat) (f : Launch → Launch) : State :=
  match (s.core core).tile with
  | none => s
  | some t =>
    let s := (s.dropTile core).mapCore core Core.kill
    if s.quiet core then
      (s.leaveTile core).mapLaunch t.queue t.lseq (fun l => { f l with running := l.running - 1 })
    else s

/-- TILE_END_BY_FAULT: a trap without a handler, a double trap, a fenced core, or a context that cannot be restored (R370). -/
def execTileEndByFault (core : Nat) (s : State) : Result :=
  if 512 ≤ core then .fault .noSuchUnit
  else
    match (s.core core).tile with
    | none => .next s
    | some t =>
      if t.killed || !(t.dead || s.coreFenced core) then .next s
      else .next (((s.mapLaunch t.queue t.lseq (fun l => { l with faulted := true })).endStopped core (fun l => l)).settleYields)

/-! ### Remote command blocks (R316, R317) -/

/-- A block word may stand in a command block: its class, header fields, RS and g-register fields (R316). -/
def blockWord (i : Instr) : Bool :=
  match i.parts with
  | some (maj, fn, h, o) =>
    let plain := h.m == 0 && h.tkp == 0 && h.tks == 0 && h.msrc == 0 && h.rot == 0 && !pushesResult i
    match o with
    | .eng e =>
      plain && decide (e.ga.toNat < 8) && decide (e.gb.toNat < 8) && decide (e.gc.toNat < 8) &&
      ((maj == 0xA8 && decide (fn < 4)) || (maj == 0xA9 && fn == 0) || (maj == 0xAA && fn == 1) || maj == 0xAB || maj == 0xB0 ||
        maj == 0xB1)
    | .mem m =>
      plain && decide (m.dg.toNat < 8) && decide (m.ag.toNat < 8) && decide (m.bg.toNat < 8) &&
      (match i with
       | .notify _ _ => true
       | _ => false)
    | _ => false
  | none => false

/-- FIFO port of a block word. -/
def blockPort (i : Instr) : Nat :=
  match i with
  | .notify _ o => notifyPort o.off.toNat .c
  | .publish _ _ => 1
  | .accw _ _ => 2
  | _ => 0

/-- Intervals of a block word on the range scoreboard, as for the same word of a sequencer. -/
def blockSpans (c : Command) : List Span :=
  match c.instr with
  | .xcopy _ o => wordSpans 0 o c
  | .xgath _ o => wordSpans 1 o c
  | .xscat _ o => wordSpans 2 o c
  | .xfill _ o => wordSpans 3 o c
  | .publish _ _ => (publication c.copy).spans
  | .accw _ _ => accwSpans c
  | .sortk _ o => sortkSpans o c
  | .echoose _ o => echooseSpans o c
  | .rcsnap _ o => rcsnapSpans o c
  | .lattn _ o => lattnSpans o c
  | .chappend _ _ => chappendSpans c
  | .chlook _ _ => chlookSpans c
  | .bmperm _ _ => bmpermSpans c
  | .bmlook _ _ => bmlookSpans c
  | _ => []

/-- The command of word `at_` of a block: g1 to g7 are P, g0 is 0, and it releases no store of the target. (DEDUCED, log 49) -/
def State.blockCommand (s : State) (b : RemoteBlock) (at_ : Nat) (i : Instr) : Command :=
  let p (g : BitVec 6) : Word := if g = 0 then 0 else BitVec.ofNat 64 (bytesNat ((b.bytes.drop (8 * g.toNat)).take 8))
  let base : Command := s.command i .plain [] none
  match i.parts with
  | some (_, _, h, .eng o) =>
    let copy : List Byte := match i with
      | .xgath _ o | .xscat _ o => natBytes 512 (s.v o.vb.toNat).toNat
      | .publish _ o => s.xload (p o.ga).toNat 64
      | _ => []
    { base with vals := [p o.ga, p o.gb, p o.gc], mask := s.activeMask h, copy := copy, remote := some at_, waits := [], behind := [], w := 1 }
  | _ => { base with remote := some at_, waits := [], behind := [], w := 1 }

/-- A word of XGATH or XSCAT waits for its index register, PUBLISH for a range held on its descriptor (R190). -/
def State.blockAwaits (s : State) (i : Instr) (c : Command) : Bool :=
  match i with
  | .xgath _ o | .xscat _ o => s.me.vecAwaited .c s.cycle o.vb.toNat
  | .publish _ _ => s.me.held s.cycle .spad (c.vals.getD 0 0).toNat 64 true
  | _ => false

/-- Number of bytes of a block at an issuer, by its header. -/
def RemoteBlock.length (b : RemoteBlock) (spad : Memory) : Nat := 64 + 16 * bytesNat (spad.readBytes b.offset 2)

/-- REMOTE_BLOCK_SERVE: the block at the inbox's head is read by segments, then its words enter their FIFOs one by one; a bad header
or word ends it with a reported fault of C-seq (R317). (DEDUCED, log 49) -/
def execRemoteBlockServe (core : Nat) (s : State) : Result :=
  if 512 ≤ core then .fault .noSuchUnit
  else
    let k := s.core core
    match k.inbox with
    | [] => .next s
    | b :: rest =>
      let holds (m : Core) : Bool := m.ranges.any (fun r => r.owner == .remq core b.id)
      let source := s.coreWith b.source holds
      let total := b.length source.spad
      let back (t : State) : State := { t with cur := s.cur }
      if !k.working || s.coreFenced core then .next s
      else if holds source then
        if !k.mayRequest s.tick then .next s
        else
          let part := source.spad.readBytes (b.offset + b.bytes.length) (min 512 (total - b.bytes.length))
          let b := { b with bytes := b.bytes ++ part }
          let t := s.mapCore core (fun k => { k with inbox := b :: rest, helm := { k.helm with lastRequest := some s.tick } })
          -- the read of the whole block is an acquire of what its issuer released (R272, R274)
          .next (if total ≤ b.bytes.length then
              (t.mapCoreWith b.source holds (fun m => m.dropRanges (t.cycleOf b.source) (.remq core b.id))).acquireCaches core (narrowest core b.source)
            else t)
      else
        let nw := bytesNat (b.bytes.take 2)
        let bad := decide (nw = 0) || decide (252 < nw) || bytesNat ((b.bytes.drop 2).take 6) != 0
        let word : Option Instr := match decode ((b.bytes.drop (64 + 16 * b.entered)).take 16) with
          | .ok (i, _) => if blockWord i then some i else none
          | .error _ => none
        let drop (t : State) : State := t.mapCore core (fun k => { k with inbox := rest })
        if !bad && decide (nw ≤ b.entered) then .next (drop s)
        else match (if bad then none else word) with
        | none =>
          .next ((drop s).reportTo core .c 1 k.seqC.pc
            ⟨.illegalOperand, { FaultAt.none with iter := b.entered }⟩ none).1
        | some i =>
          let u := { s with cur := ⟨core, .c, 0⟩ }
          let c := u.blockCommand b b.entered i
          if u.blockAwaits i c then .next s
          else
            let since := match b.since with
              | some (_, t) => t
              | none => u.cycle
            match u.withSpans c (blockSpans c) (u.enterAs (blockPort i) c 16 since 4) with
            | .done t _ =>
              let b := { b with entered := b.entered + 1, since := none }
              .next (back (t.mapCore core (fun k => { k with inbox := if nw ≤ b.entered then rest else b :: rest })))
            | .wait _ (some port) => .next (s.mapCore core (fun k => { k with inbox := { b with since := some (port, since) } :: rest }))
            | _ => .next s

end Sys2Proof.Machine
end

