-- ==== Sys2Proof/Machine/Launches.lean ====
section
/-! DEFINITION. Queues and launches: reading packets (R307 to R309), the arbiter and dispatch (R312 to R314), completion records (R310,
R311), pre-emption and resumption (R318 to R320, R335), the states of a queue and its teardown (R306, R321). -/

namespace Sys2Proof.Machine
open Sys2Proof

/-! ### Reading packets (R307 to R309) -/

/-- QSTAT's FAULT codes (R305). -/
def badPacket : Nat := 1
def ringWrap : Nat := 2
def badConfig : Nat := 3

def State.faultQueue (s : State) (q code : Nat) : State := s.mapQueue q (fun x => { x with state := .faulted, fault := code })

/-- HELM and PWIN fields of a packet lie within R45, the window within the scratchpad request. -/
def Launch.configBad (l : Launch) : Bool :=
  let helm := l.field 48 8
  let pwin := l.field 43 5
  let ingr := helm % 2 ^ 20
  let base := pwin % 2 ^ 20
  let size := pwin / 2 ^ 20
  helm / 2 ^ 53 != 0 || helm / 2 ^ 36 % 2 ^ 16 == 0 || helm / 2 ^ 20 % 2 ^ 16 == 0 ||
  ingr % 512 != 0 || decide (ingr < 512) || decide (65536 < ingr) ||
  base % 512 != 0 || size % 512 != 0 || decide (l.scratch < base + size)

/-- A reserved bit, an unassigned value or a field out of range: check 4 of R308. -/
def Launch.bad (l : Launch) (cent lseq : Nat) : Bool :=
  let domain := l.field 2 1
  l.field 1 1 / 4 != 0 || decide (3 < domain % 8) || domain / 8 % 2 != 0 || domain / 16 == 0 ||
  l.field 3 1 / 32 % 4 != 0 || l.field 32 4 / 2 ^ 9 % 2 ^ 7 != 0 || l.field 32 4 / 2 ^ 26 != 0 ||
  l.ncore == 0 || decide (512 < l.first + l.ncore) || l.field 8 8 % 64 != 0 || l.field 42 1 != 0 || l.field 56 8 != 0 ||
  l.configBad || decide (min (cent - 1) lseq < l.dep)

/-- A checkpoint stops packet reading and dispatch while it quiesces and copies, and while it restores (R377, R379). -/
def Checkpoint.holdsDispatch (c : Checkpoint) : Bool := c.state == .quiescing || c.state == .copying || c.restoring

/-- The host's memory, or another device's, can be asked for: no access is made while HOSTDEV names no device (R360). (DEDUCED, log 52) -/
def State.ringOpen (s : State) (a : Nat) : Bool :=
  match s.place a with
  | .host => s.hostdev / 2 ^ 15 % 2 == 1
  | _ => true

/-- The 64 bytes of the packet at an address: those of this device's memory now, others by a pull (R307, R360). -/
def State.packetAt (s : State) (q a : Nat) : Option (List Byte) :=
  if !s.isRemote a then some (s.physReadBytes true a 64)
  else match (s.queue q).pull with
    | some (b, some bytes) => if b = a then some bytes else none
    | _ => none

/-- The pull of a packet is asked for. -/
def State.askPacket (s : State) (q a : Nat) : State :=
  s.mapQueue q (fun x => { x with pull := if x.pull = some (a, none) then x.pull else some (a, none) })

/-- The pull of a queue's packet is answered where a route leads there (R360). -/
def State.answerRing (s : State) (q : Nat) : State :=
  match (s.queue q).pull with
  | some (a, none) => if (s.linkFault a).isNone then s.mapQueue q (fun x => { x with pull := some (a, some (s.physReadBytes true a 64)) }) else s
  | _ => s

/-- Write into a completion ring: at once into this device's memory, else as a posted write under core number 536 (R310, R360). -/
def State.writeRecord (s : State) (a : Nat) (data : List Byte) (launch : Option (Nat × Nat)) : State :=
  if s.isRemote a then
    ({ s with records := s.records ++ [⟨s.nextId, a, data, 0, launch⟩] } : State).post (.offer a s.devnum 536 s.nextId)
  else s.physWriteBytes true a data

/-- PACKET_READ: check the packet at QRD, then list its launch (R307, R308). (DEDUCED, log 52) -/
def execPacketRead (queue : Nat) (s : State) : Result :=
  if 16384 ≤ queue then .fault .noSuchUnit
  else
    let x := s.queue queue
    -- a launch of no tiles dispatches none: the next packet waits until it has completed
    let clear := s.launches.all (fun l => l.queue != queue || (decide (0 < l.tiles) && decide (l.tiles ≤ l.next) && l.refusedWith == 0))
    if x.state ≠ .enabled ∨ x.qrd = x.qwr ∨ !clear ∨ s.checkpoint.holdsDispatch then .next s
    else
    let a := ringAddress x.qbase + x.qrd.toNat
    let r := s.recordAddress queue x.lseq.toNat + 4
    if !s.ringOpen a || !s.ringOpen r || s.recordPending r 1 then .next s
    else match s.packetAt queue a with
    | none => .next (s.askPacket queue a)
    | some bytes =>
      let l : Launch :=
        { queue := queue, lseq := x.lseq.toNat, packet := bytes, next := 0, running := 0, done := [], faulted := false, aborted := false,
          refusedWith := 0, tstart := none, nfault := 0, dies := [] }
      let s := (s.mapQueue queue (fun x => { x with pull := none })).writeRecord r [0] none
      let take (l : Launch) : State :=
        let next := x.qrd.toNat + 64
        let s := s.mapQueue queue (fun x => { x with
          qrd := BitVec.ofNat 24 (if next = x.qsize.toNat then 0 else next), lseq := x.lseq + 1 })
        { s.settleYields with launches := s.launches ++ [l] }
      if x.qsize.toNat < x.qrd.toNat + 64 then .next (s.faultQueue queue ringWrap)
      else if l.field 0 1 ≠ 1 then .next (s.faultQueue queue badPacket)
      else if l.scratch % 16384 ≠ 0 ∨ 294912 < l.scratch then .next (take { l with refusedWith := 5 })
      else if l.bad x.cent.toNat x.lseq.toNat then .next (s.faultQueue queue badPacket)
      else .next (take l)

/-! ### The arbiter (R312, R313) -/

/-- A core that may be given a tile: free, not fenced, its clock not about to change, and nothing holds dispatch back (R21, R25, R374). -/
def State.offerable (s : State) (core : Nat) : Bool :=
  (s.core core).tile.isNone && !s.coreFenced core && !(s.clockOf (dieOf core)).alters (clusterOf core) &&
  !s.mgmt.throttled && !s.checkpoint.holdsDispatch

/-- Group of a launch with MGE = 1, and the membership it asks for on a die (R309, R314). -/
def Launch.group (l : Launch) (die : Nat) : Option (Nat × BitVec 128) :=
  if l.field 3 1 / 128 = 1 then
    some (32 * die + l.field 3 1 % 32,
      BitVec.ofNat 128 (((List.range 128).filter (fun i => l.includes (128 * die + i))).map (fun i => 2 ^ i)).sum)
  else none

/-- The launch's dispatches on a die wait for a membership change (R314): its own until it is applied, another one before it. (DEDUCED, log 54) -/
def State.groupHeld (s : State) (l : Launch) (die : Nat) : Bool :=
  match l.group die with
  | none => false
  | some (n, m) =>
    match (s.group n).held with
    | none => false
    | some h => !l.dies.contains die || h == m

/-- The saved tile of a queue that left a core, the first saved first. -/
def State.savedOn (s : State) (q core : Nat) : Option SavedContext :=
  match (s.queue q).state with
  | .disabled | .aborting => none
  | _ => s.contexts.find? (fun x => x.queue == q && x.number == core)

/-- A queue's launch with a tile for the core. -/
def State.launchFor (s : State) (q core : Nat) : Option Launch :=
  match s.dispatchable q with
  | some l => if l.includes core && !s.groupHeld l (dieOf core) then some l else none
  | none => none

/-- Queues that have work: those of a listed launch or of a saved tile, in ascending order. -/
def State.busyQueues (s : State) : List Nat :=
  ((s.launches.map (fun l => l.queue) ++ s.contexts.map (fun x => x.queue)).eraseDups).mergeSort (fun a b => decide (a ≤ b))

def State.candidatesFor (s : State) (core : Nat) : List Nat :=
  s.busyQueues.filter (fun q => (s.launchFor q core).isSome || (s.savedOn q core).isSome)

/-- The queue has a tile left to dispatch or to resume. -/
def State.backlogged (s : State) (q : Nat) : Bool :=
  s.launches.any (fun l => l.queue == q && l.hasTile) || s.contexts.any (fun x => x.queue == q)

/-- The loop of R312 at a level over its queues: pointer P is the queue plus 1, 0 before queue 0. -/
def State.serveLevel (s : State) (level : Nat) (queues cands : List Nat) : Nat → Option (Nat × State)
  | 0 => none
  | n + 1 =>
    let p := Table.get 0 s.pointers level
    if 0 < p ∧ cands.contains (p - 1) ∧ 1 ≤ (s.queue (p - 1)).deficit then
      some (p - 1, s.mapQueue (p - 1) (fun x => { x with deficit := x.deficit - 1 }))
    else
      match (match queues.find? (fun q => decide (p ≤ q)) with
        | some q => some q
        | none => queues.head?) with
      | none => none
      | some q =>
        let s := { s with pointers := Table.set 0 s.pointers level (q + 1) }
        let s := s.mapQueue q (fun x => { x with
          deficit := if !s.backlogged q then 0 else if cands.contains q then x.deficit + x.weight else x.deficit })
        State.serveLevel s level queues cands n

/-- A queue is starving (R313). -/
def State.starving (s : State) (q : Nat) : Bool :=
  decide (0 < (s.queue q).floor) && decide ((s.queue q).served * 256 < (s.queue q).floor * s.decisions)

/-- The arbiter's choice for a core, with its pointers and deficits after it (R312, R313). -/
def State.arbitrate (s : State) (core : Nat) : Option (Nat × State) :=
  let cands := s.candidatesFor core
  match cands.find? (fun q => s.starving q) with
  | some q => some (q, s)
  | none =>
    match (cands.map (fun q => (s.queue q).prio)).max? with
    | none => none
    | some level =>
      let listed := (s.busyQueues ++ (s.queues.filter (fun x => x.2.deficit != 0)).map (fun x => x.1)).eraseDups.mergeSort (fun a b => decide (a ≤ b))
      let queues := listed.filter (fun q => (s.queue q).prio == level)
      let at_ := cands.filter (fun q => (s.queue q).prio == level)
      s.serveLevel level queues at_ (2 * queues.length + 2)

/-- Count a decision for a queue; an epoch ends with its 4,096th (R313). (DEDUCED, log 55) -/
def State.countDecision (s : State) (q : Nat) : State :=
  let s := s.mapQueue q (fun x => { x with served := x.served + 1 })
  if s.decisions + 1 < 4096 then { s with decisions := s.decisions + 1 }
  else { s with decisions := 0, queues := (s.queues.map (fun x => (x.1, { x.2 with served := 0 }))).filter (fun x => x.2 != Queue.reset) }

/-- The core whose turn it is: no free core of a lower number has a candidate (R312). -/
def State.offered (s : State) (core : Nat) : Bool :=
  s.offerable core && !((List.range core).any (fun c => s.offerable c && !(s.candidatesFor c).isEmpty))

/-! ### Dispatch (R314) -/

/-- Hand the launch's next tile to the core. -/
def State.dispatch (s : State) (core : Nat) (l : Launch) : State :=
  ((s.startTile core l l.next).mapLaunch l.queue l.lseq (fun l =>
    { l with next := l.next + 1, running := l.running + 1, tstart := match l.tstart with
        | some t => some t
        | none => some s.tick })).settleYields

/-- Set a launch's group on a die before its first tile there: at once, or held while a generation has arrivals (R116, R314). (DEDUCED, log 54) -/
def State.setMembership (s : State) (l : Launch) (die : Nat) : State :=
  match l.group die with
  | none => s
  | some (n, m) =>
    let g := s.group n
    let s := s.mapLaunch l.queue l.lseq (fun l => { l with dies := l.dies ++ [die] })
    if g.arrived = 0 then s.setGroup n { g with mask := m, ended := 0 } else s.setGroup n { g with held := some m }

/-- CORE_OFFER: the arbiter serves a queue's launch, and its next tile goes to the core (R312). -/
def execCoreOffer (core : Nat) (s : State) : Result :=
  if 512 ≤ core then .fault .noSuchUnit
  else if !s.offered core then .next s
  else
    match s.arbitrate core with
    | none => .next s
    | some (q, t) =>
      if (s.savedOn q core).isSome then .next s
      else match s.launchFor q core with
      | none => .next s
      | some l =>
        let die := dieOf core
        if (l.group die).isSome && !l.dies.contains die then
          let u := s.setMembership l die
          match u.launchFor q core with
          | none => .next u
          | some l => .next (((t.setMembership l die).dispatch core { l with dies := l.dies }).countDecision q)
        else .next ((t.dispatch core l).countDecision q)

/-! ### Completion (R310, R311) -/

/-- Number of tiles in walk order that ended normally with every earlier one. -/
def Launch.doneRun (l : Launch) : Nat := ((List.range l.done.length).takeWhile (fun n => l.done.contains n)).length

/-- Every core of the launch is fenced (R374). (DEDUCED, log 53) -/
def State.allFenced (s : State) (l : Launch) : Bool := (List.range l.ncore).all (fun i => s.coreFenced (l.first + i))

/-- The STATUS with which a launch completes now, if it does. (DEDUCED, log 53) -/
def State.launchStatus (s : State) (l : Launch) : Option Nat :=
  let draining := (s.queue l.queue).state == .draining
  let saved := (s.contexts.filter (fun x => x.state.launchOf == some (l.queue, l.lseq))).length
  let idle := decide (l.running = 0) && saved == 0
  let dispatched := decide (l.tiles ≤ l.next)
  let fenced := decide (0 < l.tiles) && s.allFenced l
  if l.refusedWith ≠ 0 then some l.refusedWith
  else if fenced ∧ l.running ≤ saved then some (if l.aborted ∨ draining then 3 else 2)
  else if !idle || s.depHeld l then none
  else if s.depFailed l then some 4
  else if l.aborted then some 3
  else if draining then some (if dispatched && !l.faulted then 1 else 3)
  else if l.faulted then some 2
  else if dispatched && !s.launchHeld l then some 1
  else none

/-- The 64 bytes of a completion record. -/
def State.completionRecord (s : State) (l : Launch) (status : Nat) : List Byte :=
  let n := l.doneRun
  let last : List Nat :=
    if n = 0 then [65535, 65535, 65535, 65535]
    else let (i1, i2, i3, i4) := l.indices (n - 1); [i1, i2, i3, i4]
  natBytes 4 l.lid ++ natBytes 4 status ++ natBytes 8 l.done.length ++ last.flatMap (fun i => natBytes 2 i) ++
  natBytes 8 (l.tstart.getD s.tick) ++ natBytes 8 s.tick ++ natBytes 8 l.nfault ++ List.replicate 16 0

/-- Saved tiles are discarded: their blocks reclaimed, their notices declined, what the issuers of their remote blocks hold released (R321, R374). -/
def State.discardContexts (s : State) (p : SavedContext → Bool) : State :=
  let gone := s.contexts.filter p
  let s := gone.foldl (fun (s : State) x =>
    let s := (x.state.blocks.filter (fun b => b.2.pinned)).foldl (fun (s : State) b => s.withdraw x.number (b.2.bid b.1)) s
    let s := s.declineNotices x.number x.state.notices
    x.state.inbox.foldl (fun (s : State) b =>
      s.mapCoreWith b.source (fun m => m.ranges.any (fun r => r.owner == .remq x.number b.id)) (fun m => m.dropRanges (s.cycleOf b.source) (.remq x.number b.id))) s) s
  let s := gone.foldl (fun (s : State) x => s.leaveGroups x.number x.state.launchOf) s
  { s with contexts := s.contexts.filter (fun x => !p x) }

/-- A launch whose record has been written is no longer listed. -/
def State.finishLaunch (s : State) (queue lseq : Nat) : State :=
  { s with launches := s.launches.filter (fun l => !(l.queue == queue && l.lseq == lseq)) }.settleYields

/-- LAUNCH_COMPLETE: the record is written once, at system scope, and the launch is no longer listed (R310); one that lies elsewhere is a posted
write, and the launch is complete with its acknowledgement (R360). Saved tiles of a launch all of whose cores are fenced end with it (R374).
(DEDUCED, log 52) (DEDUCED, log 53) -/
def execLaunchComplete (queue lseq : Nat) (s : State) : Result :=
  if 16384 ≤ queue then .fault .noSuchUnit
  else
    match s.launches.find? (fun l => l.queue == queue && l.lseq == lseq) with
    | none => .next s
    | some l =>
      match s.launchStatus l with
      | none => .next s
      | some st =>
        let a := s.recordAddress queue lseq
        if s.recordPending a 64 || !s.ringOpen a then .next s
        else
          let t := (s.discardContexts (fun x => x.state.launchOf == some (queue, lseq))).writeRecord a (s.completionRecord l st) (some (queue, lseq))
          .next (if s.isRemote a then t else t.finishLaunch queue lseq)

/-! ### Pre-emption (R318 to R320) -/

/-- Context slots of a queue that are free for one more tile to be saved. (DEDUCED, log 55) -/
def State.slotFree (s : State) (q : Nat) : Bool :=
  let saved := (s.contexts.filter (fun x => x.queue == q)).length
  let stopping := (s.cores.filter (fun x => match x.2.tile with
    | some t => t.queue == q && t.stopping
    | none => false)).length
  decide (saved + stopping < (s.queue q).ctxn)

/-- A victim's order: lowest priority, then most recently dispatched, then highest core. -/
def victimBefore (x y : Nat × Tile) : Bool :=
  decide (x.2.prio < y.2.prio) || (x.2.prio == y.2.prio && (decide (y.2.dispatch < x.2.dispatch) ||
    (x.2.dispatch == y.2.dispatch && decide (y.1 < x.1))))

/-- The tile that gives way to a queue's launch, if one does. (DEDUCED, log 55) -/
def State.victim (s : State) (q : Nat) (l : Launch) : Option (Nat × Tile) :=
  let prio := (s.queue q).prio
  let resident := s.cores.filterMap (fun x => match x.2.tile with
    | some t => if l.includes x.1 then some (x.1, t) else none
    | none => none)
  if resident.any (fun x => x.2.stopping) then none
  else
    let may := resident.filter (fun x =>
      !x.2.dead && !x.2.killed && !s.coreFenced x.1 && s.slotFree x.2.queue &&
      (decide (x.2.prio < prio) || (x.2.prio == prio && x.2.yieldedFor.contains q)))
    may.foldl (fun (b : Option (Nat × Tile)) x => match b with
      | none => some x
      | some y => if victimBefore x y then some x else some y) none

/-- Abandon the words that wait: they issue again on resumption (R259). -/
def Core.abandonAll (k : Core) : Core :=
  allSeqs.foldl (fun k q => (k.abandon q).mapSeq q (fun r => { r with waitSince := none, waitOn := none, segment := none, scattered := 0, drain := none })) k

/-- PREEMPT_TRIGGER: a queue with a dispatchable tile and no free core in its core set stops a victim (R318, R319). -/
def execPreemptTrigger (queue : Nat) (s : State) : Result :=
  if 16384 ≤ queue then .fault .noSuchUnit
  else
    match s.dispatchable queue with
    | none => .next s
    | some l =>
      let free := (List.range l.ncore).any (fun i => (s.core (l.first + i)).tile.isNone && !s.coreFenced (l.first + i))
      if free || s.checkpoint.holdsDispatch then .next s
      else match s.victim queue l with
      | none => .next s
      | some (c, _) =>
        .next ((s.retractCount c).mapCore c (fun k => { k.abandonAll with tile := k.tile.map (fun t => { t with stopping := true }) }))

/-- What a stopping tile still waits for: its outstanding segments, its entries and its reads (R294, R353). -/
def State.maySave (s : State) (core : Nat) : Bool :=
  let k := s.core core
  let me := s.consumerId core
  s.quiet core && k.helm.queue.isEmpty && k.helm.applying.isEmpty && !(k.reads.any (fun r => r.asked && !r.answered)) &&
  !(s.posts.any (fun p => match p.msg with
    | .response _ _ con _ _ _ _ => con == me
    | _ => false))

/-- What of a core a context slot holds: all but the caches, and of its timing the mode of each sequencer's last word (R250) and the tick of
the Helm's last request (R288) (R47, R319, R320). (DESIGN CHOICE, log 56) -/
def Core.saved (k : Core) : Core :=
  let still (r : Sequencer) : Sequencer :=
    { r with
      ready := [], lastIssue := none, segment := none, lines := [], waitSince := none, waitOn := none, poppedAt := none, scattered := 0, drain := none, turnAt := none, turns := 0 }
  { k with
    seqC := still k.seqC, seqL := still k.seqL, seqX := still k.seqX, seqS := still k.seqS
    l1 := [], l1Clock := 0, tlb := [], portFree := [], vready := [], tready := [], mmaRun := none, walkFaults := []
    vlog := [], raisedAt := 0, raisedFlags := 0, raisedAovf := false, raisedDrains := 0, domainBefore := none, portAt := [], stuckSince := none
    mbanks := [], vbanks := [], arrivals := [], ranges := k.liveRanges
    tokens := k.tokens.map (fun x => (x.1, x.2.map (fun t => { t with ready := 0 })))
    outcomes := k.outcomes.map (fun x => (x.1, x.2.map (fun t => { t with ready := 0, cycle := 0 })))
    dataLX := k.dataLX.map (fun x => (x.1, 0, x.2.2)), dataXS := k.dataXS.map (fun x => (x.1, 0, x.2.2))
    inbox := k.inbox.map (fun b => { b with since := none })
    fifos := k.fifos.map (fun p => (p.1, p.2.map (fun c => { c with waitSince := none })))
    loads := k.loads.map (fun a => { a with deadline := none }) }

/-- The lowest free context slot of a queue. -/
def State.contextSlot (s : State) (q : Nat) : Nat :=
  ((List.range 256).find? (fun i => !(s.contexts.any (fun x => x.queue == q && x.slot == i)))).getD 0

/-- The part writes a context into a slot of 2 MiB: what its bytes are is the part's own (R319). (DESIGN CHOICE, log 56) -/
def State.writeArea (s : State) (pa : Nat) : State :=
  match s.place pa with
  | .hbm a =>
    { s with
      areas := ⟨a, s.nextId, []⟩ :: s.areas.filter (fun x => x.base != a), l2 := s.l2.filter (fun c => !(decide (a ≤ c.1) && decide (c.1 < a + 2 ^ 21)))
      nextId := s.nextId + 1 }
  | _ => s

/-- CONTEXT_SAVE (R319, R335): the stopped tile's state goes into a slot; blocks, counters and result entries leave the core with it.
(DESIGN CHOICE, log 56) -/
def execContextSave (core : Nat) (s : State) : Result :=
  if 512 ≤ core then .fault .noSuchUnit
  else
    match (s.core core).tile with
    | none => .next s
    | some t =>
      if !t.stopping || t.dead || t.killed || s.coreFenced core || !s.maySave core then .next s
      else
        let x : SavedContext := ⟨t.queue, s.contextSlot t.queue, core, s.cycleOf core, (s.core core).saved⟩
        let t := { s with contexts := s.contexts ++ [x] }.writeArea ((s.queue x.queue).ctxbase.toNat + 2 ^ 21 * x.slot)
        .next ((t.noteCount (clusterOf core)).mapCore core (fun k =>
          let blocks : Table Block := k.blocks.map (fun b =>
            (b.1, { Block.free with used := true, generation := b.2.generation, latest := b.2.latest }))
          { k.emptied with
            tile := none, lastLaunch := k.launchOf, routing := [], ranges := [], posted := [], blocks := blocks, results := [], resultOf := [] }))

/-- A command's cycles, shifted by the time for which its tile was away; one that had not started is due no earlier than now (R259). -/
def Command.shift (c : Command) (now : Nat) (f : Nat → Nat) : Command :=
  { c with cycle := f c.cycle, due := c.due.map (fun d => max (f d) now), nextCycle := f c.nextCycle }

/-- A saved core on its core again: shifted cycles, the core's own caches, its counters added (R320, R335). (DESIGN CHOICE, log 56) -/
def SavedContext.restore (x : SavedContext) (k : Core) (now tick : Nat) : Core :=
  let f (c : Nat) : Nat := c + now - x.cycle
  let y := x.state
  { y with
    l1 := k.l1, l1Clock := k.l1Clock, tlb := k.tlb, granules := k.granules
    fifos := y.fifos.map (fun p => (p.1, p.2.map (fun c => c.shift now f)))
    ranges := (y.ranges.map (fun r => { r with cycle := f r.cycle }))
    blocks := ((List.range 64).filterMap (fun i =>
      let b := y.block i
      if b.pinned then some (i, { b with latest := if (k.block i).used then (k.block i).latest else b.latest, expired := b.expired || decide (b.deadline ≤ tick) })
      else if k.block i = Block.free then none else some (i, k.block i)))
    routing := y.routing.foldl (fun t r =>
      Table.set 0 t r.1 (BitVec.ofNat 32 (min (2 ^ 32 - 1) ((Table.get 0 t r.1).toNat + r.2.toNat)))) k.routing
    tile := y.tile.map (fun t => { t with stopping := false, yielded := false })
    lastLaunch := y.launchOf }

/-- TILE_RESUME: the arbiter serves a queue that has a saved tile of this core (R320). (DEDUCED, log 55) -/
def execTileResume (core : Nat) (s : State) : Result :=
  if 512 ≤ core then .fault .noSuchUnit
  else if !s.offered core then .next s
  else
    match s.arbitrate core with
    | none => .next s
    | some (q, t) =>
      match s.savedOn q core with
      | none => .next s
      | some x =>
        let slot := (s.queue q).ctxbase.toNat + 2 ^ 21 * x.slot
        let bad := (List.range 32).any (fun i => (s.dataFault true (slot + 65536 * i)).isSome) || (match s.place slot with
          | .hbm a => s.poisoned.any (fun y => decide (a ≤ y.1) && decide (y.1 < a + 2 ^ 21))
          | _ => false)
        let u := t.setGranules core x.state.granules.toNat
        let u := { u with contexts := u.contexts.filter (fun y => !(y.queue == x.queue && y.slot == x.slot)) }
        let u := (u.mapCore core (fun k => x.restore k (s.cycleOf core) s.tick)).lowerPhase core
        .next ((if bad then u.mapCore core Core.kill else u).countDecision q)

/-! ### Teardown (R306, R321) -/

/-- ABORT: resident tiles are killed, saved ones discarded with their blocks reclaimed and their notices declined. -/
def State.abortQueue (s : State) (q : Nat) : State :=
  let mine := s.contexts.filter (fun x => x.queue == q)
  let s := s.discardContexts (fun x => x.queue == q)
  let away (l : Launch) : Nat := (mine.filter (fun x => x.state.launchOf == some (l.queue, l.lseq))).length
  let torn (l : Launch) : Launch := if l.queue = q then { l with aborted := true, running := l.running - away l } else l
  let s : State := { s with launches := s.launches.map torn }
  let killed := (s.cores.filter (fun (x : Nat × Core) => match x.2.tile with
    | some t => t.queue == q
    | none => false)).map (fun x => x.1)
  let s := killed.foldl (fun (s : State) c =>
    (s.retractCount c).mapCore c (fun k => { k.abandonAll with tile := k.tile.map (fun t => { t with killed := true, stopping := false }) })) s
  (s.mapQueue q (fun x => { x with state := .aborting })).settleYields

/-- QCTL_ENABLE (R306, R342, R383, R385, R390). -/
def execQctlEnable (queue : Nat) (s : State) : Result :=
  if 16384 ≤ queue then .fault .noSuchUnit
  else
    let x := s.queue queue
    match x.state with
    | .disabled =>
      let size := x.qsize.toNat
      let bad := x.weight == 0 || x.cent == 0 || decide (65536 < x.cent.toNat) || decide (size < 128) || decide (16777200 < size) ||
        decide (size ≤ x.qrd.toNat) || decide (size ≤ x.qwr.toNat) || s.shards.wfence.getLsbD x.asid || s.mgmt.sfctl.getLsbD 0 ||
        s.trust.lcstate == .scrapped || s.trust.bootst % 4 == 2
      if bad then .next (s.mapQueue queue (fun x => { x with fault := badConfig }))
      else
        -- launch numbers begin again: a tile of an earlier launch is no longer one of the same launch (R314)
        .next ((s.mapQueue queue (fun x => { x with state := .enabled, lseq := 0, fault := 0, pull := none })).mapCores (fun _ k =>
          if k.lastLaunch.any (fun l => l.1 == queue) then { k with lastLaunch := none } else k))
    | .faulted => .next (s.mapQueue queue (fun x => { x with state := .enabled, fault := 0, pull := none }))
    | _ => .next s

/-- QCTL_DRAIN (R306, R321). -/
def execQctlDrain (queue : Nat) (s : State) : Result :=
  if 16384 ≤ queue then .fault .noSuchUnit
  else
    match (s.queue queue).state with
    | .enabled | .faulted => .next (s.mapQueue queue (fun x => { x with state := .draining })).settleYields
    | _ => .next s

/-- QCTL_ABORT (R306, R321). -/
def execQctlAbort (queue : Nat) (s : State) : Result :=
  if 16384 ≤ queue then .fault .noSuchUnit
  else
    match (s.queue queue).state with
    | .enabled | .faulted | .draining => .next (s.abortQueue queue)
    | _ => .next s

/-- No tile of the queue is resident or saved, and none of its launches awaits its record. (DEDUCED, log 51) -/
def State.queueEmpty (s : State) (q : Nat) : Bool :=
  !(s.launches.any (fun l => l.queue == q)) && !(s.contexts.any (fun x => x.queue == q)) &&
  !(s.cores.any (fun x => match x.2.tile with
    | some t => t.queue == q
    | none => false))

/-- QUEUE_DRAIN_DONE (R306). (DEDUCED, log 51) -/
def execQueueDrainDone (queue : Nat) (s : State) : Result :=
  if 16384 ≤ queue then .fault .noSuchUnit
  else if (s.queue queue).state = .draining ∧ s.queueEmpty queue then .next (s.mapQueue queue (fun x => { x with state := .disabled }))
  else .next s

/-- QUEUE_ABORT_DONE: killed tiles leave their cores as they come to rest; with the last launch's record written the queue is disabled
(R306, R321). (DEDUCED, log 51) -/
def execQueueAbortDone (queue : Nat) (s : State) : Result :=
  if 16384 ≤ queue then .fault .noSuchUnit
  else if (s.queue queue).state ≠ .aborting then .next s
  else
    let killed := (s.cores.filter (fun x => match x.2.tile with
      | some t => t.queue == queue && t.killed
      | none => false)).map (fun x => x.1)
    let t := killed.foldl (fun (s : State) c => s.endStopped c (fun l => l)) s
    .next (if t.queueEmpty queue then t.mapQueue queue (fun x => { x with state := .disabled }) else t)

/-- QWR_DOORBELL (R304, R321, R359). -/
def execQwrDoorbell (queue value : Nat) (s : State) : Result :=
  if 16384 ≤ queue then .fault .noSuchUnit
  else .next (s.mapQueue queue (fun x => { x with qwr := BitVec.ofNat 24 (value % 2 ^ 24 / 16 * 16) }))

end Sys2Proof.Machine
end

