-- ==== Sys2Proof/Machine/Crypto.lean ====
section
/-! DEFINITION. Algorithms of R380 that the manual names by their standards: AES-256 (FIPS 197), its Galois counter mode (SP 800-38D), and
SHAKE256 with the functions of its family (FIPS 202) on which XMSS and ML-KEM stand. -/

namespace Sys2Proof.Machine
open Sys2Proof

/-! ### AES-256 -/

/-- Double in GF(2^8). -/
def gfDouble (x : Byte) : Byte := if x.getLsbD 7 then (x <<< 1) ^^^ 0x1B#8 else x <<< 1

/-- Product in GF(2^8), over the low n bits of the second factor. -/
def gfMul (x y : Byte) : Nat → Byte
  | 0 => 0
  | n + 1 => (if y.getLsbD 0 then x else 0) ^^^ gfMul (gfDouble x) (y >>> 1) n

/-- x^254, the inverse. -/
def gfInv (x : Byte) : Byte :=
  let sq (a : Byte) : Byte := gfMul a a 8
  let x2 := sq x; let x4 := sq x2; let x8 := sq x4; let x16 := sq x8; let x32 := sq x16; let x64 := sq x32; let x128 := sq x64
  [x4, x8, x16, x32, x64, x128].foldl (fun a b => gfMul a b 8) x2

/-- SubBytes of a byte. -/
def sbox (x : Byte) : Byte :=
  let b := gfInv x
  b ^^^ b.rotateLeft 1 ^^^ b.rotateLeft 2 ^^^ b.rotateLeft 3 ^^^ b.rotateLeft 4 ^^^ 0x63#8

def xorBytes (a b : List Byte) : List Byte := List.zipWith (fun x y => x ^^^ y) a b

/-- Words of the key schedule beyond the eight of the key, the latest first. -/
def expandKey (rcon : Byte) (i : Nat) (words : List (List Byte)) : Nat → List (List Byte)
  | 0 => words
  | n + 1 =>
    let prev := words.headD []
    let t : List Byte :=
      if i % 8 = 0 then
        let r := (prev.drop 1 ++ prev.take 1).map sbox
        xorBytes r [rcon, 0, 0, 0]
      else if i % 8 = 4 then prev.map sbox
      else prev
    expandKey (if i % 8 = 0 then gfDouble rcon else rcon) (i + 1) (xorBytes (words.getD 7 []) t :: words) n

/-- The fifteen round keys, of 16 bytes each. -/
def roundKeys (key : List Byte) : List (List Byte) :=
  let first := (List.range 8).map (fun i => (key.drop (4 * i)).take 4)
  let all := (expandKey 1 8 first.reverse 52).reverse
  (List.range 15).map (fun i => ((all.drop (4 * i)).take 4).flatten)

def shiftRows (s : List Byte) : List Byte :=
  (List.range 16).map (fun i => s.getD ((i + 4 * (i % 4)) % 16) 0)

def mixColumns (s : List Byte) : List Byte :=
  (List.range 16).map (fun i =>
    let at_ (j : Nat) : Byte := s.getD (4 * (i / 4) + (i + j) % 4) 0
    gfDouble (at_ 0) ^^^ gfDouble (at_ 1) ^^^ at_ 1 ^^^ at_ 2 ^^^ at_ 3)

/-- One block of 16 bytes under a key of 32. (PRESUMED, log 5) -/
def aesBlock (key block : List Byte) : List Byte :=
  let ks := roundKeys key
  let s := xorBytes block (ks.headD [])
  let s := ((ks.drop 1).take 13).foldl (fun s k => xorBytes (mixColumns (shiftRows (s.map sbox))) k) s
  xorBytes (shiftRows (s.map sbox)) (ks.getD 14 [])

/-! ### Galois counter mode -/

/-- An empty key slot (R386, R388). -/
def zeroKey : List Byte := List.replicate 32 0

/-- Bytes in the order of the standards, the first the most significant. -/
def beNat (bs : List Byte) : Nat := bs.foldl (fun a b => 256 * a + b.toNat) 0
def beBytes (n x : Nat) : List Byte := (natBytes n x).reverse

/-- Keystream block of the counter's value. -/
def keystream (key iv : List Byte) (ctr : Nat) : List Byte := aesBlock key (iv ++ beBytes 4 (ctr % 2 ^ 32))

/-- Product in GF(2^128) with the bit order of GHASH: bit 127 is the coefficient of 1. -/
def ghashMul (z v : BitVec 128) (y : BitVec 128) : Nat → BitVec 128
  | 0 => z
  | n + 1 =>
    ghashMul (if y.getLsbD 127 then z ^^^ v else z)
      (if v.getLsbD 0 then (v >>> 1) ^^^ 0xE1000000000000000000000000000000#128 else v >>> 1) (y <<< 1) n

/-- The chunks of a text, the last one padded with zeros. -/
def blocks16 : Nat → List Byte → List (List Byte)
  | 0, _ => []
  | n + 1, bs => (bs.take 16 ++ List.replicate (16 - bs.length) 0) :: blocks16 n (bs.drop 16)

def ghash (h : BitVec 128) (blocks : List (List Byte)) : BitVec 128 :=
  blocks.foldl (fun y b => ghashMul 0 h (y ^^^ BitVec.ofNat 128 (beNat b)) 128) 0

/-- Encrypt or decrypt bytes that begin at offset 16 i of the message (R338: the block at offset o takes counter 2 + o div 16). (PRESUMED, log 5) -/
def gcmCrypt (key iv : List Byte) (i : Nat) (data : List Byte) : List Byte :=
  ((List.range ((data.length + 15) / 16)).map (fun j =>
    xorBytes ((data.drop (16 * j)).take 16) (keystream key iv (2 + i + j)))).flatten

/-- Tag of a ciphertext, with no additional data. (PRESUMED, log 5) -/
def gcmTag (key iv cipher : List Byte) : List Byte :=
  let h := BitVec.ofNat 128 (beNat (aesBlock key (List.replicate 16 0)))
  let len := List.replicate 8 0 ++ beBytes 8 (8 * cipher.length)
  let g := ghash h (blocks16 ((cipher.length + 15) / 16) cipher ++ [len])
  xorBytes (beBytes 16 g.toNat) (keystream key iv 1)

/-! ### SHAKE256 and its family -/

def keccakRotations : List Nat :=
  [0, 1, 62, 28, 27, 36, 44, 6, 55, 20, 3, 10, 43, 25, 39, 41, 45, 15, 21, 8, 18, 2, 61, 56, 14]

def keccakRounds : List (BitVec 64) :=
  [0x0000000000000001#64, 0x0000000000008082#64, 0x800000000000808A#64, 0x8000000080008000#64,
   0x000000000000808B#64, 0x0000000080000001#64, 0x8000000080008081#64, 0x8000000000008009#64,
   0x000000000000008A#64, 0x0000000000000088#64, 0x0000000080008009#64, 0x000000008000000A#64,
   0x000000008000808B#64, 0x800000000000008B#64, 0x8000000000008089#64, 0x8000000000008003#64,
   0x8000000000008002#64, 0x8000000000000080#64, 0x000000000000800A#64, 0x800000008000000A#64,
   0x8000000080008081#64, 0x8000000000008080#64, 0x0000000080000001#64, 0x8000000080008008#64]

/-- One round over 25 lanes, lane x + 5 y. -/
def keccakRound (a : List (BitVec 64)) (rc : BitVec 64) : List (BitVec 64) :=
  let at_ (l : List (BitVec 64)) (i : Nat) : BitVec 64 := l.getD i 0
  let c := (List.range 5).map (fun x => at_ a x ^^^ at_ a (x + 5) ^^^ at_ a (x + 10) ^^^ at_ a (x + 15) ^^^ at_ a (x + 20))
  let d := (List.range 5).map (fun x => at_ c ((x + 4) % 5) ^^^ (at_ c ((x + 1) % 5)).rotateLeft 1)
  let a := (List.range 25).map (fun i => at_ a i ^^^ at_ d (i % 5))
  -- lane (x, y) of the permuted state comes from lane (x + 3 y, x)
  let b := (List.range 25).map (fun i =>
    let x := i % 5
    let y := i / 5
    let src := (x + 3 * y) % 5 + 5 * x
    (at_ a src).rotateLeft (keccakRotations.getD src 0))
  let e := (List.range 25).map (fun i => at_ b i ^^^ (~~~(at_ b ((i + 1) % 5 + 5 * (i / 5))) &&& at_ b ((i + 2) % 5 + 5 * (i / 5))))
  match e with
  | l :: r => (l ^^^ rc) :: r
  | [] => []

def keccak (a : List (BitVec 64)) : List (BitVec 64) := keccakRounds.foldl keccakRound a

/-- Absorb n blocks of a rate in bytes. -/
def absorb (rate : Nat) (a : List (BitVec 64)) : Nat → List Byte → List (BitVec 64)
  | 0, _ => a
  | n + 1, bs =>
    let block := bs.take rate
    let a := (List.range 25).map (fun i =>
      if 8 * i < rate then a.getD i 0 ^^^ BitVec.ofNat 64 (bytesNat ((block.drop (8 * i)).take 8)) else a.getD i 0)
    absorb rate (keccak a) n (bs.drop rate)

/-- Squeeze n blocks of a rate in bytes. -/
def squeeze (rate : Nat) (a : List (BitVec 64)) : Nat → List Byte
  | 0 => []
  | n + 1 => (a.take (rate / 8)).flatMap (fun w => natBytes 8 w.toNat) ++ squeeze rate (keccak a) n

/-- The first n bytes of a sponge of a rate, its domain's bits and the first padding bit in a byte. -/
def sponge (rate : Nat) (domain : Byte) (bs : List Byte) (n : Nat) : List Byte :=
  let blocks := bs.length / rate + 1
  let pad := bs ++ [domain] ++ List.replicate (rate * blocks - bs.length - 1) 0
  let last := rate * blocks - 1
  let pad := pad.take last ++ [(pad.getD last 0) ||| 0x80#8]
  (squeeze rate (absorb rate (List.replicate 25 0) blocks pad) ((n + rate - 1) / rate)).take n

/-- The first n bytes of SHAKE256. (PRESUMED, log 5) -/
def shake256 (bs : List Byte) (n : Nat) : List Byte := sponge 136 0x1F#8 bs n
/-- The first n bytes of SHAKE128. (PRESUMED, log 5) -/
def shake128 (bs : List Byte) (n : Nat) : List Byte := sponge 168 0x1F#8 bs n
/-- SHA3-256. (PRESUMED, log 5) -/
def sha3x256 (bs : List Byte) : List Byte := sponge 136 0x06#8 bs 32
/-- SHA3-512. (PRESUMED, log 5) -/
def sha3x512 (bs : List Byte) : List Byte := sponge 72 0x06#8 bs 64

end Sys2Proof.Machine
end

