-- ==== Sys2Proof/Machine/PostQuantum.lean ====
section
/-! DEFINITION. The post-quantum algorithms of R380, by their standards: XMSS-SHAKE256_20_256 and XMSSMT-SHAKE256_40/4_256 (RFC 8391, SP
800-208), and ML-KEM-1024 (FIPS 203). -/

namespace Sys2Proof.Machine
open Sys2Proof

/-! ### One-time signatures and trees (RFC 8391, n = 32, w = 16) -/

/-- The keyed functions, by number: 0 F, 1 H, 2 H_msg, 3 PRF, 4 the generation of keys (SP 800-208). (PRESUMED, log 5) -/
def xmssHash (fn : Nat) (key m : List Byte) : List Byte := shake256 (beBytes 32 fn ++ key ++ m) 32

/-- The pseudorandom function of a public seed at an address. -/
def xmssPrf (seed adrs : List Byte) : List Byte := xmssHash 3 seed adrs

/-- Where in the hypertree a hash is made: the layer and the tree. -/
structure TreeAt where
  seed : List Byte
  layer : Nat
  tree : Nat
deriving DecidableEq, Repr

/-- An address of 32 bytes: type (0 one-time, 1 L-tree, 2 hash tree) and its four words. -/
def TreeAt.adrs (t : TreeAt) (type a b c d : Nat) : List Byte :=
  beBytes 4 t.layer ++ beBytes 8 t.tree ++ beBytes 4 type ++ beBytes 4 a ++ beBytes 4 b ++ beBytes 4 c ++ beBytes 4 d

/-- Chain number i of leaf `leaf`: n steps from step j on. -/
def TreeAt.chain (t : TreeAt) (leaf i j : Nat) (x : List Byte) : Nat → List Byte
  | 0 => x
  | n + 1 =>
    TreeAt.chain t leaf i (j + 1)
      (xmssHash 0 (xmssPrf t.seed (t.adrs 0 leaf i j 0)) (xorBytes x (xmssPrf t.seed (t.adrs 0 leaf i j 1)))) n

/-- Two nodes hashed into one, at the address of the three masks. -/
def TreeAt.join (t : TreeAt) (adrs : Nat → List Byte) (l r : List Byte) : List Byte :=
  xmssHash 1 (xmssPrf t.seed (adrs 0)) (xorBytes l (xmssPrf t.seed (adrs 1)) ++ xorBytes r (xmssPrf t.seed (adrs 2)))

/-- Neighbours joined two by two, a last odd one kept. -/
def joinPairs (f : Nat → List Byte → List Byte → List Byte) (i : Nat) : List (List Byte) → List (List Byte)
  | a :: b :: r => f i a b :: joinPairs f (i + 1) r
  | l => l

/-- The L-tree of a one-time public key, n levels from height h on: 67 values need seven. -/
def TreeAt.ltree (t : TreeAt) (leaf h : Nat) (l : List (List Byte)) : Nat → List Byte
  | 0 => l.headD []
  | n + 1 => TreeAt.ltree t leaf (h + 1) (joinPairs (fun i a b => t.join (fun k => t.adrs 1 leaf h i k) a b) 0 l) n

/-- Digits of base 16 of bytes. -/
def hexDigits (bs : List Byte) : List Nat := bs.flatMap (fun b => [b.toNat / 16, b.toNat % 16])

/-- The 67 digits that a one-time key signs: 64 of the message and 3 of the checksum. -/
def oneTimeDigits (m : List Byte) : List Nat :=
  let d := hexDigits m
  d ++ (hexDigits (beBytes 2 (16 * (d.map (fun x => 15 - x)).sum))).take 3

/-- The leaf that a one-time signature of a message leads to. -/
def TreeAt.leafOfSignature (t : TreeAt) (leaf : Nat) (m : List Byte) (signature : List (List Byte)) : List Byte :=
  t.ltree leaf 0 (((oneTimeDigits m).zip signature).mapIdx (fun i x => t.chain leaf i x.1 x.2 (15 - x.1))) 7

/-- From a leaf to the root along an authentication path, from height h on. -/
def TreeAt.climb (t : TreeAt) (h i : Nat) (node : List Byte) : List (List Byte) → List Byte
  | [] => node
  | a :: r =>
    let adrs (k : Nat) : List Byte := t.adrs 2 0 h (i / 2) k
    TreeAt.climb t (h + 1) (i / 2) (if i % 2 = 0 then t.join adrs node a else t.join adrs a node) r

/-- Chunks of 32 bytes. -/
def chunks32 (bs : List Byte) : List (List Byte) := (List.range (bs.length / 32)).map (fun i => (bs.drop (32 * i)).take 32)

/-! ### Verification: XMSS-SHAKE256_20_256 (R380, R383, R384) -/

/-- A signature of 2,820 bytes verifies under a public key: its algorithm number, the root and the public seed. (PRESUMED, log 5) -/
def xmssVerify (key m signature : List Byte) : Bool :=
  let root := (key.drop 4).take 32
  let t : TreeAt := ⟨(key.drop 36).take 32, 0, 0⟩
  let i := beNat (signature.take 4)
  let parts := chunks32 (signature.drop 36)
  let digest := xmssHash 2 ((signature.drop 4).take 32 ++ root ++ beBytes 32 i) m
  key.length == 68 && signature.length == 2820 && decide (i < 2 ^ 20) &&
  t.climb 0 i (t.leafOfSignature i digest (parts.take 67)) (parts.drop 67) == root

/-! ### Signing: XMSSMT-SHAKE256_40/4_256 (R380, R387) -/

/-- A one-time secret value of a leaf. -/
def TreeAt.secret (t : TreeAt) (secret : List Byte) (leaf i : Nat) : List Byte := xmssHash 4 secret (t.seed ++ t.adrs 0 leaf i 0 0)

/-- A node of a tree by its height and place: a leaf is made of its 67 chains. -/
def TreeAt.node (t : TreeAt) (secret : List Byte) : Nat → Nat → List Byte
  | 0, i => t.ltree i 0 ((List.range 67).map (fun c => t.chain i c 0 (t.secret secret i c) 15)) 7
  | h + 1, i => t.join (fun k => t.adrs 2 0 h i k) (TreeAt.node t secret h (2 * i)) (TreeAt.node t secret h (2 * i + 1))

/-- A message signed in a tree of height 10: 67 chain values and 10 nodes. -/
def TreeAt.sign (t : TreeAt) (secret : List Byte) (leaf : Nat) (m : List Byte) : List Byte :=
  ((oneTimeDigits m).mapIdx (fun i d => t.chain leaf i 0 (t.secret secret leaf i) d)).flatten ++
  ((List.range 10).map (fun h => t.node secret h (leaf / 2 ^ h ^^^ 1))).flatten

/-- The layers of a signature from layer j on: each signs the root of the tree below it. -/
def signLayers (secret seed : List Byte) (index j : Nat) (m : List Byte) : Nat → List Byte
  | 0 => []
  | n + 1 =>
    let t : TreeAt := ⟨seed, j, index / 2 ^ (10 * (j + 1))⟩
    t.sign secret (index / 2 ^ (10 * j) % 1024) m ++ signLayers secret seed index (j + 1) (t.node secret 10 0) n

/-- The signature of 9,893 bytes under seeds of 96 bytes: of the one-time keys, of the randomness, and the public one. (PRESUMED, log 5) -/
def xmssmtSign (seeds : List Byte) (index : Nat) (m : List Byte) : List Byte :=
  let secret := seeds.take 32
  let seed := (seeds.drop 64).take 32
  let r := xmssHash 3 ((seeds.drop 32).take 32) (beBytes 32 index)
  let root := (TreeAt.mk seed 3 0).node secret 10 0
  beBytes 5 index ++ r ++ signLayers secret seed index 0 (xmssHash 2 (r ++ root ++ beBytes 32 index) m) 4

/-! ### ML-KEM-1024 (R380, R388): polynomials -/

/-- A polynomial of 256 coefficients modulo 3,329. -/
abbrev Poly := List Nat

def kyberQ : Nat := 3329

def Poly.at (f : Poly) (i : Nat) : Nat := f.getD i 0
def polyOf (g : Nat → Nat) : Poly := (List.range 256).map (fun i => g i % kyberQ)
def Poly.add (f g : Poly) : Poly := polyOf (fun i => f.at i + g.at i)
def Poly.sub (f g : Poly) : Poly := polyOf (fun i => f.at i + (kyberQ - g.at i % kyberQ))
def polySum (l : List Poly) : Poly := l.foldl Poly.add (polyOf (fun _ => 0))

/-- Seven bits in reverse order. -/
def bitRev7 (i : Nat) : Nat := ((List.range 7).map (fun b => i / 2 ^ b % 2 * 2 ^ (6 - b))).sum

/-- Powers of the root of unity 17. -/
def zeta (n : Nat) : Nat := 17 ^ n % kyberQ

/-- One level of the transform, with blocks of 2 len coefficients. -/
def nttLevel (f : Poly) (len : Nat) : Poly :=
  let f := f.toArray
  polyOf (fun j =>
    let z := zeta (bitRev7 (128 / len + j / (2 * len)))
    if j % (2 * len) < len then f.getD j 0 + z * f.getD (j + len) 0
    else f.getD (j - len) 0 + (kyberQ - z * f.getD j 0 % kyberQ))

def Poly.ntt (f : Poly) : Poly := [128, 64, 32, 16, 8, 4, 2].foldl nttLevel f

/-- One level of the inverse transform. -/
def inttLevel (f : Poly) (len : Nat) : Poly :=
  let f := f.toArray
  polyOf (fun j =>
    if j % (2 * len) < len then f.getD j 0 + f.getD (j + len) 0
    else zeta (bitRev7 (256 / len - 1 - j / (2 * len))) * (f.getD j 0 + (kyberQ - f.getD (j - len) 0 % kyberQ)))

def Poly.intt (f : Poly) : Poly := ([2, 4, 8, 16, 32, 64, 128].foldl inttLevel f).map (fun x => x * 3303 % kyberQ)

/-- The product of two transforms. -/
def Poly.mulNtt (f g : Poly) : Poly :=
  let f := f.toArray
  let g := g.toArray
  polyOf (fun j =>
    let e := j - j % 2
    if j % 2 = 0 then f.getD e 0 * g.getD e 0 + f.getD (e + 1) 0 * g.getD (e + 1) 0 % kyberQ * zeta (2 * bitRev7 (e / 2) + 1)
    else f.getD e 0 * g.getD (e + 1) 0 + f.getD (e + 1) 0 * g.getD e 0)

/-! ### ML-KEM-1024: sampling and encoding -/

/-- Coefficients below 3,329 among 12-bit values of a byte stream. -/
def rejectBytes : List Byte → List Nat
  | a :: b :: c :: r =>
    let x := a.toNat + 256 * (b.toNat % 16)
    let y := b.toNat / 16 + 16 * c.toNat
    (if x < kyberQ then [x] else []) ++ (if y < kyberQ then [y] else []) ++ rejectBytes r
  | _ => []

/-- A uniform transform of a seed: 24 blocks of the stream are far more than 256 coefficients take. -/
def sampleNtt (seed : List Byte) : Poly := (rejectBytes (shake128 seed (24 * 168))).take 256

/-- Bits of bytes, the least significant first. -/
def bitList (bs : List Byte) : List Nat := bs.flatMap (fun b => (List.range 8).map (fun i => b.toNat / 2 ^ i % 2))
/-- Bytes of bits. -/
def bytesOfBits (bits : List Nat) : List Byte :=
  let a := bits.toArray
  (List.range (bits.length / 8)).map (fun i => BitVec.ofNat 8 ((List.range 8).map (fun b => a.getD (8 * i + b) 0 * 2 ^ b)).sum)

/-- The centred binomial distribution with parameter 2. -/
def sampleCbd (bs : List Byte) : Poly :=
  let b := (bitList bs).toArray
  polyOf (fun i => b.getD (4 * i) 0 + b.getD (4 * i + 1) 0 + 2 * kyberQ - b.getD (4 * i + 2) 0 - b.getD (4 * i + 3) 0)

/-- The n-th small polynomial of a seed. -/
def smallPoly (seed : List Byte) (n : Nat) : Poly := sampleCbd (shake256 (seed ++ natBytes 1 n) 128)

def encodePoly (d : Nat) (f : Poly) : List Byte := bytesOfBits (f.flatMap (fun x => (List.range d).map (fun i => x / 2 ^ i % 2)))
def decodePoly (d : Nat) (bs : List Byte) : Poly :=
  let b := (bitList bs).toArray
  (List.range 256).map (fun i => ((List.range d).map (fun j => b.getD (d * i + j) 0 * 2 ^ j)).sum % (if d = 12 then kyberQ else 2 ^ d))

def compress (d : Nat) (f : Poly) : Poly := f.map (fun x => (2 ^ (d + 1) * x + kyberQ) / (2 * kyberQ) % 2 ^ d)
def decompress (d : Nat) (f : Poly) : Poly := f.map (fun y => (2 * kyberQ * y + 2 ^ d) / 2 ^ (d + 1))

/-- The i-th chunk of n bytes. -/
def chunk (n i : Nat) (bs : List Byte) : List Byte := (bs.drop (n * i)).take n

/-! ### ML-KEM-1024: keys, encryption, decapsulation -/

/-- The matrix entry of a public seed. -/
def kemMatrix (rho : List Byte) (i j : Nat) : Poly := sampleNtt (rho ++ natBytes 1 j ++ natBytes 1 i)

/-- The secret vector's transform and the encapsulation key, of the pair's first seed. -/
def kemPair (d : List Byte) : List Poly × List Byte :=
  let g := sha3x512 (d ++ [4#8])
  let rho := g.take 32
  let sigma := g.drop 32
  let s := (List.range 4).map (fun i => (smallPoly sigma i).ntt)
  let t := (List.range 4).map (fun i =>
    (polySum ((List.range 4).map (fun j => (kemMatrix rho i j).mulNtt (s.getD j [])))).add ((smallPoly sigma (4 + i)).ntt))
  (s, t.flatMap (encodePoly 12) ++ rho)

/-- Encryption of 32 bytes under an encapsulation key with given randomness. -/
def kemEncrypt (ek m r : List Byte) : List Byte :=
  let rho := ek.drop 1536
  let t := (List.range 4).map (fun i => decodePoly 12 (chunk 384 i ek))
  let y := (List.range 4).map (fun i => (smallPoly r i).ntt)
  let u := (List.range 4).map (fun i =>
    ((polySum ((List.range 4).map (fun j => (kemMatrix rho j i).mulNtt (y.getD j [])))).intt).add (smallPoly r (4 + i)))
  let v := (((polySum ((List.range 4).map (fun j => (t.getD j []).mulNtt (y.getD j [])))).intt).add (smallPoly r 8)).add
    (decompress 1 (decodePoly 1 m))
  u.flatMap (fun f => encodePoly 11 (compress 11 f)) ++ encodePoly 5 (compress 5 v)

/-- Decryption under the secret vector's transform. -/
def kemDecrypt (s : List Poly) (c : List Byte) : List Byte :=
  let u := (List.range 4).map (fun i => (decompress 11 (decodePoly 11 (chunk 352 i c))).ntt)
  let v := decompress 5 (decodePoly 5 (c.drop 1408))
  encodePoly 1 (compress 1 (v.sub (polySum ((List.range 4).map (fun j => (s.getD j []).mulNtt (u.getD j [])))).intt))

/-- The encapsulation key of a pair of 64 bytes of seeds. (PRESUMED, log 5) -/
def kemPublic (pair : List Byte) : List Byte := (kemPair (pair.take 32)).2

/-- The shared secret of a ciphertext under a pair; a ciphertext that is not the encryption of what it decrypts to is rejected implicitly.
(PRESUMED, log 5) -/
def kemShared (pair c : List Byte) : List Byte :=
  let (s, ek) := kemPair (pair.take 32)
  let m := kemDecrypt s c
  let g := sha3x512 (m ++ sha3x256 ek)
  if kemEncrypt ek m (g.drop 32) = c then g.take 32 else shake256 (pair.drop 32 ++ c) 32

end Sys2Proof.Machine
end

