-- ==== Sys2Proof/Machine/Shards.lean ====
section
/-! DEFINITION. Weight shards: the shard table's entries (R336, R337), loading (R338), local checks (R339), the patrol (R341),
quarantine (R342) and release (R343). Their accesses are checked in Ops (R340). -/

namespace Sys2Proof.Machine
open Sys2Proof

/-! ### Entries (R337) -/

/-- Number of entries of the table. -/
def State.shardCount (s : State) : Nat := s.shards.wscnt

def State.entryAddress (s : State) (e : Nat) : Nat := s.shards.wsbase.toNat + 128 * e

/-- A field of an entry, as the L2 has it. -/
def State.entryField (s : State) (e lo n : Nat) : Nat := bytesNat (s.physReadBytes false (s.entryAddress e + lo) n)
def State.entryBytes (s : State) (e lo n : Nat) : List Byte := s.physReadBytes false (s.entryAddress e + lo) n

/-- BASE, as a local address (R347). -/
def State.entryBase (s : State) (e : Nat) : Nat := s.homePa (s.entryField e 0 8)
def State.entryLength (s : State) (e : Nat) : Nat := s.entryField e 8 8
def State.entryAsid (s : State) (e : Nat) : Nat := s.entryField e 28 1
def State.entryState (s : State) (e : Nat) : Nat := s.entryField e 29 1

/-- The part writes fields of an entry: past the L2, so that the host and every core read them. -/
def State.writeEntry (s : State) (e lo : Nat) (data : List Byte) : State := s.physWriteBytes true (s.entryAddress e + lo) data

/-- STATE codes. -/
def shardFree : Nat := 0
def shardLoading : Nat := 1
def shardValid : Nat := 2
def shardQuarantined : Nat := 3
def shardChecking : Nat := 4

def State.anyShard (s : State) (p : Nat → Bool) : Bool := (List.range s.shardCount).any p

/-- Non-free entries that name an ASID (R388). -/
def State.asidHasShard (s : State) (asid : Nat) : Bool :=
  s.anyShard (fun e => s.entryState e != shardFree && s.entryAsid e == asid)

/-- Non-free entries with a byte in an interval of local addresses. -/
def State.shardsIn (s : State) (lo len : Nat) : List Nat :=
  (List.range s.shardCount).filter (fun e => s.entryState e != shardFree && overlaps (s.entryBase e) (s.entryLength e) lo len)

/-- WSBASE and WSCNT take no write while an entry is loading or checking (R336). (DEDUCED, log 57) -/
def State.shardsBusy (s : State) : Bool := s.anyShard (fun e => s.entryState e == shardLoading || s.entryState e == shardChecking)

/-! ### Quarantine (R342) -/

/-- The shard faults every access; its ASID is fenced and the ASID's queues are aborted. -/
def State.quarantine (s : State) (e cause : Nat) : State :=
  let asid := s.entryAsid e
  let s := s.writeEntry e 29 [BitVec.ofNat 8 shardQuarantined, BitVec.ofNat 8 cause]
  let s : State := { s with shards := { s.shards with
      wfence := setBit s.shards.wfence asid true, landed := Table.set [] s.shards.landed e [] } }
  let mine := (s.queues.filter (fun x => x.2.asid == asid && (x.2.state == .enabled || x.2.state == .faulted || x.2.state == .draining))).map
    (fun x => x.1)
  mine.foldl (fun (s : State) q => s.abortQueue q) s

/-- WFENCE_CLEAR: writing 1 clears bits of WFENCE(index) (R336). -/
def execWfenceClear (index value : Nat) (s : State) : Result :=
  if 4 ≤ index then .fault .noSuchUnit
  else .next { s with shards := { s.shards with wfence := s.shards.wfence &&& ~~~BitVec.ofNat 256 (value % 2 ^ 64 * 2 ^ (64 * index)) } }

/-! ### WCMD (R336, R337, R339, R343) -/

/-- WCMD's result of the last command, which BUSY no longer names. -/
def State.wcmdResult (s : State) (r : Nat) : State := { s with shards := { s.shards with wcmd := r, busy := none } }

/-- A command of WCMD is carried out: the one that has been written, or with none written one that comes now; another is discarded (R336). -/
def State.wcmdRuns (s : State) (op e : Nat) : Bool :=
  match s.shards.busy with
  | none => true
  | some x => x == (op, e)

/-- What INGRESS and LOCAL check: the result code, 0 for accepted (R337). -/
def State.registerCheck (s : State) (e : Nat) (ingress : Bool) : Nat :=
  let base := s.entryBase e
  let len := s.entryLength e
  if s.shardCount ≤ e ∨ s.entryState e ≠ shardFree ∨ 5 < s.entryField e 30 1 ∨ s.entryField e 31 1 ≠ 0 ∨ s.entryField e 48 16 ≠ 0 ∨
      s.entryField e 104 24 ≠ 0 ∨ base % 65536 ≠ 0 ∨ len % 65536 ≠ 0 ∨ len = 0 ∨ 2 ^ 40 < len ∨ hbmBytes < base + len then 1
  else if !(s.shardsIn base len).isEmpty then 2
  else if ingress ∧ !s.trust.installed.contains (s.entryAsid e) then 3
  else 0

/-- Tag every frame of an entry's range, or clear the tags. -/
def State.tagFrames (s : State) (base len : Nat) (tag : Option Nat) : State :=
  { s with shards := { s.shards with
      tags := (List.range (len / 65536)).foldl (fun t i => Table.set none t (frameOf base + i) tag) s.shards.tags } }

/-- Bytes of an interval of local addresses pass to HBM, out of every first-level cache and the L2. -/
def State.flushRange (s : State) (lo len : Nat) : State :=
  let inside (a : Nat) : Bool := decide (lo ≤ a) && decide (a < lo + len)
  let s := s.cores.foldl (fun (s : State) x =>
    ((x.2.l1.filter (fun l => inside l.base)).foldl (fun (s : State) l => s.writeBack l) s).mapCore x.1 (fun k =>
      { k with l1 := k.l1.map (fun l => if inside l.base then { l with dirty := 0 } else l) })) s
  (s.l2.filter (fun c => inside c.1)).foldl (fun (s : State) c => s.passByte c.1) s

/-- Register an entry in a state: from here on its range is written by R338's decryption alone, so what caches hold of it passes to HBM first
(R339, R340). The host's CAUSE and PASS bytes stand as it wrote them. (DESIGN CHOICE, log 118) -/
def State.registerShard (s : State) (e : Nat) (ingress : Bool) : State :=
  if !s.wcmdRuns (if ingress then 1 else 2) e then s
  else
  let r := s.registerCheck e ingress
  let s := s.wcmdResult r
  if r ≠ 0 then s
  else
    let s := (s.flushRange (s.entryBase e) (s.entryLength e)).tagFrames (s.entryBase e) (s.entryLength e) (some e)
    let s : State := { s with shards := { s.shards with landed := Table.set [] s.shards.landed e [] } }
    s.writeEntry e 29 [BitVec.ofNat 8 (if ingress then shardLoading else shardChecking)]

/-- WCMD_INGRESS. -/
def execWcmdIngress (entry : Nat) (s : State) : Result :=
  if 4096 ≤ entry then .fault .noSuchUnit else .next (s.registerShard entry true)

/-- WCMD_LOCAL. -/
def execWcmdLocal (entry : Nat) (s : State) : Result :=
  if 4096 ≤ entry then .fault .noSuchUnit else .next (s.registerShard entry false)

/-- A context slot of which an interval is zeroed; none where all of it is. -/
def Area.zero (x : Area) (lo len : Nat) : Option Area :=
  if lo ≤ x.base ∧ x.base + 2 ^ 21 ≤ lo + len then none
  else
    let first := max lo x.base
    some { x with bytes := (List.range (min (lo + len) (x.base + 2 ^ 21) - first)).foldl (fun t i => Table.put t (first + i) 0) x.bytes }

/-- Zero an interval of HBM, with what the L2 has of it. -/
def State.zeroHbm (s : State) (lo len : Nat) : State :=
  { s with
    areas := s.areas.filterMap (fun x => x.zero lo len)
    hbm := s.hbm.clear lo len
    l2 := s.l2.filter (fun c => decide (c.1 < lo) || decide (lo + len ≤ c.1)) }

/-- A queue of the ASID is enabled, draining or aborting (R343). -/
def State.asidActive (s : State) (asid : Nat) : Bool :=
  s.queues.any (fun x => x.2.asid == asid && (x.2.state == .enabled || x.2.state == .draining || x.2.state == .aborting))

/-- WCMD_RELEASE: the range is zeroed, its tags cleared and its entry freed; a free entry has nothing to release (R343). (DEDUCED, log 57) -/
def execWcmdRelease (entry : Nat) (s : State) : Result :=
  if 4096 ≤ entry then .fault .noSuchUnit
  else if !s.wcmdRuns 3 entry then .next s
  else if s.shardCount ≤ entry ∨ s.entryState entry = shardFree then .next (s.wcmdResult 1)
  else if s.asidActive (s.entryAsid entry) then .next (s.wcmdResult 4)
  else
    let base := s.entryBase entry
    let len := s.entryLength entry
    let s := ((s.zeroHbm base len).tagFrames base len none).writeEntry entry 0 (List.replicate 128 0)
    .next ({ s with shards := { s.shards with landed := Table.set [] s.shards.landed entry [] } }.wcmdResult 0)

/-! ### Loading and checking (R338, R339) -/

/-- The bytes of a shard, read from HBM. -/
def State.shardText (s : State) (e : Nat) : List Byte := s.physReadBytes true (s.entryBase e) (s.entryLength e)

/-- A shard passes its checks. -/
def State.validate (s : State) (e : Nat) : State :=
  (s.writeEntry e 29 [BitVec.ofNat 8 shardValid]).writeEntry e 96 (natBytes 8 s.tick)

def State.digestOk (s : State) (e : Nat) : Bool := shake256 (s.shardText e) 32 == s.entryBytes e 64 32

/-- Blocks of a shard that a write covers. -/
def State.blocksOf (s : State) (e addr n : Nat) : List Nat := (List.range (n / 16)).map (fun i => (addr - s.entryBase e) / 16 + i)

/-- A write covers whole aligned blocks of a shard, and none that has landed. -/
def State.blocksOk (s : State) (e addr n : Nat) : Bool :=
  decide (s.entryBase e ≤ addr) && (addr - s.entryBase e) % 16 == 0 && n % 16 == 0 && n != 0 &&
  decide (addr + n ≤ s.entryBase e + s.entryLength e) &&
  (s.blocksOf e addr n).all (fun b => !(Table.get [] s.shards.landed e).contains b)

/-- A write into a loading shard: whole aligned blocks, each of them once, are decrypted and land; any other write quarantines it. (DEDUCED, log 57) -/
def State.shardBlocks (s : State) (e addr : Nat) (data : List Byte) : State :=
  if !s.blocksOk e addr data.length then s.quarantine e 4
  else
    let key := Table.get zeroKey s.trust.keys (s.entryAsid e)
    let plain := gcmCrypt key (s.entryBytes e 16 12) ((addr - s.entryBase e) / 16) data
    let t := s.physWriteBytes true addr plain
    { t with shards := { t.shards with
        landed := Table.set [] t.shards.landed e (Table.get [] s.shards.landed e ++ s.blocksOf e addr data.length) } }

/-- The loading shard whose frame holds a local address. -/
def State.loadingAt (s : State) (addr : Nat) : Option Nat :=
  match Table.get none s.shards.tags (frameOf addr) with
  | some e => if s.entryState e = shardLoading then some e else none
  | none => none

/-- SHARD_BLOCK_WRITE: a write that arrives over a port into a loading shard. -/
def execShardBlockWrite (addr : Nat) (data : List Byte) (s : State) : Result :=
  match s.loadingAt addr with
  | some e => .next (s.shardBlocks e addr data)
  | none => .next s

/-- SHARD_INGRESS_CHECK_DONE: once every block has landed, the tag of the ciphertext and then the digest are checked. -/
def execShardIngressCheckDone (entry : Nat) (s : State) : Result :=
  if 4096 ≤ entry then .fault .noSuchUnit
  else if s.shardCount ≤ entry ∨ s.entryState entry ≠ shardLoading ∨
      (Table.get [] s.shards.landed entry).length ≠ s.entryLength entry / 16 then .next s
  else
    let key := Table.get zeroKey s.trust.keys (s.entryAsid entry)
    let iv := s.entryBytes entry 16 12
    let cipher := gcmCrypt key iv 0 (s.shardText entry)
    if gcmTag key iv cipher ≠ s.entryBytes entry 32 16 then .next (s.quarantine entry 1)
    else if s.digestOk entry then
      .next ({ s with shards := { s.shards with landed := Table.set [] s.shards.landed entry [] } }.validate entry)
    else .next (s.quarantine entry 2)

/-- A frame of a range that HBM cannot give; what the L2 holds is not asked (R341). -/
def State.badFrame (s : State) (base len : Nat) : Bool :=
  (List.range (len / 65536)).any (fun i => (s.dataFault false (base + 65536 * i)).isSome)

/-- SHARD_LOCAL_CHECK_DONE: a range that cannot be read is no match for the digest. (DEDUCED, log 57) -/
def execShardLocalCheckDone (entry : Nat) (s : State) : Result :=
  if 4096 ≤ entry then .fault .noSuchUnit
  else if s.shardCount ≤ entry ∨ s.entryState entry ≠ shardChecking then .next s
  else .next (if s.badFrame (s.entryBase entry) (s.entryLength entry) then s.quarantine entry 5
    else if s.digestOk entry then s.validate entry else s.quarantine entry 2)

/-! ### The patrol (R341) -/

/-- Chronometer ticks of a second. -/
def ticksPerSecond : Nat := 1300000000

/-- SHARD_PATROL_PASS: every WPATROL seconds each valid entry, in ascending order, is digested again. (DEDUCED, log 57) -/
def execShardPatrolPass (s : State) : Result :=
  if s.shards.wpatrol = 0 ∨ s.tick < s.shards.patrolAt + s.shards.wpatrol * ticksPerSecond then .next s
  else
    let s : State := { s with shards := { s.shards with patrolAt := s.tick } }
    .next ((List.range s.shardCount).foldl (fun (s : State) e =>
      if s.entryState e ≠ shardValid then s
      else if s.badFrame (s.entryBase e) (s.entryLength e) then s.quarantine e 5
      else if s.digestOk e then s.writeEntry e 96 (natBytes 8 s.tick)
      else s.quarantine e 3) s)

end Sys2Proof.Machine
end

