-- ==== Sys2Proof/Machine/Links.lean ====
section
/-! DEFINITION. Links: classes, flits and ways of messages (R291, R355 to R357, R360), write offers and their pulls (R350, R351),
acknowledgements (R350, R352), what serves other devices (R348, R354), undeliverable messages (R357), and the fencing of a port (R374, R375). -/

namespace Sys2Proof.Machine
open Sys2Proof

def onNumberedPort (port : Nat) (f : Unit → State) : Result := if 24 ≤ port then .fault .noSuchUnit else .next (f ())

/-- A credit of the peer arrives with whatever it sends. -/
def State.credited (s : State) (port : Nat) : State := s.mapPort port (fun x => { x with credit := s.tick })

/-! ### Messages (R291, R355 to R357, R360) -/

def Class.num : Class → Nat
  | .notices => 0
  | .requests => 1
  | .responses => 2
  | .control => 3

/-- The class of a message (R291, R350). -/
def Message.cls : Message → Class
  | .notice _ _ _ _ _ _ | .offer _ _ _ _ => .notices
  | .request _ _ _ _ _ | .pull _ _ _ _ _ => .requests
  | .response _ _ _ _ _ _ _ | .bytes _ _ _ _ _ => .responses
  | .transit _ _ c _ => c
  | _ => .control

/-- Flits of 256 bytes (R356). -/
def Message.flits : Message → Nat
  | .response _ _ _ _ _ data withdrawn => if withdrawn then 1 else max 1 ((data.length + 255) / 256)
  | .bytes _ _ _ _ n => max 1 ((n + 255) / 256)
  | .transit _ _ _ n => n
  | .undelivered m _ => Message.flits m
  | _ => 1

/-- The device from which a message comes. -/
def Message.origin : Message → Nat
  | .notice _ _ dev _ _ _ | .response _ dev _ _ _ _ _ | .withdrawal _ dev _ _ | .offer _ dev _ _ | .bytes _ dev _ _ _ => dev
  | .entered _ _ con | .request _ _ con _ _ | .completion _ _ con | .decline _ _ con => con / 512
  | .pull home _ _ _ _ | .ack home _ _ _ _ => home
  | .transit _ origin _ _ => origin
  | .undelivered m _ => Message.origin m

/-- The lowest-numbered up host-mode port (R360). -/
def State.hostPorts (s : State) : List Nat :=
  ((List.range 24).filter (fun p => (s.port p).state == .up && (s.port p).mode == 2)).take 1

/-- The candidate ports to a device; none where it is this one. -/
def State.toDevice (s : State) (dev : Nat) : Option (List Nat) := if dev = s.devnum then none else some (s.candidates dev)

/-- The candidate ports to the home of an address (R357, R360). -/
def State.toHome (s : State) (addr : Nat) : Option (List Nat) :=
  match s.place addr with
  | .remote dev => some (s.candidates dev)
  | .host => some (if s.hostdev % 1024 = s.devnum then s.hostPorts else s.candidates (s.hostdev % 1024))
  | _ => none

/-- The candidate ports to the writer of a posted write: a host's, under core number 512 + port, is reached by its port. -/
def State.toWriter (s : State) (dev core : Nat) : Option (List Nat) :=
  if dev ≠ s.devnum then some (s.candidates dev)
  else if 512 ≤ core ∧ core < 536 then some (if (s.port (core - 512)).state = .up then [core - 512] else [])
  else none

/-- The candidate ports of a message; none for one that this device takes or holds. -/
def State.way (s : State) : Message → Option (List Nat)
  | .notice _ con _ _ held _ => if held.isSome then none else s.toDevice (con / 512)
  | .response _ _ con _ _ _ _ => s.toDevice (con / 512)
  | .withdrawal _ _ con early => if early then none else s.toDevice (con / 512)
  | .entered _ dev _ | .request _ dev _ _ _ | .completion _ dev _ | .decline _ dev _ => s.toDevice dev
  | .offer addr _ _ _ | .bytes addr _ _ _ _ => s.toHome addr
  | .pull _ dev core _ _ | .ack _ dev core _ _ => s.toWriter dev core
  | .transit dest _ _ _ => s.toDevice dest
  | .undelivered m _ => s.toDevice m.origin

/-- Hop lane and class of a message's next link: the link after k others is crossed in lane k (R356). -/
def Post.lane (p : Post) : Nat := 8 * p.msg.cls.num + p.hops

/-- Free credits of a port for a lane of four flits. -/
def Port.credits (x : Port) (lane : Nat) : Nat := 4 - Table.get 0 x.used lane

/-- The candidate with the most free credits, the lowest-numbered of several (R357). -/
def State.bestPort (s : State) (lane : Nat) (ports : List Nat) : Option Nat :=
  ports.foldl (fun (b : Option Nat) p => match b with
    | none => some p
    | some q => if (s.port q).credits lane < (s.port p).credits lane then some p else some q) none

/-- FLIT_FORWARD: a message leaves by the chosen port once the next device has room for its flits (R356, R357); which of several messages goes first is left open.
(DESIGN CHOICE, log 104) -/
def execFlitForward (msg : Nat) (s : State) : Result :=
  match s.posts.find? (fun p => p.id == msg) with
  | none => .next s
  | some p =>
    match (s.way p.msg).bind (fun ports => s.bestPort p.lane ports) with
    | none => .next s
    | some port =>
      if 8 ≤ p.hops ∨ (s.port port).credits p.lane < p.msg.flits then .next s
      else .next ((s.unpost msg).mapPort port (fun x => { x with
        sending := x.sending ++ [⟨p.msg, p.lane, p.msg.flits, 0⟩]
        used := Table.set 0 x.used p.lane (Table.get 0 x.used p.lane + p.msg.flits) }))

/-- The peer of a port accepts the next flit. -/
def State.acceptFlit (s : State) (port : Nat) : State :=
  s.mapPort port (fun x =>
    match x.state, x.sending with
    | .up, y :: r => { x with errors := 0, sending := if y.accepted + 1 < y.flits then { y with accepted := y.accepted + 1 } :: r else r }
    | _, _ => x)

/-- The peer gives a credit of a lane back: of a flit that it has accepted. -/
def State.linkCredit (s : State) (port lane : Nat) : State :=
  s.mapPort port (fun x =>
    let owed := ((x.sending.filter (fun y => y.lane == lane)).map (fun y => y.flits - y.accepted)).sum
    if x.state = .up ∧ owed < Table.get 0 x.used lane then { x with used := Table.set 0 x.used lane (Table.get 0 x.used lane - 1), credit := s.tick }
    else x)

/-- FLIT_REPLAY: a damaged flit is sent again. -/
def execFlitReplay (port : Nat) (s : State) : Result :=
  onNumberedPort port (fun _ =>
    if (s.port port).state = .up then s.mapPort port (fun x => { x with replays := (x.replays + 1) % 2 ^ 32, errors := x.errors + 1 }) else s)

/-! ### Write offers (R350, R351, R359) -/

/-- WRITE_OFFER_ARRIVAL: offers are scheduled in the order in which they arrive. -/
def execWriteOfferArrival (port : Nat) (offer : WriteOffer) (s : State) : Result :=
  onNumberedPort port (fun _ =>
    if (s.port port).state = .up then
      let (n, s) := (s.credited port).fresh
      s.mapPort port (fun x => { x with offers := x.offers ++ [⟨offer, n⟩] })
    else s)

/-- Bytes that a port has asked for and that have not come. -/
def Port.outstanding (x : Port) : Nat := (x.pulls.map (fun p => p.2.2.2)).sum

/-- WRITE_OFFER_PULL: the next segment of the first offer, of up to 512 bytes, at most one per WPACE ticks and within WINGR bytes (R351). -/
def execWriteOfferPull (port : Nat) (s : State) : Result :=
  onNumberedPort port (fun _ =>
    let x := s.port port
    match x.offers with
    | [] => s
    | y :: rest =>
      let o := y.offer
      let n := min 512 (o.data.length - x.progress)
      let paced : Bool := match x.lastPull with
        | some t => decide (t + x.wpace ≤ s.tick)
        | none => true
      if !paced || x.state != .up || decide (x.wingr < x.outstanding + n) then s
      else
        let x := { x with lastPull := some s.tick, progress := x.progress + n, pulls := x.pulls ++ [(o.dev, o.core, o.entry, n)] }
        let x := if o.data.length ≤ x.progress then { x with offers := rest, progress := 0, asked := x.asked ++ [y] } else x
        (s.setPort port x).post (.pull s.devnum o.dev o.core o.entry n))

/-- Bytes that a port has asked for come; an offer whose bytes have all come may be performed. -/
def Port.take (x : Port) (dev core entry n : Nat) : Port :=
  let x := { x with pulls := x.pulls.erase (dev, core, entry, n) }
  if x.pulls.any (fun p => p.1 == dev && p.2.1 == core && p.2.2.1 == entry) then x
  else match x.asked.find? (fun y => y.offer.dev == dev && y.offer.core == core && y.offer.entry == entry) with
    | some o => { x with asked := x.asked.erase o, pulled := x.pulled ++ [o] }
    | none => x

/-- The port that has asked for bytes. -/
def State.askedBy (s : State) (dev core entry n : Nat) : Option Nat :=
  (List.range 24).find? (fun p => (s.port p).pulls.contains (dev, core, entry, n))

/-- A writer cannot be asked for its bytes: its offer is dropped. -/
def Port.dropOffer (x : Port) (dev core entry : Nat) : Port :=
  let mine (y : Offered) : Bool := y.offer.dev == dev && y.offer.core == core && y.offer.entry == entry
  { x with
    progress := if x.offers.head?.any mine then 0 else x.progress
    offers := x.offers.filter (fun o => !mine o), asked := x.asked.filter (fun o => !mine o)
    pulls := x.pulls.filter (fun p => !(p.1 == dev && p.2.1 == core && p.2.2.1 == entry)) }

/-- The home of a posted write of this device pulls n bytes of it, and they go to it (R350 steps 2 and 3): the write of a core, of a host through
port core - 512 (R359), or of a queue under core number 536 (R360). -/
def State.give (s : State) (core entry n : Nat) : State :=
  let bytes (s : State) (addr : Nat) : State := s.post (.bytes addr s.devnum core entry n)
  if core < 512 then
    match (s.core core).posted.find? (fun e => e.entry == entry && e.sent && decide (e.given + n ≤ e.data.length)) with
    | some e => bytes (s.mapCore core (fun k => { k with posted := k.posted.replace e { e with given := e.given + n } })) e.addr
    | none => s
  else if core < 536 then
    match (s.port (core - 512)).forwarded.find? (fun o => o.1.entry == entry && decide (o.2 + n ≤ o.1.data.length)) with
    | some o => bytes (s.mapPort (core - 512) (fun x => { x with forwarded := x.forwarded.replace o (o.1, o.2 + n) })) o.1.addr
    | none => s
  else
    match s.records.find? (fun r => r.entry == entry && decide (r.given + n ≤ r.data.length)) with
    | some r => bytes { s with records := s.records.replace r { r with given := r.given + n } } r.addr
    | none => s

/-! ### Acknowledgements (R350 step 5, R352) -/

/-- A write reaches another device or the host: offsets that it does not write are left. -/
def State.writeOutside (s : State) (addr : Nat) (data : List Byte) (holes : List Nat) : State :=
  (data.zipIdx).foldl (fun (s : State) b =>
    if holes.contains b.2 then s
    else match s.place (addr + b.2) with
      | .host | .remote _ => { s with outside := s.outside.write (addr + b.2) b.1 }
      | _ => s) s

/-- The route to a posted write's home stands. -/
def State.routeOpen (s : State) (addr : Nat) : Bool :=
  match s.place addr with
  | .remote dev => s.reachable dev
  | .host => s.hostdev / 2 ^ 15 % 2 == 1 && s.hostReachable
  | _ => true

def answerCause : HomeAnswer → Option Cause
  | .ok => none
  | .unbacked => some .translation
  | .readOnly | .shardFrame | .registers => some .protection
  | .badData => some .dataError
  | .fenced => some .fencedTarget
  | .undeliverable => some .link

/-- The fault of a posted write: of its command while that stands in its FIFO, else of its sequencer (R350, R364, R365); it tells the home
address and the issue or unit that made the write (R368, R376). -/
def State.writeFault (s : State) (core : Nat) (e : RemoteWrite) (c : Cause) (info : Nat) : State :=
  let i : FaultInfo := ⟨c, ⟨3, e.addr, e.iter, 3, e.slot, info⟩⟩
  let standing : Option Command := match e.command with
    | some id => ((s.core core).fifo e.port).find? (fun c => c.id == id)
    | none => none
  match standing with
  | some c => s.faultCommand core e.port c i
  | none => (s.reportTo core e.seq (if e.command.isSome then engineOfPort e.port else 7) e.pc i none).1

/-- The message that a device number and a port stand for in INFO (R368). -/
def State.portInfo (s : State) (port : Nat) : Nat := 6 * 2 ^ 27 + s.devnum * 32 + port

/-- A posted write has its answer: its entry is free, and no home writes where it backs nothing (R350). One whose answer was lost on a link may have landed (R374). (DESIGN CHOICE, log 119) -/
def State.answerWrite (s : State) (core : Nat) (e : RemoteWrite) (answer : HomeAnswer) : State :=
  let t := s.mapCore core (fun k => { k with posted := k.posted.erase e })
  let answer := if answer = .ok ∧ s.unbackedThere e.addr then .unbacked else answer
  match answer, answerCause answer with
  | .undeliverable, _ =>
    let (x, t) := t.free
    (if x % 2 = 1 then t.writeOutside e.addr e.data e.holes else t).writeFault core e .link (6 * 2 ^ 27 + x / 2 % 2 ^ 15)
  | _, none => t.writeOutside e.addr e.data e.holes
  | _, some c => t.writeFault core e c 0

/-- A write of a host that this device has forwarded has its answer, which goes on to the host (R359). -/
def State.answerForwarded (s : State) (port : Nat) (o : WriteOffer × Nat) (answer : HomeAnswer) : State :=
  let t := s.mapPort port (fun x => { x with forwarded := x.forwarded.erase o, acks := x.acks ++ [⟨o.1.dev, o.1.core, o.1.entry, answer⟩] })
  let t := t.post (.ack s.devnum o.1.dev o.1.core o.1.entry answer)
  if answer = .ok then t.writeOutside o.1.addr o.1.data [] else t

/-- A queue's write has its answer: a completion record ends its launch (R360). (DEDUCED, log 52) -/
def State.answerRecord (s : State) (r : RecordWrite) (answer : HomeAnswer) : State :=
  let t : State := { s with records := s.records.erase r }
  let t := if answer = .ok then t.writeOutside r.addr r.data [] else t
  match r.launch with
  | some (q, n) => t.finishLaunch q n
  | none => t

/-- Messages of this device: those that wait, and those that are leaving. -/
def State.messages (s : State) : List Message := s.posts.map (fun p => p.msg) ++ s.ports.flatMap (fun x => x.2.sending.map (fun y => y.msg))

/-- An offer of a write of this device, or bytes of it, have not left yet. -/
def State.underWay (s : State) (core entry : Nat) : Bool :=
  s.messages.any (fun m => match m with
    | .offer _ d c e | .bytes _ d c e _ => d == s.devnum && c == core && e == entry
    | _ => false)

/-- REMOTE_WRITE_ACK: the acknowledgement or the error frees the entry once its bytes have gone to the home; core numbers from 512 on name the
host writes that port core - 512 has forwarded (R359), and 536 the writes of the queues (R360). -/
def execRemoteWriteAck (core entry : Nat) (answer : HomeAnswer) (s : State) : Result :=
  if 537 ≤ core then .fault .noSuchUnit
  else if s.underWay core entry then .next s
  else .next (
    if core < 512 then
      match (s.core core).posted.find? (fun e => e.entry == entry && e.sent && e.given == e.data.length) with
      | some e => s.answerWrite core e answer
      | none => s
    else if core < 536 then
      match (s.port (core - 512)).forwarded.find? (fun o => o.1.entry == entry && o.2 == o.1.data.length) with
      | some o => s.answerForwarded (core - 512) o answer
      | none => s
    else
      match s.records.find? (fun r => r.entry == entry && r.given == r.data.length) with
      | some r => s.answerRecord r answer
      | none => s)

/-! ### What serves other devices (R348, R354) -/

/-- What the L2 gives for a read that comes from outside; nothing where the home cannot serve it. (DEDUCED, log 69) -/
def State.servedRead (s : State) (addr bytes : Nat) : Option (List Byte) :=
  let pas := (List.range bytes).map (fun i => addr + i)
  if pas.all (fun pa => match s.place pa with
      | .hbm a => (s.dataFault true pa).isNone && (Table.get none s.shards.tags (frameOf a)).isNone
      | _ => false) then some (pas.map (fun pa => s.physRead false pa))
  else none

def Port.answer (x : Port) (a : Option (List Byte)) : Port := { x with answers := x.answers ++ [a] }

/-- REMOTE_READ_REQUEST: at most 512 bytes, answered from the L2. -/
def execRemoteReadRequest (port addr bytes : Nat) (s : State) : Result :=
  onNumberedPort port (fun _ =>
    if (s.port port).state ≠ .up ∨ 512 < bytes then s
    else (s.credited port).mapPort port (fun x => x.answer (s.servedRead addr bytes)))

/-- Another device's AMO or CAS on this device's memory, read, changed and written at its L2 as one step (R110, R348): operation as in AOP, 9 for
CAS. One that a write could not carry out is not served. -/
def State.remoteAtomic (s : State) (port addr n op b c : Nat) : State :=
  if (s.port port).state ≠ .up ∨ !([1, 2, 4, 8].contains n) ∨ addr % n ≠ 0 ∨ 9 < op then s
  else
    let s := s.credited port
    match s.place addr, s.servedRead addr n with
    | .hbm a, some bytes =>
      if s.rosBit a then s.mapPort port (fun x => x.answer none)
      else
        let old := bytesNat bytes
        let new := if op = 9 then (if old = b % 2 ^ (8 * n) then c % 2 ^ (8 * n) else old) else amoValue op n old (b % 2 ^ (8 * n))
        (if new = old then s else s.physWriteBytes true addr (natBytes n new)).mapPort port (fun x => x.answer (some bytes))
    | _, _ => s.mapPort port (fun x => x.answer none)

/-! ### Messages that cannot be delivered (R357, R365) -/

/-- The link fault of a message, with INFO of the port that returned it. -/
def linkLoss (info : Nat) : FaultInfo := ⟨.link, { FaultAt.none with info := info }⟩

/-- A posted write of this device is lost on its way: its entry is freed (R357). -/
def State.lostWrite (s : State) (core entry addr info : Nat) : State :=
  if core < 512 then
    match (s.core core).posted.find? (fun e => e.entry == entry && e.sent && e.addr == addr) with
    | some e => (s.mapCore core (fun k => { k with posted := k.posted.erase e })).writeFault core e .link info
    | none => s
  else if core < 536 then
    match (s.port (core - 512)).forwarded.find? (fun o => o.1.entry == entry) with
    | some o => s.answerForwarded (core - 512) o .undeliverable
    | none => s
  else
    match s.records.find? (fun r => r.entry == entry) with
    | some r => s.answerRecord r .undeliverable
    | none => s

/-- A message of this device comes back undeliverable, or a notice because its consumer is fenced (R357, R364, R365, R374): what sent it takes the
fault, a notice counts as declined, a pull that cannot be asked for ends withdrawn. (DEDUCED, log 70) -/
def State.returned (s : State) (m : Message) (info : Nat) : State :=
  match m with
  | .notice bits con _ _ _ _ => s.noticeReturned bits con { linkLoss info with cause := if info / 2 ^ 27 = 7 then .fencedTarget else .link }
  | .request bits dev con entry seg =>
    if (s.core (con % 512)).helm.queue.contains (entry, seg) then
      (s.reportTo (con % 512) .c 1 0 (linkLoss info) none).1.post (.response bits dev con entry seg [] true)
    else s
  | .response bits _ _ _ _ _ _ =>
    let has (k : Core) : Bool := (k.named (noticeBid bits)).isSome
    let b := (s.coreWith (noticeProd bits) has).block (noticeBid bits % 64)
    if has (s.coreWith (noticeProd bits) has) then s.reportWith (noticeProd bits) has b.seq 1 b.pc (linkLoss info) else s
  | .completion _ _ con | .decline _ _ con => (s.reportTo (con % 512) .c 1 0 (linkLoss info) none).1
  | .withdrawal bits _ _ _ => (s.reportTo (noticeProd bits) .c 1 0 (linkLoss info) none).1
  | .offer addr _ core entry | .bytes addr _ core entry _ => s.lostWrite core entry addr info
  | .pull _ dev core entry _ => (List.range 24).foldl (fun (s : State) p => s.mapPort p (fun x => x.dropOffer dev core entry)) s
  | .entered _ _ _ | .ack _ _ _ _ _ | .transit _ _ _ _ | .undelivered _ _ => s

/-- A message goes back to its origin. -/
def State.sendBack (s : State) (m : Message) (info : Nat) : State :=
  if m.origin = s.devnum then s.returned m info else s.post (.undelivered m info)

/-- UNDELIVERABLE_RETURN: no candidate, or a ninth link. A message on its way back waits for a route. (DEDUCED, log 62) -/
def execUndeliverableReturn (msg : Nat) (s : State) : Result :=
  match s.posts.find? (fun p => p.id == msg) with
  | none => .next s
  | some p =>
    match s.way p.msg, p.msg with
    | none, _ | some _, .undelivered _ _ => .next s
    | some ports, m => if p.hops < 8 ∧ !ports.isEmpty then .next s else .next ((s.unpost msg).sendBack m 0)

/-! ### Messages that come in (R355 to R357) -/

/-- The buffer of a port for a lane has room for a message that goes on (R356). -/
def State.laneRoom (s : State) (port lane flits : Nat) : Bool :=
  decide (((s.posts.filter (fun p => p.came == some port && p.lane == lane + 1)).map (fun p => p.msg.flits)).sum + flits ≤ 4)

/-- A message that has crossed some links comes in over a port: one for another device goes on in its lane, the others are for this device.
Offers, acknowledgements and reads of other devices come as steps of the table. -/
def State.receive (s : State) (port hops : Nat) (m : Message) : State :=
  let lane := 8 * m.cls.num + (hops - 1)
  if (s.port port).state ≠ .up ∨ hops = 0 ∨ 8 < hops then s
  else
    let s := s.credited port
    let m : Message := match m with
      | .notice b c d a _ w => .notice b c d a none w
      | .withdrawal b d c _ => .withdrawal b d c false
      | _ => m
    let keep (came : Option Nat) : State := { s with posts := s.posts ++ [⟨s.nextId, m, s.tick, hops, came⟩], nextId := s.nextId + 1 }
    match m with
    | .bytes _ dev core entry n =>
      match s.askedBy dev core entry n with
      | some p => s.mapPort p (fun x => x.take dev core entry n)
      | none => if (s.way m).isSome ∧ dev ≠ s.devnum ∧ s.laneRoom port lane m.flits then keep (some port) else s
    | _ =>
      if (s.way m).isSome then (if m.origin ≠ s.devnum ∧ s.laneRoom port lane m.flits then keep (some port) else s)
      else match m with
        | .entered bits _ con => s.told (noticeProd bits) (noticeBid bits) con
        | .pull _ _ core entry n => if n = 0 then s else s.give core entry n
        | .undelivered x info => s.returned x info
        | .offer _ _ _ _ | .ack _ _ _ _ _ | .transit _ _ _ _ => s
        | _ => keep none

/-! ### Fencing a port (R374, R375) -/

/-- Ticks without a credit, and successive replays of a flit, at which a port is fenced. -/
def creditLimit : Nat := 1300000
def replayLimit : Nat := 16

/-- A port is fenced: a message with no flit accepted beyond it is routed again, any other in it goes back, write offers that it has not pulled among
them. -/
def State.fencePort (s : State) (port : Nat) : State :=
  let x := s.port port
  let info := s.portInfo port
  let s := s.mapPort port (fun x => { x with state := .fenced, offers := [], asked := [], progress := 0, pulls := [], sending := [], used := [] })
  let s := x.sending.foldl (fun (s : State) y =>
    if y.accepted = 0 then { s with posts := s.posts ++ [⟨s.nextId, y.msg, s.tick, y.lane % 8, none⟩], nextId := s.nextId + 1 }
    else s.sendBack y.msg info) s
  (x.offers ++ x.asked).foldl (fun (s : State) y =>
    let o := y.offer
    if o.dev = s.devnum then s else s.post (.undelivered (.offer o.addr o.dev o.core o.entry) info)) s

/-- PORT_FENCE. -/
def execPortFence (port : Nat) (s : State) : Result :=
  onNumberedPort port (fun _ =>
    let x := s.port port
    if x.state = .up ∧ (replayLimit ≤ x.errors ∨ x.credit + creditLimit ≤ s.tick) then s.fencePort port else s)

/-- A fenced port is unfenced: it is down, and a write of PCFG trains it (R375, R393). How that is asked for is not said. (DEDUCED, log 62) -/
def State.unfencePort (s : State) (port : Nat) : State :=
  if (s.port port).state = .fenced then s.mapPort port (fun x => { x with state := .down, errors := 0 }) else s

end Sys2Proof.Machine
end

