-- ==== Sys2Proof/Machine/Recovery.lean ====
section
/-! DEFINITION. Faults in storage and recovery: corrected and uncorrectable errors (R371, R372), fences (R373, R374) and their ends
(R375), the error counts (R366), and the memory checkpoint (R377 to R379). -/

namespace Sys2Proof.Machine
open Sys2Proof

/-! ### Counts (R366) -/

/-- Add to the counts of a stack; the retired frames are those that STKLIM bounds (R366, R373). (DEDUCED, log 58) -/
def State.countStack (s : State) (stack corrected uncorrectable retired : Nat) : State :=
  let (c, u, r) := Table.get (0, 0, 0) s.faults.ecnt stack
  let x := (min (2 ^ 32 - 1) (c + corrected), min 65535 (u + uncorrectable), min 65535 (r + retired))
  { s with faults := { s.faults with ecnt := Table.set (0, 0, 0) s.faults.ecnt stack x } }

def State.countCluster (s : State) (cluster corrected uncorrectable : Nat) : State :=
  let (c, u) := Table.get (0, 0) s.faults.eclu cluster
  let x := (min (2 ^ 32 - 1) (c + corrected), min (2 ^ 32 - 1) (u + uncorrectable))
  { s with faults := { s.faults with eclu := Table.set (0, 0) s.faults.eclu cluster x } }

/-- ERROR_COUNT_CLEAR: each field in which the written value has a 1 is cleared whole. (DEDUCED, log 58) -/
def execErrorCountClear (cluster : Bool) (index value : Nat) (s : State) : Result :=
  let hi := value / 2 ^ 32 % 2 ^ 32
  if cluster then
    if 32 ≤ index then .fault .noSuchUnit
    else
      let (c, u) := Table.get (0, 0) s.faults.eclu index
      let x := (if hi = 0 then c else 0, if value % 2 ^ 32 = 0 then u else 0)
      .next { s with faults := { s.faults with eclu := Table.set (0, 0) s.faults.eclu index x } }
  else if 24 ≤ index then .fault .noSuchUnit
  else
    let (c, u, r) := Table.get (0, 0, 0) s.faults.ecnt index
    let x := (if hi = 0 then c else 0, if value / 2 ^ 16 % 2 ^ 16 = 0 then u else 0, if value % 2 ^ 16 = 0 then r else 0)
    .next { s with faults := { s.faults with ecnt := Table.set (0, 0, 0) s.faults.ecnt index x } }

/-- FLLOST_CLEAR (R366). (DEDUCED, log 59) -/
def execFllostClear (value : Nat) (s : State) : Result :=
  .next (if value % 2 ^ 64 = 0 then s else { s with faults := { s.faults with fllost := 0 } })

/-! ### Fences (R372 to R374) -/

/-- The groups of a die complete with their fenced members counted as arrived. -/
def State.settleDie (s : State) (die : Nat) : State :=
  (List.range 32).foldl (fun (s : State) i =>
    let n := 32 * die + i
    s.setGroup n ((s.group n).settle (s.fencedMask die))) s

def State.fenceCore (s : State) (core : Nat) : State :=
  ({ s with faults := { s.faults with fcore := setBit s.faults.fcore core true } }.settleDie (dieOf core)).settleYields

def State.fenceCluster (s : State) (cluster : Nat) : State :=
  ({ s with faults := { s.faults with fclu := setBit s.faults.fclu cluster true } }.settleDie (cluster / 8)).settleYields

/-- Shards with a byte in an interval are quarantined with CAUSE 5. -/
def State.quarantineIn (s : State) (lo len : Nat) : State :=
  ((s.shardsIn lo len).filter (fun e => s.entryState e != shardQuarantined)).foldl (fun (s : State) e => s.quarantine e 5) s

def State.fenceStack (s : State) (stack : Nat) : State :=
  { s with faults := { s.faults with fstack := setBit s.faults.fstack stack true } }.quarantineIn (2 ^ 36 * stack) (2 ^ 36)

/-- A frame is retired; with STKLIM of them its stack is fenced (R372, R373). -/
def State.retireFrame (s : State) (frame : Nat) : State :=
  if s.retiredFrames.contains frame then s
  else
    let stack := frame / 2 ^ 20
    let s := ({ s with retiredFrames := frame :: s.retiredFrames }.countStack stack 0 1 1).quarantineIn (65536 * frame) 65536
    let (_, _, r) := Table.get (0, 0, 0) s.faults.ecnt stack
    if s.faults.stklim.toNat ≤ r ∧ !s.faults.fstack.getLsbD stack then s.fenceStack stack else s

/-- Engine commands of a core that are under way, with their ports. -/
def Core.underWay (k : Core) : List (Nat × Command) :=
  (List.range 7).filterMap (fun p => match Table.get none k.stopped p, (k.fifo p).head? with
    | none, some c => if c.started && c.result.isNone then some (p, c) else none
    | _, _ => none)

/-- The access or command that met an error in a core or a cluster takes a data-error fault: precise for one of its core's sequencers, reported
for one of the commands under way (R372). Which party it is, is not known. (DESIGN CHOICE, log 60) -/
def State.dataErrorOn (s : State) (core info : Nat) : State :=
  if (s.core core).tile.isNone then s
  else
    let (x, s) := s.free
    let i : FaultInfo := ⟨.dataError, { FaultAt.none with info := info }⟩
    let q := seqOfNat (x % 4)
    match ((s.core core).underWay)[x / 4 % ((s.core core).underWay.length + 1)]? with
    | some (p, c) => s.faultCommand core p c i
    | none => (s.raiseCause core q 7 false ((s.core core).seq q).pc i).1

/-- A site names a unit of the part; a slice of 72 MiB has 16,384 sets of 36 lines (R17). (DESIGN CHOICE, log 82) -/
def siteOk : EccSite → Bool
  | .coreArray c => decide (c < 512)
  | .clusterTlb c | .barrierNet c => decide (c < 32)
  | .l2Way sl st w => decide (sl < 4) && decide (st < 16384) && decide (w < 36)
  | .hbmFrame f => decide (f < hbmBytes / 65536)
  | .baseUnit u => decide (u < 240)
  | .port p => decide (p < 24)
  | .bridge d => decide (d < 4)

/-- ECC_CORRECTED: it changes nothing but a count; which cluster's count an L2 error joins is open but for its die (R366, R371). (DESIGN CHOICE, log 60) (DEDUCED, log 61) -/
def execEccCorrected (site : EccSite) (s : State) : Result :=
  if !siteOk site then .fault .noSuchUnit
  else .next (match site with
    | .coreArray c => s.countCluster (clusterOf c) 1 0
    | .clusterTlb c => s.countCluster c 1 0
    | .l2Way sl _ _ => let (x, t) := s.free; t.countCluster (8 * sl + x % 8) 1 0
    | .hbmFrame f => s.countStack (f / 2 ^ 20) 1 0 0
    | .baseUnit u => s.countStack (u / 10) 1 0 0
    | .barrierNet _ | .port _ | .bridge _ => s)

/-- ECC_UNCORRECTABLE: the unit is retired or fenced. The line of an L2 way loses its dirty bytes, and its next reader meets the error;
which line the way held is open, and so is what the traffic of a fenced bridge then does. (DESIGN CHOICE, log 60) -/
def execEccUncorrectable (site : EccSite) (s : State) : Result :=
  if !siteOk site then .fault .noSuchUnit
  else .next (match site with
    | .coreArray c => ((s.countCluster (clusterOf c) 0 1).dataErrorOn c (2 ^ 27 + c)).fenceCore c
    | .clusterTlb c =>
      let (x, t) := s.free
      ((t.countCluster c 0 1).dataErrorOn (16 * c + x % 16) (3 * 2 ^ 27 + c)).fenceCluster c
    | .barrierNet c => s.fenceCluster c
    | .l2Way sl st w =>
      let way := sl * 2 ^ 20 + st * 2 ^ 6 + w
      if s.retiredWays.contains way then s
      else
        let (x, t) := s.free
        let page := x % (hbmBytes / 16384)
        let line := 16384 * page + 4096 * sl + 128 * (x / (hbmBytes / 16384) % 32)
        { t with
          retiredWays := way :: t.retiredWays
          poisoned := (line, way) :: t.poisoned
          l2 := t.l2.filter (fun c => c.1 / 128 * 128 != line) }.countCluster (8 * sl + x % 8) 0 1
    | .hbmFrame f => s.retireFrame f
    | .baseUnit u =>
      -- the next command that the unit would serve takes the data-error fault (R204)
      { s with
        unitErrors := if s.faults.funit.getLsbD u || s.unitErrors.contains u then s.unitErrors else s.unitErrors ++ [u]
        faults := { s.faults with funit := setBit s.faults.funit u true } }.countStack (u / 10) 0 1 0
    | .port p => s.fencePort p
    | .bridge d => { s with faults := { s.faults with bridges := setBit s.faults.bridges d true } })

/-- PATROL_SCRUB: corrected words are written back, which no program sees (R371). (DEDUCED, log 61) -/
def execPatrolScrub (s : State) : Result := .next s

/-- STACK_LOSES_TRAINING (R373). -/
def execStackLosesTraining (stack : Nat) (s : State) : Result :=
  if 24 ≤ stack then .fault .noSuchUnit else .next (s.fenceStack stack)

/-- BASE_DIE_ERROR (R373). -/
def execBaseDieError (stack : Nat) (s : State) : Result :=
  if 24 ≤ stack then .fault .noSuchUnit else .next (s.fenceStack stack)

/-! ### Ends of fences (R375) -/

/-- Wipe a core: a tile that still stands there has ended by fault. -/
def State.wipeCore (s : State) (core : Nat) : State :=
  let s := match (s.core core).tile with
    | none => s
    | some t => ((s.dropTile core).leaveTile core).mapLaunch t.queue t.lseq (fun l => { l with faulted := true, running := l.running - 1 })
  (s.setCore core .reset).settleYields

/-- Numbers of the bits that a value sets, and that are set in a register. -/
def clearedBits {n : Nat} (reg : BitVec n) (mask : Nat) : List Nat :=
  (List.range n).filter (fun i => reg.getLsbD i && mask.testBit i)

/-- UNFENCE_CORE: FCORE(index). -/
def execUnfenceCore (index value : Nat) (s : State) : Result :=
  if 8 ≤ index then .fault .noSuchUnit
  else
    let gone := clearedBits s.faults.fcore (value % 2 ^ 64 * 2 ^ (64 * index))
    .next (gone.foldl (fun (s : State) c =>
      { s with faults := { s.faults with fcore := setBit s.faults.fcore c false } }.wipeCore c) s)

/-- UNFENCE_CLUSTER: the cluster's cores are wiped, and its TLB. -/
def execUnfenceCluster (value : Nat) (s : State) : Result :=
  .next ((clearedBits s.faults.fclu value).foldl (fun (s : State) cl =>
    let s : State := { s with
      faults := { s.faults with fclu := setBit s.faults.fclu cl false }, clusterTlb := Table.set [] s.clusterTlb cl [] }
    (List.range 16).foldl (fun (s : State) i => s.wipeCore (16 * cl + i)) s) s)

/-- UNFENCE_STACK: refused while a shard lies in the stack, else every frame is zeroed. -/
def execUnfenceStack (value : Nat) (s : State) : Result :=
  .next ((clearedBits s.faults.fstack value).foldl (fun (s : State) st =>
    if !(s.shardsIn (2 ^ 36 * st) (2 ^ 36)).isEmpty then s
    else { s with faults := { s.faults with fstack := setBit s.faults.fstack st false } }.zeroHbm (2 ^ 36 * st) (2 ^ 36)) s)

/-- UNFENCE_UNIT: the unit serves again. -/
def execUnfenceUnit (index value : Nat) (s : State) : Result :=
  if 4 ≤ index then .fault .noSuchUnit
  else
    let gone := BitVec.ofNat 256 (value % 2 ^ 64 * 2 ^ (64 * index))
    .next { s with
      unitErrors := s.unitErrors.filter (fun u => !gone.getLsbD u)
      faults := { s.faults with funit := s.faults.funit &&& ~~~gone } }

/-! ### The memory checkpoint (R377 to R379) -/

def State.withCheckpoint (s : State) (c : Checkpoint) : State := { s with checkpoint := c }

/-- Frames of HBM. -/
def frameCount : Nat := hbmBytes / 65536

def Checkpoint.running (c : Checkpoint) : Bool := c.state == .quiescing || c.state == .copying

/-- Every resident tile whose queue has a free slot is pre-empted. -/
def State.stopAll (s : State) : State :=
  (s.cores.map (fun x => x.1)).foldl (fun (s : State) c =>
    match (s.core c).tile with
    | none => s
    | some t =>
      if t.stopping || t.dead || t.killed || !s.slotFree t.queue then s
      else (s.retractCount c).mapCore c (fun k => { k.abandonAll with tile := k.tile.map (fun t => { t with stopping := true }) })) s

/-- CKCTL_SAVE (R377, R378). -/
def execCkctlSave (s : State) : Result :=
  let c := s.checkpoint
  let away : Bool := match s.place c.dst.toNat with
    | .host | .remote _ => true
    | _ => false
  if !away || c.running || c.restoring then .next s
  else .next ((s.withCheckpoint { c with state := .quiescing, frames := 0, bad := 0 }).stopAll)

/-- CHECKPOINT_QUIESCED: no tile is resident and every remote write is acknowledged. -/
def execCheckpointQuiesced (s : State) : Result :=
  let c := s.checkpoint
  if c.state ≠ .quiescing ∨ !s.records.isEmpty ∨ s.cores.any (fun x => x.2.tile.isSome || !x.2.posted.isEmpty) then .next s
  else .next (s.withCheckpoint { c with
    state := .copying, seqno := c.seqno + 1, start := s.tick, image := s.l2Flush.hbm, areas := s.l2Flush.areas })

/-- IV of a frame: the save count and the frame's number. (DEDUCED, log 63) -/
def frameIv (seqno frame : Nat) : List Byte := beBytes 4 seqno ++ beBytes 8 frame

/-- A frame that is copied as zero. (DEDUCED, log 63) -/
def State.frameLost (s : State) (f : Nat) : Bool := s.retiredFrames.contains f || s.faults.fstack.getLsbD (f / 2 ^ 20)

/-- A byte of HBM as it stood when quiescing ended. -/
def Checkpoint.byte (c : Checkpoint) (a : Nat) : Byte :=
  match c.areas.find? (fun x => x.holds a) with
  | some x => x.read a
  | none => c.image.read a

/-- Copy one frame and its tag to the safe tier. -/
def State.copyFrame (s : State) (f : Nat) : State :=
  let c := s.checkpoint
  let lost := s.frameLost f
  let plain := if lost then List.replicate 65536 0 else (List.range 65536).map (fun i => c.byte (65536 * f + i))
  let iv := frameIv c.seqno.toNat f
  let cipher := gcmCrypt s.trust.checkpointKey iv 0 plain
  let s := (s.writeOutside (c.dst.toNat + 65536 * f) cipher []).writeOutside (c.dst.toNat + hbmBytes + 16 * f)
    (gcmTag s.trust.checkpointKey iv cipher) []
  let s := if lost then s.retireFrame f else s
  s.withCheckpoint { c with frames := c.frames + 1, bad := c.bad + (if lost then 1 else 0) }

/-- Copy the first n frames of HBM to the checkpoint destination (R377). (DEDUCED, log 63) -/
def State.copyFrames (s : State) (n : Nat) : State := (List.range n).foldl (fun (s : State) f => s.copyFrame f) s

/-- CHECKPOINT_COPY_DONE: after the last acknowledgement dispatch resumes. -/
def execCheckpointCopyDone (s : State) : Result :=
  if s.checkpoint.state ≠ .copying ∨ !s.routeOpen s.checkpoint.dst.toNat then .next s
  else
    let t := s.copyFrames frameCount
    .next (t.withCheckpoint { t.checkpoint with
      state := .done, time := BitVec.ofNat 64 (t.tick - t.checkpoint.start), image := [], areas := [] })

/-- CHECKPOINT_ERROR: a link fault or the safe tier's error stops the copy after some frame. -/
def execCheckpointError (s : State) : Result :=
  if s.checkpoint.state ≠ .copying then .next s
  else
    let (x, s) := s.free
    let t := s.copyFrames (x % frameCount)
    .next (t.withCheckpoint { t.checkpoint with state := .error, image := [], areas := [] })

/-- CKCTL_RESTORE: only while every queue is disabled. (DEDUCED, log 63) -/
def execCkctlRestore (s : State) : Result :=
  let c := s.checkpoint
  if c.running || c.restoring || s.queues.any (fun x => x.2.state != .disabled) then .next s
  else .next (s.withCheckpoint { c with restoring := true, frames := 0, bad := 0 })

/-- The text of a frame of the image, if its tag stands under a save count. -/
def State.imageFrame (s : State) (seqno f : Nat) : Option (List Byte) :=
  let at_ := s.checkpoint.dst.toNat
  let cipher := s.physReadBytes true (at_ + 65536 * f) 65536
  let tag := s.physReadBytes true (at_ + hbmBytes + 16 * f) 16
  let iv := frameIv seqno f
  if gcmTag s.trust.checkpointKey iv cipher = tag then some (gcmCrypt s.trust.checkpointKey iv 0 cipher) else none

/-- CHECKPOINT_RESTORE_DONE: every frame is read back, checked under the image's save count and written; one that fails is zero. How the
part learns an image's count, where CKSEQ does not hold it, is open. (DEDUCED, log 63) -/
def execCheckpointRestoreDone (s : State) : Result :=
  if !s.checkpoint.restoring then .next s
  else
    let (x, s) := s.free
    let seqno := if (s.imageFrame s.checkpoint.seqno.toNat 0).isSome then s.checkpoint.seqno.toNat else x % 2 ^ 32
    let s : State := { s with areas := [] }
    let t := (List.range frameCount).foldl (fun (s : State) f =>
      let c := s.checkpoint
      let text := s.imageFrame seqno f
      let s := s.physWriteBytes true (65536 * f) (text.getD (List.replicate 65536 0))
      s.withCheckpoint { c with frames := c.frames + 1, bad := c.bad + (if text.isSome then 0 else 1) }) s
    .next ({ t with contexts := [] }.withCheckpoint { t.checkpoint with state := .done, restoring := false })

end Sys2Proof.Machine
end

