-- ==== Sys2Proof/Machine/Trust.lean ====
section
/-! DEFINITION. Reset, the life cycle and management: the wipe (R386), bring-up (R383, R391), life-cycle tokens (R384, R385), attestation
(R387), per-context keys (R388), the power manager (R394), the thermal stop (R395), power loss (R385) and sensors (R396). -/

namespace Sys2Proof.Machine
open Sys2Proof

/-! ### Reset and bring-up (R383, R386, R391) -/

/-- A QUOTE that is allowed is under way: it has an index (R387). -/
def Trust.quoting (t : Trust) : Bool :=
  (match t.busy with
   | some (op, _) => op == 2
   | none => false) && (t.lcstate == .provisioned || t.lcstate == .deployed) && decide (t.aidx < 2 ^ 40)

/-- What a reset keeps: the fuses and the key store (R381); a QUOTE under way has consumed its index (R387), and a new nonce is drawn. -/
def Trust.kept (t : Trust) : Trust :=
  { Trust.reset with
    lcstate := t.lcstate, svn := t.svn, serial := t.serial, vendorDigest := t.vendorDigest, seeds := t.seeds, mlkem := t.mlkem
    checkpointKey := t.checkpointKey
    aidx := if t.quoting then t.aidx + 1 else t.aidx
    pendingWipe := t.pendingWipe, draws := t.draws + 1, nonce := BitVec.ofNat 64 (Config.entropy t.draws) }

/-- Every array, register and memory of the module at its reset value, but the bytes of retired frames, which a wipe does not write
(R386); the world outside it and the schedule go on. (DEDUCED, log 10) -/
def State.wiped (s : State) : State :=
  { State.reset with
    hbm := s.hbm.filter (fun c => s.retiredFrames.contains (frameOf c.1))
    trust := s.trust.kept, outside := s.outside, agenda := s.agenda, clock := s.clock, freeCtr := s.freeCtr, nextId := s.nextId }

/-- A signature verifies under the vendor's public key, whose digest is the fused one (R383, R384). -/
def Trust.verifies (t : Trust) (m signature : List Byte) : Bool :=
  shake256 Config.vendorKey 32 == t.vendorDigest && xmssVerify Config.vendorKey m signature

/-- The boot ROM accepts the image (R383). (DESIGN CHOICE, log 65) -/
def Trust.accepts (t : Trust) : Bool :=
  t.verifies Config.firmwareImage Config.firmwareSignature && decide (t.svn ≤ Config.firmwareSvn % 64) && t.lcstate != .scrapped

/-- Step 2: the image is checked; bring-up goes no further with one that is refused (R383, R391). (DESIGN CHOICE, log 65) -/
def State.boot (s : State) : State :=
  if s.trust.bootst ≠ 0 then s
  else if !s.trust.accepts then
    let (x, s) := s.free
    { s with trust := { s.trust with bootst := x % 256 * 256 + 2 } }
  else
    let svn := if s.trust.lcstate = .deployed then max s.trust.svn (Config.firmwareSvn % 64) else s.trust.svn
    { s with
      trust := { s.trust with bootst := 1, svn := svn, measurement := shake256 Config.firmwareImage 32 }
      mgmt := { s.mgmt with bringUp := 2 } }

/-- Step 3: the stacks train; which of them fail is open. (DESIGN CHOICE, log 65) -/
def State.trainStacks (s : State) : State :=
  let (x, s) := s.free
  { s with faults := { s.faults with fstack := BitVec.ofNat 24 x }, mgmt := { s.mgmt with bringUp := 3 } }

/-- Step 4: the firmware writes the configuration record into the registers. (DESIGN CHOICE, log 65) -/
def State.configure (s : State) : State :=
  let s : State := { s with
    devnum := Config.bootDevnum % 1024
    mgmt := { s.mgmt with
      rosbase := BitVec.ofNat 64 (Config.bootRosbase % 2 ^ 52 / 65536 * 65536)
      asidbase := BitVec.ofNat 64 (Config.bootAsidbase % 2 ^ 52 / 4096 * 4096), bringUp := 4 } }
  (List.range 24).foldl (fun (s : State) p => s.writePcfg p (BitVec.ofNat 64 (Config.bootPcfg p))) s

/-- The next step of bring-up ends: the wipe, the check of the image, the training of the stacks, the configuration, and the training of the ports
(R386, R391). The sixth is the end of start-up. -/
def State.bringUpStep (s : State) : State :=
  if !s.mgmt.powered || s.mgmt.thermalHold then s
  else match s.mgmt.bringUp with
  | 0 => { s with trust := { s.trust with wiping := false, pendingWipe := false }, mgmt := { s.mgmt with bringUp := 1 } }
  | 1 => s.boot
  | 2 => s.trainStacks
  | 3 => s.configure
  | 4 => if s.anyTraining then s else { s with mgmt := { s.mgmt with bringUp := 5 } }
  | _ => s

/-- A reset sets WIPING and wipes the module; bring-up goes on from there (R386, R391). -/
def State.powerOn (s : State) : State :=
  let s := s.wiped
  { s with trust := { s.trust with wiping := true } }

/-- POWER_ON_RESET; a module that stands in reset for heat stays there (R395). (DEDUCED, log 66) -/
def execPowerOnReset (s : State) : Result := .next (if s.mgmt.thermalHold then s else s.powerOn)

/-- POWER_LOSS: only the fuses and the key store stay (R385). (DEDUCED, log 10) (DEDUCED, log 66) -/
def execPowerLoss (s : State) : Result :=
  let t := s.wiped
  .next { t with hbm := [], mgmt := { t.mgmt with powered := false } }

/-! ### Trust commands (R382, R384 to R388) -/

def LifeCycle.code : LifeCycle → Nat
  | .manufacture => 0
  | .provisioned => 1
  | .deployed => 2
  | .rma => 3
  | .scrapped => 4

/-- A transition of R384's table, by the target's code. -/
def LifeCycle.next (l : LifeCycle) (code : Nat) : Option LifeCycle :=
  match l, code with
  | .manufacture, 1 => some .provisioned
  | .provisioned, 2 => some .deployed
  | .deployed, 3 => some .rma
  | .rma, 1 => some .provisioned
  | .scrapped, _ => none
  | _, 4 => some .scrapped
  | _, _ => none

/-- Result of the last command, which BUSY no longer names. -/
def State.tcmdResult (s : State) (r : Nat) : State := { s with trust := { s.trust with tcmd := r, busy := none } }

/-- A command of TCMD is carried out: the one that has been written, or with none written one that comes now; another is discarded, and so is
any during a wipe (R382). -/
def State.tcmdRuns (s : State) (op asid : Nat) : Bool :=
  match s.trust.busy with
  | none => !s.trust.wiping
  | some x => x.1 == op && (decide (op < 3) || x.2 == asid)

/-- Keys of the new state: seeds from the first provisioning on, ML-KEM pair and checkpoint key anew or destroyed. -/
def Trust.enter (t : Trust) (target : LifeCycle) : Trust :=
  let d := t.draws
  let t := { t with lcstate := target, draws := d + 3 }
  match target with
  | .scrapped => { t with seeds := [], mlkem := [], checkpointKey := [] }
  | .rma | .manufacture => { t with mlkem := [], checkpointKey := [] }
  | .provisioned | .deployed =>
    { t with
      seeds := if t.seeds = [] then natBytes 96 (Config.entropy d) else t.seeds
      mlkem := natBytes 64 (Config.entropy (d + 1)), checkpointKey := natBytes 32 (Config.entropy (d + 2)) }

/-- The token's body is the one that this device asks for (R384). -/
def Trust.bodyOk (t : Trust) (body : List Byte) : Bool :=
  let f (lo n : Nat) : Nat := bytesNat ((body.drop lo).take n)
  f 0 8 == t.nonce.toNat && f 9 7 == 0 && f 16 16 == t.serial.toNat && f 32 32 == 0

/-- TCMD_LCCHANGE: the token is checked, the nonce drawn anew; an accepted one writes the new state and keys and resets (R385). (DEDUCED, log 64) -/
def execTcmdLcchange (s : State) : Result :=
  if !s.tcmdRuns 1 0 then .next s
  else
  let at_ := s.trust.tokaddr.toNat
  let body := s.physReadBytes false at_ 64
  let signature := s.physReadBytes false (at_ + 64) 2820
  let ok := s.trust.bodyOk body && s.trust.verifies body signature
  let t : State := { s with trust := { s.trust with
      nonce := BitVec.ofNat 64 (Config.entropy s.trust.draws), draws := s.trust.draws + 1 } }
  if !ok then .next (t.tcmdResult 1)
  else match t.trust.lcstate.next ((body.getD 8 0).toNat) with
    | none => .next (t.tcmdResult 2)
    | some target =>
      if t.queues.any (fun x => x.2.state != .disabled) then .next (t.tcmdResult 4)
      else .next ({ t with trust := { t.trust.enter target with pendingWipe := true } }.powerOn)

/-- The bytes of a quote that are signed. -/
def State.quoteBody (s : State) : List Byte :=
  let t := s.trust
  s.physReadBytes false t.tokaddr.toNat 32 ++ t.measurement ++ shake256 (kemPublic t.mlkem) 32 ++
  natBytes 1 t.lcstate.code ++ natBytes 1 t.svn ++ natBytes 2 s.devnum ++ natBytes 16 t.serial.toNat ++ List.replicate 12 0 ++
  natBytes 8 t.aidx

/-- TCMD_QUOTE (R387). -/
def execTcmdQuote (s : State) : Result :=
  let t := s.trust
  if !s.tcmdRuns 2 0 then .next s
  else match t.lcstate with
  | .provisioned | .deployed =>
    if 2 ^ 40 ≤ t.aidx then .next (s.tcmdResult 5)
    else
      let body := s.quoteBody
      let quote := body ++ xmssmtSign t.seeds t.aidx body ++ List.replicate 19 0 ++ kemPublic t.mlkem
      .next (({ s with trust := { t with aidx := t.aidx + 1 } }.physWriteBytes true t.tokaddr.toNat quote).tcmdResult 0)
  | _ => .next (s.tcmdResult 3)

/-- Work of an ASID that keeps its key slot as it is: a queue that is not disabled, or a shard (R388). -/
def State.asidWorks (s : State) (asid : Nat) : Bool :=
  s.queues.any (fun x => x.2.asid == asid && x.2.state != .disabled) || s.asidHasShard asid

/-- What KEYINSTALL and KEYCLEAR check first. -/
def State.keyCheck (s : State) (asid : Nat) : Nat :=
  if s.trust.lcstate ≠ .deployed then 3 else if s.asidWorks asid then 4 else 0

/-- TCMD_KEYINSTALL: the key of the slot is the head of SHAKE256 of the shared secret and the ASID. -/
def execTcmdKeyinstall (asid : Nat) (s : State) : Result :=
  if 256 ≤ asid then .fault .noSuchUnit
  else if !s.tcmdRuns 3 asid then .next s
  else if s.keyCheck asid ≠ 0 then .next (s.tcmdResult (s.keyCheck asid))
  else
    let t := s.trust
    let secret := kemShared t.mlkem (s.physReadBytes false t.tokaddr.toNat 1568)
    let key := shake256 (secret ++ natBytes 1 asid) 32
    .next ({ s with trust := { t with
        keys := Table.set zeroKey t.keys asid key, installed := (t.installed.erase asid) ++ [asid] } }.tcmdResult 0)

/-- TCMD_KEYCLEAR: the slot is zeroed. -/
def execTcmdKeyclear (asid : Nat) (s : State) : Result :=
  if 256 ≤ asid then .fault .noSuchUnit
  else if !s.tcmdRuns 4 asid then .next s
  else if s.keyCheck asid ≠ 0 then .next (s.tcmdResult (s.keyCheck asid))
  else .next ({ s with trust := { s.trust with
      keys := Table.set zeroKey s.trust.keys asid zeroKey, installed := s.trust.installed.erase asid } }.tcmdResult 0)

/-! ### Power and heat (R25, R394 to R396) -/

/-- Ticks of a millisecond. -/
def ticksPerMillisecond : Nat := 1300000

/-- The temperatures and the flow at a time: TEMP tells the hottest die. (DESIGN CHOICE, log 67) -/
def Management.readHeat (m : Management) (time : Nat) : Management :=
  let dies := (List.range 4).map (fun i => Config.sensor (3 + i) time % 256)
  { m with
    junctions := dies
    temp := Config.sensor 2 time % 2 ^ 16 * 2 ^ 16 + Config.sensor 1 time % 256 * 2 ^ 8 + dies.foldl max 0 }

/-- POWER_MANAGER_CHECK: the readings are taken and throttling begins or ends; the power's average over ten milliseconds stays within PWRCAP. (DESIGN CHOICE, log 67) -/
def execPowerManagerCheck (s : State) : Result :=
  if s.tick < s.mgmt.checkAt + ticksPerMillisecond then .next s
  else
    let m := s.mgmt.readHeat s.clock
    let power := min (Config.sensor 0 s.clock % 4096) (10 * m.pwrcap - m.powers.sum)
    let junction := m.temp % 256
    let hot := decide (95 ≤ junction)
    let calm := decide (power * 100 ≤ 98 * m.pwrcap) && decide (junction ≤ 92)
    let throttled := decide (m.pwrcap < power) || hot || (m.throttled && !calm)
    .next { s with mgmt := { m with
      pwrnow := power, powers := (power :: m.powers).take 9, throttled := throttled
      thermal := throttled && (hot || (m.thermal && decide (92 < junction)))
      throttledMs := if m.throttled then min (2 ^ 32 - 1) (m.throttledMs + 1) else m.throttledMs, checkAt := s.tick } }

/-- THERMAL_STOP: at a junction temperature of 105 °C the module stops and stands in reset. (DEDUCED, log 66) -/
def execThermalStop (s : State) : Result :=
  if s.mgmt.temp % 256 < 105 ∨ s.mgmt.thermalHold then .next s
  else
    let t := s.wiped
    .next { t with mgmt := { t.mgmt with thermalHold := true, temp := s.mgmt.temp, junctions := s.mgmt.junctions } }

/-- THERMAL_RESTART: once the temperature has fallen to 85 °C the module resets. -/
def execThermalRestart (s : State) : Result :=
  if !s.mgmt.thermalHold then .next s
  else
    let m := s.mgmt.readHeat s.clock
    .next (if 85 < m.temp % 256 then { s with mgmt := m } else s.powerOn)

/-- PLDM_SENSOR_READ: sensor 0 is PWRNOW, 1 to 4 the junction temperatures of the dies, 5 the inlet temperature, 6 the flow. (DESIGN CHOICE, log 67) -/
def execPldmSensorRead (sensor : Nat) (s : State) : Result :=
  if 7 ≤ sensor then .fault .noSuchUnit
  else
    let m := s.mgmt
    let value := match sensor with
      | 0 => m.pwrnow
      | 5 => m.temp / 2 ^ 8 % 256
      | 6 => m.temp / 2 ^ 16
      | n => m.junctions.getD (n - 1) 0
    .next { s with mgmt := { m with sensors := m.sensors ++ [value] } }

end Sys2Proof.Machine
end

