-- ==== Sys2Proof/Machine/HostRegisters.lean ====
section
/-! DEFINITION. The register window as the host reaches it (R304, R305, R325, R336, R347, R358, R366, R382, R389), host accesses (R359),
and the performing of writes that arrive over a port (R338, R350). -/

namespace Sys2Proof.Machine
open Sys2Proof

/-- The state that an answered step leaves. -/
def after (s : State) (r : Result) : State :=
  match r with
  | .next t => t
  | _ => s

/-! ### The queue window (R304, R305) -/

def QueueState.code : QueueState → Nat
  | .disabled => 0
  | .enabled => 1
  | .draining => 2
  | .aborting => 3
  | .faulted => 4

def State.readQueue (s : State) (q r : Nat) : Word :=
  let x := s.queue q
  match r with
  | 0x00 => x.qbase
  | 0x08 => BitVec.ofNat 64 x.qsize.toNat
  | 0x10 => BitVec.ofNat 64 x.qrd.toNat
  | 0x18 => BitVec.ofNat 64 x.qwr.toNat
  | 0x20 => x.cbase
  | 0x28 => BitVec.ofNat 64 x.cent.toNat
  | 0x30 => BitVec.ofNat 64 x.qcfg.toNat
  | 0x38 => BitVec.ofNat 64 x.ctxbase.toNat
  | 0x48 => BitVec.ofNat 64 (x.lseq.toNat * 2 ^ 32 + x.fault * 2 ^ 8 + x.state.code)
  | _ => 0

/-- A write of a queue register (R304). (DEDUCED, log 68) -/
def State.writeQueue (s : State) (q r : Nat) (v : Word) : State :=
  let x := s.queue q
  let idle : Bool := x.state == .disabled
  let ring : BitVec 24 := BitVec.ofNat 24 (fieldOf v 4 20 * 16)
  let put (b : Bool) (f : Queue → Queue) : State := if b then s.mapQueue q f else s
  match r with
  | 0x00 => put idle (fun x => { x with qbase := v &&& ~~~63#64 })
  | 0x08 => put idle (fun x => { x with qsize := ring })
  | 0x10 => put (idle || x.state == .faulted) (fun x => { x with qrd := ring })
  | 0x18 => after s (execQwrDoorbell q v.toNat s)
  | 0x20 => put idle (fun x => { x with cbase := v &&& ~~~63#64 })
  | 0x28 => put idle (fun x => { x with cent := BitVec.ofNat 17 v.toNat })
  | 0x30 => put idle (fun x => { x with qcfg := BitVec.ofNat 40 (fieldOf v 16 24 * 2 ^ 16 + fieldOf v 0 11) })
  | 0x38 => put idle (fun x => { x with ctxbase := BitVec.ofNat 52 (fieldOf v 21 31 * 2 ^ 21) })
  | 0x40 =>
    match fieldOf v 0 2 with
    | 1 => after s (execQctlEnable q s)
    | 2 => after s (execQctlDrain q s)
    | 3 => after s (execQctlAbort q s)
    | _ => s
  | _ => s

/-! ### TLB and shard registers (R325, R336) -/

/-- A read of the invalidation registers (R325). (DESIGN CHOICE, log 20) -/
def State.readTlb (s : State) (r : Nat) : Word :=
  match r with
  | 0x00 => BitVec.ofNat 64 s.tiasid.toNat
  | 0x08 => s.tiva
  | 0x10 => if s.tigo.isSome then 1 else 0
  | _ => 0

/-- A write of the invalidation registers (R325). (DESIGN CHOICE, log 20) -/
def State.writeTlb (s : State) (r : Nat) (v : Word) : State :=
  match r with
  | 0x00 => { s with tiasid := BitVec.ofNat 8 v.toNat }
  | 0x08 => { s with tiva := BitVec.ofNat 64 (v.toNat / 65536 * 65536) }
  | 0x10 => after s (execTigoInvalidate v.toNat s)
  | _ => s

def State.readShard (s : State) (r : Nat) : Word :=
  let x := s.shards
  match r with
  | 0x00 => x.wsbase
  | 0x08 => BitVec.ofNat 64 x.wscnt
  | 0x10 => BitVec.ofNat 64 x.wpatrol
  | 0x18 => BitVec.ofNat 64 ((if x.busy.isSome then 2 ^ 63 else 0) + x.wcmd)
  | 0x20 | 0x28 | 0x30 | 0x38 => (x.wfence >>> (8 * (r - 0x20))).setWidth 64
  | _ => 0

/-- A write of the shard registers (R336): a command is BUSY until it is carried out, and WSCNT takes no number above 4,096. (DESIGN CHOICE, log 117) (DEDUCED, log 68) -/
def State.writeShard (s : State) (r : Nat) (v : Word) : State :=
  let x := s.shards
  match r with
  | 0x00 => if s.shardsBusy then s else { s with shards := { x with wsbase := BitVec.ofNat 64 (fieldOf v 7 45 * 2 ^ 7) } }
  | 0x08 => if s.shardsBusy ∨ 4096 < fieldOf v 0 13 then s else { s with shards := { x with wscnt := fieldOf v 0 13 } }
  | 0x10 => { s with shards := { x with wpatrol := fieldOf v 0 32 } }
  | 0x18 =>
    let op := fieldOf v 12 2
    if x.busy.isSome ∨ op = 0 then s else { s with shards := { x with busy := some (op, fieldOf v 0 12) } }
  | 0x20 | 0x28 | 0x30 | 0x38 => after s (execWfenceClear ((r - 0x20) / 8) v.toNat s)
  | _ => s

/-! ### Fault-and-recovery registers (R366) -/

def CheckpointState.code : CheckpointState → Nat
  | .idle => 0
  | .quiescing => 1
  | .copying => 2
  | .done => 3
  | .error => 4

def State.readFaults (s : State) (r : Nat) : Word :=
  let f := s.faults
  let c := s.checkpoint
  if 0x40 ≤ r ∧ r < 0x80 then (f.fcore >>> (8 * (r - 0x40))).setWidth 64
  else if 0x90 ≤ r ∧ r < 0xB0 then (f.funit >>> (8 * (r - 0x90))).setWidth 64
  else if 0x100 ≤ r ∧ r < 0x1C0 then
    let (c, u, x) := Table.get (0, 0, 0) f.ecnt ((r - 0x100) / 8)
    BitVec.ofNat 64 (c * 2 ^ 32 + u * 2 ^ 16 + x)
  else if 0x200 ≤ r ∧ r < 0x300 then
    let (c, u) := Table.get (0, 0) f.eclu ((r - 0x200) / 8)
    BitVec.ofNat 64 (c * 2 ^ 32 + u)
  else match r with
  | 0x00 => f.flbase
  | 0x08 => BitVec.ofNat 64 f.flsize.toNat
  | 0x10 => BitVec.ofNat 64 f.flwr.toNat
  | 0x18 => BitVec.ofNat 64 f.flrd.toNat
  | 0x20 => f.fllost
  | 0x28 => BitVec.ofNat 64 f.stklim.toNat
  | 0x80 => BitVec.ofNat 64 f.fclu.toNat
  | 0x88 => BitVec.ofNat 64 f.fstack.toNat
  | 0x300 => c.dst
  | 0x310 => BitVec.ofNat 64 (c.frames * 2 ^ 36 + c.bad * 2 ^ 8 + c.state.code)
  | 0x318 => BitVec.ofNat 64 c.seqno.toNat
  | 0x320 => c.time
  | _ => 0

/-- A write of the fault and recovery registers (R366). (DEDUCED, log 68) -/
def State.writeFaults (s : State) (r : Nat) (v : Word) : State :=
  let f := s.faults
  let open_ : Bool := f.flsize == 0 || f.flwr == f.flrd
  if 0x40 ≤ r ∧ r < 0x80 then after s (execUnfenceCore ((r - 0x40) / 8) v.toNat s)
  else if 0x90 ≤ r ∧ r < 0xB0 then after s (execUnfenceUnit ((r - 0x90) / 8) v.toNat s)
  else if 0x100 ≤ r ∧ r < 0x1C0 then after s (execErrorCountClear false ((r - 0x100) / 8) v.toNat s)
  else if 0x200 ≤ r ∧ r < 0x300 then after s (execErrorCountClear true ((r - 0x200) / 8) v.toNat s)
  else match r with
  | 0x00 => if open_ then { s with faults := { f with flbase := BitVec.ofNat 64 (fieldOf v 6 46 * 2 ^ 6) } } else s
  | 0x08 =>
    if open_ ∧ fieldOf v 0 17 ≤ 65536 then { s with faults := { f with flsize := BitVec.ofNat 17 v.toNat } } else s
  | 0x18 => { s with faults := { f with flrd := BitVec.ofNat 32 v.toNat } }
  | 0x20 => after s (execFllostClear v.toNat s)
  | 0x28 => if fieldOf v 0 16 = 0 then s else { s with faults := { f with stklim := BitVec.ofNat 16 v.toNat } }
  | 0x80 => after s (execUnfenceCluster v.toNat s)
  | 0x88 => after s (execUnfenceStack v.toNat s)
  | 0x300 => s.withCheckpoint { s.checkpoint with dst := BitVec.ofNat 64 (fieldOf v 16 36 * 2 ^ 16) }
  | 0x308 =>
    match fieldOf v 0 2 with
    | 1 => after s (execCkctlSave s)
    | 2 => after s (execCkctlRestore s)
    | _ => s
  | _ => s

/-! ### Trust registers (R382) -/

def State.readTrust (s : State) (r : Nat) : Word :=
  let t := s.trust
  match r with
  | 0x00 => BitVec.ofNat 64 ((if t.wiping then 2 ^ 8 else 0) + t.lcstate.code)
  | 0x08 => BitVec.ofNat 64 t.svn
  | 0x10 => BitVec.ofNat 64 t.bootst
  | 0x18 => t.nonce
  | 0x20 => t.tokaddr
  | 0x28 => BitVec.ofNat 64 ((if t.busy.isSome then 2 ^ 63 else 0) + t.tcmd)
  | 0x30 => BitVec.ofNat 64 t.aidx
  | 0x38 => t.serial.setWidth 64
  | 0x40 => (t.serial >>> 64).setWidth 64
  | _ => 0

/-- A write of the trust registers: a command is BUSY until it is carried out. -/
def State.writeTrust (s : State) (r : Nat) (v : Word) : State :=
  match r with
  | 0x20 => { s with trust := { s.trust with tokaddr := BitVec.ofNat 64 (fieldOf v 6 46 * 2 ^ 6) } }
  | 0x28 =>
    let op := fieldOf v 0 4
    if s.trust.wiping ∨ s.trust.busy.isSome ∨ op = 0 ∨ 4 < op then s
    else { s with trust := { s.trust with busy := some (op, fieldOf v 8 8) } }
  | _ => s

/-! ### The window (R347) -/

/-- The management registers are the firmware's until start-up ends (R389); during a wipe only the trust registers can be read (R382). (DEDUCED, log 69) -/
def State.hostReaches (s : State) (off : Nat) (write : Bool) : Bool :=
  !(s.mgmt.sfctl.getLsbD 0 && decide (0x205000 ≤ off) && decide (off < 0x206000)) &&
  (!s.trust.wiping || (!write && off / 4096 == 0x204))

/-- The 8 bytes of a register. -/
def State.hostRead (s : State) (off : Nat) : Word :=
  if !s.hostReaches off false then 0
  else if off < 0x200000 then s.readQueue (off / 128) (off % 128)
  else match off / 4096 with
  | 0x200 => s.readTlb (off % 4096)
  | 0x201 => s.readShard (off % 4096)
  | 0x203 => s.readFaults (off % 4096)
  | 0x204 => s.readTrust (off % 4096)
  | 0x202 | 0x205 | 0x206 => s.readLinkOrManagement off
  | _ => 0

def State.hostWrite (s : State) (off : Nat) (v : Word) : State :=
  if !s.hostReaches off true then s
  else if off < 0x200000 then s.writeQueue (off / 128) (off % 128) v
  else match off / 4096 with
  | 0x200 => s.writeTlb (off % 4096) v
  | 0x201 => s.writeShard (off % 4096) v
  | 0x203 => s.writeFaults (off % 4096) v
  | 0x204 => s.writeTrust (off % 4096) v
  | 0x202 | 0x205 | 0x206 => s.writeLinkOrManagement off v
  | _ => s

/-- Registers whose written ones act: bytes that a narrower write leaves out act as zero. -/
def actsOnOnes (off : Nat) : Bool :=
  (decide (off < 0x200000) && off % 128 == 0x40) || off == 0x200010 || off == 0x201018 ||
  (decide (0x201020 ≤ off) && decide (off < 0x201040)) || off == 0x203020 ||
  (decide (0x203040 ≤ off) && decide (off < 0x203300)) || off == 0x203308 || off == 0x204028

/-- A write of up to 8 bytes within one register; a longer one, or one that crosses registers, is discarded. (DEDUCED, log 68) -/
def State.hostWriteBytes (s : State) (off : Nat) (data : List Byte) : State :=
  let n := data.length
  if 0x206000 ≤ off ∧ off < 0x207000 ∧ n = 4 ∧ off % 4 = 0 then
    (if s.hostReaches off true then s.writeRoute ((off - 0x206000) / 4) (bytesNat data) else s)
  else if n = 0 ∨ 8 < off % 8 + n then s
  else
    let reg := off / 8 * 8
    let old := if actsOnOnes reg then List.replicate 8 0 else natBytes 8 (s.hostRead reg).toNat
    let bytes := old.take (off % 8) ++ data ++ old.drop (off % 8 + n)
    s.hostWrite reg (BitVec.ofNat 64 (bytesNat bytes))

/-- REGISTER_WRITE: 8 bytes at a register's offset. -/
def execRegisterWrite (off value : Nat) (s : State) : Result :=
  if off % 8 ≠ 0 then .next s else .next (s.hostWrite off (BitVec.ofNat 64 value))

/-! ### Writes that arrive over a port (R338, R350, R359) -/

/-- The register is a QWR. -/
def doorbell (off : Nat) : Bool := decide (off < 0x200000) && off % 128 / 8 == 3

/-- The register is a link register. -/
def linkRegister (off : Nat) : Bool := off / 4096 == 0x202 || off / 4096 == 0x206

/-- The checks of a write to this device's memory, and the write at its L2 and through to HBM: what a loading shard takes is decrypted, and
a write of several shards, or partly outside one, breaks the shards' rule (R338, R350, R372, R373). (DEDUCED, log 57) -/
def State.homeWrite (s : State) (addr : Nat) (data : List Byte) : State × HomeAnswer :=
  let locals := (List.range data.length).map (fun i => s.place (addr + i))
  let hbm := locals.filterMap (fun p => match p with
    | .hbm a => some a
    | _ => none)
  if hbm.length < data.length || data.isEmpty then (s, .unbacked)
  else match hbm.findSome? (fun a => s.dataFault false a) with
  | some i => (s, if i.cause = .fencedTarget then .fenced else .badData)
  | none =>
    if hbm.any (fun a => s.rosBit a) then (s, .readOnly)
    else match (hbm.filterMap (fun a => s.loadingAt a)).eraseDups with
    | [e] => (s.shardBlocks e (hbm.headD 0) data, if s.blocksOk e (hbm.headD 0) data.length then .ok else .shardFrame)
    | [] =>
      if hbm.any (fun a => (Table.get none s.shards.tags (frameOf a)).isSome) then (s, .shardFrame)
      else (s.physWriteBytes true addr data, .ok)
    | l => (l.foldl (fun (s : State) e => s.quarantine e 4) s, .shardFrame)

/-- The write offers of a port that came before a place in the order of arrival and have not been performed. -/
def Port.before (x : Port) (order : Nat) : List WriteOffer :=
  ((x.offers ++ x.asked ++ x.pulled).filter (fun y => decide (y.order < order))).map (fun y => y.offer)

/-- Offset of an address in this device's register window; of one in any device's. -/
def State.windowAt (s : State) (addr : Nat) : Option Nat :=
  match s.place addr with
  | .window off => some off
  | _ => none
def anyWindow (addr : Nat) : Option Nat :=
  match localPlace (addr % 2 ^ 41) with
  | .window off => some off
  | _ => none

/-- A host's access to this device's link registers. -/
def State.toLinkRegister (s : State) (o : WriteOffer) : Bool := o.fromHost && (s.windowAt o.addr).any linkRegister

/-- Host accesses to link registers take effect in their order of arrival: one that came earlier, over any port, has not (R358). -/
def State.linkAccessBefore (s : State) (order : Nat) : Bool :=
  s.ports.any (fun x => (x.2.before order).any (fun o => s.toLinkRegister o))

/-- A write of this device's host to a QWR of any device waits until every earlier host write of its port has been acknowledged (R359). -/
def State.doorbellWaits (s : State) (port : Nat) (y : Offered) : Bool :=
  let x := s.port port
  y.offer.fromHost && y.offer.dev == s.devnum && (s.place y.offer.addr != .host) && (anyWindow y.offer.addr).any doorbell &&
  ((x.before y.order).any (fun o => o.fromHost) || x.forwarded.any (fun f => decide (f.1.entry < y.order)))

/-- An offer whose bytes have come may be performed. -/
def State.offerReady (s : State) (port : Nat) (y : Offered) : Bool :=
  !s.doorbellWaits port y && !(s.toLinkRegister y.offer && s.linkAccessBefore y.order)

/-- The home answers a write offer: its writer is sent the answer (R350 step 5). -/
def State.acknowledge (s : State) (port : Nat) (o : WriteOffer) (answer : HomeAnswer) : State :=
  (s.mapPort port (fun x => { x with acks := x.acks ++ [⟨o.dev, o.core, o.entry, answer⟩] })).post
    (.ack s.devnum o.dev o.core o.entry answer)

/-- The first pulled write of a port that may be performed is: a register of this device, another device's address, to which it is offered in
turn (R359), or memory. -/
def State.performOffer (s : State) (port : Nat) (y : Offered) : State :=
  let o := y.offer
  let s := s.mapPort port (fun x => { x with pulled := x.pulled.erase y })
  match s.place o.addr with
  | .window off => if o.fromHost then (s.hostWriteBytes off o.data).acknowledge port o .ok else s.acknowledge port o .registers
  | .remote _ =>
    if !o.fromHost then s.acknowledge port o .undeliverable
    else (s.mapPort port (fun x => { x with forwarded := x.forwarded ++ [(o, 0)] })).post (.offer o.addr s.devnum (512 + port) o.entry)
  | .host => s.acknowledge port o .unbacked
  | _ => let (t, a) := s.homeWrite o.addr o.data; t.acknowledge port o a

/-- REMOTE_WRITE_PERFORM: the first write of a port whose bytes have come and that need not wait. -/
def execRemoteWritePerform (port : Nat) (s : State) : Result :=
  onNumberedPort port (fun _ =>
    match (s.port port).pulled.find? (fun y => s.offerReady port y) with
    | some y => s.performOffer port y
    | none => s)

/-- A host access comes over a port in host mode; a host's read that another device forwards, bridging for this one, over a port in peer
mode (R19, R359). A bridged write comes as an offer (R350). -/
def Port.takesHost (x : Port) (access : HostAccess) : Bool :=
  x.state == .up && (x.mode == 2 || (x.mode == 1 && (match access with
    | .read _ _ => true
    | .write _ _ => false)))

/-- HOST_REGISTER_ACCESS: a read is answered, a write becomes an offer (R359); a read of a link register waits for the host's earlier writes of
them (R358). -/
def execHostRegisterAccess (port : Nat) (access : HostAccess) (s : State) : Result :=
  onNumberedPort port (fun _ =>
    let x := s.port port
    let early : Bool := match access with
      | .read addr _ => (s.windowAt addr).any linkRegister && s.linkAccessBefore s.nextId
      | .write _ _ => false
    if !x.takesHost access || early then s
    else
      let s := s.credited port
      match access with
      | .write addr data =>
        let (n, s) := s.fresh
        s.mapPort port (fun x => { x with offers := x.offers ++ [⟨⟨addr, data, true, s.devnum, 512 + port, n⟩, n⟩] })
      | .read addr bytes =>
        let reply : Option (List Byte) := match s.place addr with
          | .window off =>
            if 8 < off % 8 + bytes then none
            else some (((natBytes 8 (s.hostRead (off / 8 * 8)).toNat).drop (off % 8)).take bytes)
          | .remote _ => if s.routeOpen addr then some (s.physReadBytes true addr bytes) else none
          | .host => none
          | _ => s.servedRead addr bytes
        s.mapPort port (fun x => x.answer reply))

end Sys2Proof.Machine
end

