-- ==== Sys2Proof/Machine/Fetch.lean ====
section
/-! DEFINITION. Fetching the next word or record of a sequencer (R73, R74, R76, R248), decoding's first four rows (R86), and the
bytes that the host's test word takes. -/

namespace Sys2Proof.Machine
open Sys2Proof

/-- What fetching comes to. -/
inductive Fetched where
  /-- the sequencer issues nothing in this turn -/
  | quiet (s : State)
  /-- an instruction to carry out -/
  | word (i : Instr) (s : State)

/-- A sequencer may take up a word: its core holds a tile that is running, it has not halted, and the core is not fenced (R129,
R314, R319, R370, R374). -/
def State.mayIssue (s : State) (core : Nat) (q : SeqId) : Bool :=
  (match (s.core core).tile with
   | some t => !t.dead && !t.stopping && !t.killed
   | none => false) &&
  !((s.core core).seq q).halted && !s.faults.fcore.getLsbD core && !s.faults.fclu.getLsbD (clusterOf core)

/-- The line of an address among the fetch lines. -/
def Sequencer.held (r : Sequencer) (a : Nat) : Option FetchLine := r.lines.find? (fun l => l.addr == a / 128 * 128)

/-- Read the line of an address into the fetch lines (R76, R282): its 128 bytes as L2 has them; or why not. -/
inductive LineRead where
  | line (s : State)
  | walk (va : Nat)
  | fault (i : FaultInfo)

def State.fetchLine (s : State) (core : Nat) (q : SeqId) (a : Nat) : LineRead :=
  let base := a / 128 * 128
  match s.checkVirtual core (s.core core).asid .fetch 3 base 128 with
  | .walk va => .walk va
  | .fault i => .fault { i with loc := { i.loc with addr := a } }
  | .ok pas =>
    match s.checkData (fun _ => false) .fetch base 3 pas with
    | some i => .fault { i with loc := { i.loc with addr := a } }
    | none =>
      let bytes := pas.map (fun pa => s.physRead false pa)
      .line (s.mapCore core (fun k => k.mapSeq q (fun r => { r with lines := r.lines ++ [⟨base, bytes⟩] })))

/-! ### The turns of a cycle (R31, R41, R243) -/

/-- A sequencer has a turn in a cycle. -/
def Sequencer.turn (r : Sequencer) (now : Nat) : Sequencer :=
  { r with turnAt := some now, turns := if r.turnAt = some now then r.turns + 1 else 1 }

/-- Turns that a sequencer has had in the present cycle. -/
def State.turnsOf (s : State) (core : Nat) (q : SeqId) : Nat :=
  let r := (s.core core).seq q
  if r.turnAt = some (s.cycleOf core) then r.turns else 0

/-- Copies of the sequencer's present word for higher slots are still to be carried out (R233). -/
def State.midWord (s : State) (core : Nat) (q : SeqId) : Bool :=
  let rd := (s.core core).round
  rd.st == .running && rd.owner == q && rd.nextSlot != 0

/-- A sequencer has a turn to come in the present cycle: its first, and where that issued nothing, one after the other sequencers', since
a place that one of them frees in the cycle serves it still (R41); a round's word has one for each of its copies, until one waits. -/
def State.turnLeft (s : State) (core : Nat) (q : SeqId) : Bool :=
  s.mayIssue core q && ((s.midWord core q && ((s.core core).seq q).waitSince.isNone) || s.turnsOf core q == 0 ||
    (s.turnsOf core q == 1 && ((s.core core).seq q).lastIssue != some (s.cycleOf core)))

/-- It is a sequencer's turn: in each cycle the sequencers' first turns come in the order C, L, X, S, and then their second ones (R31, R41). -/
def State.hasTurn (s : State) (core : Nat) (q : SeqId) : Bool :=
  s.midWord core q || (s.turnLeft core q && allSeqs.all (fun o =>
    !s.turnLeft core o || (!s.midWord core o && (decide (s.turnsOf core q < s.turnsOf core o) ||
      (s.turnsOf core o == s.turnsOf core q && decide (q.num ≤ o.num))))))

/-- The word or record at the program counter: rows 1 to 4 of R86, in order. A line that had to be fetched serves the sequencer from the
next cycle on (R248). -/
def State.fetchWord (s : State) : Fetched :=
  let r := s.mySeq
  let a := r.pc.toNat
  match r.held a with
  | none =>
    match s.fetchLine s.cur.core s.cur.seq a with
    | .line t => .quiet (t.mapMySeq (fun r => { r with turns := 2 }))
    | .walk va => .quiet (s.startWalk s.cur.core s.me.asid va)
    | .fault i => .quiet (s.takeTrap i)
  | some l =>
    let bs := l.bytes.drop (a % 128)
    if isRecordMaj ((bs.headD 0).toNat) && a % 64 != 0 then .quiet (s.takeTrap (.virt .alignment a 3))
    else match decode bs with
      | .error _ => .quiet (s.takeTrap (.bare .illegal))
      | .ok (i, _) => .word i s

/-- Whether a sequencer has something to take at its word boundary. -/
def Core.hasDue (k : Core) (q : SeqId) : Bool :=
  match k.due q with
  | .nothing => false
  | .fault _ => true
  | .reclaim _ _ => true

/-- The word taken up has raised a precise cause: its handler has been entered, or the tile ends (R363). -/
def State.trapped (t : State) (core : Nat) (q : SeqId) : Bool :=
  ((t.core core).seq q).inHandler || (match (t.core core).tile with
    | some x => x.dead
    | none => false)

/-- What is due at a word boundary is delivered before the word, whose own precise cause goes first; at a copy for a higher slot, where that waits
(R292, R363, R364). `t` is the state that the word leaves. -/
def State.settleDue (s : State) (core : Nat) (q : SeqId) (t : State) : State :=
  if !(s.core core).hasDue q then t
  else if s.cur.slot ≠ 0 then
    (if ((t.core core).seq q).waitSince.isSome && (t.core core).round.nextSlot == s.cur.slot then t.deliver core q else t)
  else if (s.core core).round.closing && (s.core core).round.owner == q then t
  else if t.trapped core q then t else s.deliver core q

/-- A sequencer's turn up to the word it carries out (R364). -/
def State.seqTurn (s : State) (core : Nat) (q : SeqId) : Fetched :=
  let k := s.core core
  let slot := if k.round.st = .running ∧ k.round.owner = q then k.round.nextSlot else 0
  let ready := s.mayIssue core q && s.hasTurn core q
  let s := { s with cur := ⟨core, q, slot⟩ }
  let s := if ready then s.mapMySeq (fun r => r.turn s.cycle) else s
  if !ready then .quiet s
  else match s.fetchWord with
    | .quiet t => .quiet (s.settleDue core q t)
    | .word i t => .word i t

/-- Fetch one line ahead of the program counter, up to two (R248); a line that cannot be read is left for its word. -/
def State.fetchAhead (s : State) (core : Nat) (q : SeqId) : State :=
  if !s.mayIssue core q then s
  else
    let r := (s.core core).seq q
    let a := r.pc.toNat / 128 * 128
    match [a, (a + 128) % 2 ^ 64, (a + 256) % 2 ^ 64].find? (fun x => (r.held x).isNone) with
    | none => s
    | some x =>
      match s.fetchLine core q x with
      | .line t => t
      | .walk va => s.startWalk core (s.core core).asid va
      | .fault _ => s

/-- Bytes of the outside's own memory change, within an aligned 8 of them at once (R263, R347, R348). -/
def State.outsideChange (s : State) (a : Nat) (data : List Byte) : State :=
  if 8 < a % 8 + data.length then s
  else data.zipIdx.foldl (fun (s : State) x =>
    match s.place (a + x.2) with
    | .host | .remote _ => { s with outside := s.outside.write (a + x.2) x.1 }
    | _ => s) s

/-- The sequencer on which the host's test word runs first: one that may issue it (R102, R131, R157, R182). (DESIGN CHOICE, log 7) -/
def testSeq (i : Instr) : SeqId :=
  match i.parts with
  | none => .c
  | some (maj, fn, _, _) =>
    if maj = 0x48 ∨ maj = 0xF9 then (if fn % 2 = 0 then .l else .s)
    else if maj = 0x49 then (if fn = 0 then .x else .l)
    else if maj = 0x18 ∨ (0x40 ≤ maj ∧ maj ≤ 0x4E ∧ maj ≠ 0x4D) ∨ maj = 0xA0 then .x
    else if maj = 0xF0 ∨ (0xF5 ≤ maj ∧ maj ≤ 0xFB) then .x
    else if maj = 0x82 ∧ fn = 1 then .l
    else .c

/-- A tile in which the test word runs: the only tile of launch 1 of queue 0, in address space 0. (DESIGN CHOICE, log 7) -/
def Tile.test : Tile :=
  { queue := 0, lseq := 1, index := 0, asid := 0, prio := 0, dispatch := 0, yielded := false, yieldedFor := [], dead := false, stopping := false,
    killed := false }

/-- Core 0 with an instruction's bytes in the fetch line of PC 0 of a sequencer, which may issue it next: the others have had their turns
of the cycle. (DESIGN CHOICE, log 7) -/
def Core.withTest (k : Core) (now : Nat) (q : SeqId) (bytes : List Byte) : Core :=
  let k := allSeqs.foldl (fun (k : Core) o => k.mapSeq o (fun r => { r with turnAt := some now, turns := 2 })) k
  { k.mapSeq q (fun r => { r with
      turnAt := none, turns := 0, pc := 0, lines := [⟨0, bytes ++ List.replicate (128 - bytes.length) 0⟩], halted := false, pending := [], lastIssue := none,
      lastM := none, segment := none, poppedAt := none, scattered := 0, drain := none }) with
    tile := some .test, round := .closed }

end Sys2Proof.Machine
end

