-- ==== Sys2Proof/Machine/Time.lean ====
section
/-! DEFINITION. Time: the detection of a token deadlock (R251), and the Chronometer's tick (R22, R245) with what must happen before it (R47,
R194, R243, R247, R248, R251, R257, R296, R393, R394). -/

namespace Sys2Proof.Machine
open Sys2Proof

/-- The instruction at a sequencer's program counter, if its line is held. -/
def Core.nextInstr (k : Core) (q : SeqId) : Option Instr :=
  let r := k.seq q
  let a := r.pc.toNat
  match r.lines.find? (fun l => l.addr == a / 128 * 128) with
  | none => none
  | some l => match decode (l.bytes.drop (a % 128)) with
    | .ok (i, _) => some i
    | .error _ => none

/-- The header of an instruction of any form. -/
def headerAt (i : Instr) : Header :=
  match recordOf i with
  | some (_, _, h, _) => h
  | none => headerOf i

/-! ### Token deadlock (R251) -/

/-- Some token that a word pops is not there, or some place that it pushes to is taken. -/
def Core.tokensStuck (k : Core) (q : SeqId) (now : Nat) (h : Header) (pops pushes : List (SeqId × Nat)) : Bool :=
  (popCounts q h pops).any (fun c => decide (k.poppable now c.1 < c.2)) ||
  (pushCounts q h pushes).any (fun c => c.2 != 0 && !k.hasRoom c.1 c.2)

/-- The waiting word of a sequencer waits for a queue of the core, and nothing is on its way to it. -/
def Core.wordStuck (k : Core) (q : SeqId) (now : Nat) : Bool :=
  (k.seq q).waitSince.isSome &&
  (match k.nextInstr q with
   | none => false
   | some i =>
     let h := headerAt i
     let peer (o : MemOps) : SeqId := seqOfNat (o.off.toNat % 4)
     let count (o : MemOps) : Nat := o.off.toNat / 4 % 16
     h.m == 0 &&
     (match i with
      | .tkwait _ o => k.tokensStuck q now h [(peer o, count o)] []
      | .tksig _ o => k.tokensStuck q now h [] [(peer o, count o)]
      | .brq _ _ => k.tokensStuck q now h [] [] || (k.outcomeHead q now).isNone
      | .boqpush _ o => k.tokensStuck q now h [] [] || !k.outcomeRoom (o.off.toNat % 4) 1
      | .xpop _ o =>
        let p := o.imm.toNat % 8
        k.tokensStuck q now h [] [] || ((k.results' p).isEmpty && (Table.get none k.stopped p).isNone &&
          (if p = 4 then [4, 5, 6].all (fun v => (k.fifo v).isEmpty) else (k.fifo p).isEmpty))
      | _ => k.tokensStuck q now h [] [] ||
        ((match i.parts with
          | some (_, _, _, .vec _) => q != .c
          | some (maj, _, _, .record _) => decide (0xF5 ≤ maj)
          | some (_, _, _, .mem o) =>
            (match i with
             | .notify _ _ => q != .c && decide (4 ≤ o.off.toNat)
             | _ => false)
          | _ => false) && !k.fifoRoom (vectorPort q))))

/-- A vector command waits for a queue of the core: a data queue, the deferral queue or an outcome queue. -/
def State.commandStuck (s : State) (core port : Nat) (c : Command) : Bool :=
  let t := { s with cur := ⟨core, c.seq, c.slot⟩ }
  let waits (p : Perf) : Bool := match p with
    | .wait _ => true
    | _ => false
  match c.instr.parts with
  | some (maj, fn, h, .vec o) =>
    ((maj == 0x42 && fn == 0) || maj == 0x49 || (maj == 0x4C && fn == 0)) && waits (performVectorWord t port maj fn h o c)
  | _ => false

/-- No token, outcome or data-queue entry is on its way. -/
def Core.nothingInFlight (k : Core) (now : Nat) : Bool :=
  k.tokens.all (fun x => x.2.all (fun t => decide (t.ready ≤ now) && k.performed t.deps)) &&
  k.outcomes.all (fun x => x.2.all (fun t => decide (t.ready ≤ now) && k.performed t.deps)) &&
  (k.dataLX ++ k.dataXS).all (fun x => decide (x.2.1 ≤ now) && k.performed x.2.2)

/-- Every party of the core waits for a queue of the core, and at least one sequencer does. -/
def State.deadlocked (s : State) (core : Nat) : Bool :=
  let k := s.core core
  let now := s.cycleOf core
  k.working && !s.coreFenced core &&
  allSeqs.all (fun q => (k.seq q).halted || k.wordStuck q now) && allSeqs.any (fun q => !(k.seq q).halted) &&
  [0, 1, 2, 3, 7].all (fun p => (k.fifo p).isEmpty) &&
  [4, 5, 6].all (fun p => match (k.fifo p).head? with
    | none => true
    | some c => c.result.isNone && s.commandStuck core p c) &&
  k.nothingInFlight now

/-- TOKEN_DEADLOCK: a precise fault at the waiting word of the lowest-numbered waiting sequencer. -/
def execTokenDeadlock (core : Nat) (s : State) : Result :=
  if 512 ≤ core then .fault .noSuchUnit
  else if !s.deadlocked core then .next s
  else match allSeqs.find? (fun q => !((s.core core).seq q).halted) with
    | none => .next s
    | some q =>
      let t := { s with cur := ⟨core, q, 0⟩ }.takeTrap (.bare .tokenDeadlock)
      .next { t with cur := s.cur }

/-! ### The Chronometer (R22) -/

/-- The command at a port's head may complete now, and its result has room. -/
def State.completes (s : State) (core port : Nat) : Bool :=
  let k := s.core core
  (Table.get none k.stopped port).isNone && (match (k.fifo port).head? with
    | none => false
    | some c => c.result.isSome && s.mayComplete core port c && (!pushesResult c.instr || k.resultRoom (engineOfPort port)))

/-- A command begins, or misses, in a cycle that has come: one whose trigger's flag is clear then misses once the cycle is over (R191, R248).
(DESIGN CHOICE, log 109) -/
def Core.commandDue (k : Core) (now next : Nat) (c : Command) : Bool :=
  !c.started && (match c.due with
    | some d => if c.trigger.any (fun n => !(k.counter n).flag) then decide (d < now) else decide (d < next)
    | none => false)

/-- The write port of the segment that landed first is through with it (R296). -/
def Core.segmentDue (k : Core) (now : Nat) : Bool := k.helm.applying.head?.any (fun x => k.portReady now x)

/-- What a core has still to do before its present cycle may end: a sequencer's turn (R243), what is due to a sequencer that has halted (R292, R364),
an engine's issue, a command whose cycle it is (R247, R248), a completion of the matrix engine or the vector unit (R134, R173), a segment's
application (R296), answers that are due (R241), and the end of its tile (R47). (DEDUCED, log 71) -/
def State.coreLate (s : State) (core : Nat) (next : Nat) : Bool :=
  let k := s.core core
  let now := s.cycleOf core
  k.working && !s.coreFenced core &&
  (allSeqs.any (fun q => s.turnLeft core q || ((k.seq q).halted && k.hasDue q && s.atBoundary core q)) ||
   enginePorts.any (fun p => !s.portDone core p || s.completes core p) ||
   (List.range 7).any (fun p => (k.nextCommand p).any (fun c => k.commandDue now next c)) ||
   k.segmentDue now || s.ends core ||
   k.loads.any (fun a => a.deadline.any (fun d => decide (d < next)) && s.performable core k.loads a))

/-- A core holds up the tick: its cycle is not over, a block has reached its deadline (R194), or its token deadlock has stood for 64 cycles
(R251). -/
def State.coreHolds (s : State) (core : Nat) : Bool :=
  let next := (s.tick + 1) * s.kOf core / 8
  (decide (s.cycleOf core < next) && s.coreLate core next) ||
  (s.core core).blocks.any (fun b => s.expires core b.1) ||
  ((match (s.core core).stuckSince with
    | some c => decide (c + 64 ≤ s.cycleOf core)
    | none => false) && s.deadlocked core)

/-- A cluster's change of count has not reached its neighbours in 128 ticks (R257). -/
def State.countLate (s : State) : Bool := s.leewayDue.any (fun x => x.2 != 0 && decide (x.2 - 1 + 128 ≤ s.tick))

/-- What the device has still to do before the tick may end: a change of count that is due at the neighbours (R257), a port's training that has taken too
long (R393), the power manager's comparison of the millisecond (R394). -/
def State.deviceLate (s : State) : Bool :=
  s.countLate || s.ports.any (fun x => x.2.state == .training && decide (x.2.trainStart + trainingLimit ≤ s.tick)) ||
  decide (s.mgmt.checkAt + ticksPerMillisecond ≤ s.tick)

/-- A core's deadlock is timed from the cycle in which it is first found (R251). -/
def State.timeDeadlocks (s : State) : State :=
  s.mapCores (fun c k => { k with stuckSince := if s.deadlocked c then some (k.stuckSince.getD (s.cycleOf c)) else none })

/-- CHRONOMETER_TICK: the counter advances by one, once what the ending cycle and tick hold has been done. (DEDUCED, log 71) -/
def execChronometerTick (s : State) : Result :=
  if s.cores.any (fun x => s.coreHolds x.1) || s.deviceLate then .next s
  else
    let t := s.timeDeadlocks
    .next { t with chron := t.chron + 1 }

end Sys2Proof.Machine
end

