-- ==== Sys2Proof/Machine/Dispatch.lean ====
section
/-! DEFINITION. One arm for each constructor of Instr: its meaning. -/

namespace Sys2Proof.Machine
open Sys2Proof

/-- Carry out one instruction or one step of the part. -/
def exec (i : Instr) (s : State) : Host.Outcome State Fault Refusal :=
  match i with
  | .add h o => Sys2Proof.Machine.execAdd h o s
  | .sub h o => Sys2Proof.Machine.execSub h o s
  | .mul h o => Sys2Proof.Machine.execMul h o s
  | .mulh h o => Sys2Proof.Machine.execMulh h o s
  | .mulhn h o => Sys2Proof.Machine.execMulhn h o s
  | .div h o => Sys2Proof.Machine.execDiv h o s
  | .divn h o => Sys2Proof.Machine.execDivn h o s
  | .rem h o => Sys2Proof.Machine.execRem h o s
  | .remn h o => Sys2Proof.Machine.execRemn h o s
  | .neg h o => Sys2Proof.Machine.execNeg h o s
  | .min h o => Sys2Proof.Machine.execMin h o s
  | .max h o => Sys2Proof.Machine.execMax h o s
  | .minn h o => Sys2Proof.Machine.execMinn h o s
  | .maxn h o => Sys2Proof.Machine.execMaxn h o s
  | .and h o => Sys2Proof.Machine.execAnd h o s
  | .or h o => Sys2Proof.Machine.execOr h o s
  | .xor h o => Sys2Proof.Machine.execXor h o s
  | .andn h o => Sys2Proof.Machine.execAndn h o s
  | .not h o => Sys2Proof.Machine.execNot h o s
  | .shl h o => Sys2Proof.Machine.execShl h o s
  | .shr h o => Sys2Proof.Machine.execShr h o s
  | .sra h o => Sys2Proof.Machine.execSra h o s
  | .rol h o => Sys2Proof.Machine.execRol h o s
  | .clz h o => Sys2Proof.Machine.execClz h o s
  | .ctz h o => Sys2Proof.Machine.execCtz h o s
  | .popc h o => Sys2Proof.Machine.execPopc h o s
  | .sext h o => Sys2Proof.Machine.execSext h o s
  | .zext h o => Sys2Proof.Machine.execZext h o s
  | .andImm h o => Sys2Proof.Machine.execAndImm h o s
  | .orImm h o => Sys2Proof.Machine.execOrImm h o s
  | .xorImm h o => Sys2Proof.Machine.execXorImm h o s
  | .andnImm h o => Sys2Proof.Machine.execAndnImm h o s
  | .shlImm h o => Sys2Proof.Machine.execShlImm h o s
  | .shrImm h o => Sys2Proof.Machine.execShrImm h o s
  | .sraImm h o => Sys2Proof.Machine.execSraImm h o s
  | .rolImm h o => Sys2Proof.Machine.execRolImm h o s
  | .sextImm h o => Sys2Proof.Machine.execSextImm h o s
  | .zextImm h o => Sys2Proof.Machine.execZextImm h o s
  | .addi h o => Sys2Proof.Machine.execAddi h o s
  | .li h o => Sys2Proof.Machine.execLi h o s
  | .lea h o => Sys2Proof.Machine.execLea h o s
  | .cset h o => Sys2Proof.Machine.execCset h o s
  | .sel h o => Sys2Proof.Machine.execSel h o s
  | .j h o => Sys2Proof.Machine.execJ h o s
  | .b h o => Sys2Proof.Machine.execB h o s
  | .brq h o => Sys2Proof.Machine.execBrq h o s
  | .call h o => Sys2Proof.Machine.execCall h o s
  | .loop h o => Sys2Proof.Machine.execLoop h o s
  | .jr h o => Sys2Proof.Machine.execJr h o s
  | .callr h o => Sys2Proof.Machine.execCallr h o s
  | .ret h o => Sys2Proof.Machine.execRet h o s
  | .msave h o => Sys2Proof.Machine.execMsave h o s
  | .mrest h o => Sys2Proof.Machine.execMrest h o s
  | .mand h o => Sys2Proof.Machine.execMand h o s
  | .mor h o => Sys2Proof.Machine.execMor h o s
  | .mxor h o => Sys2Proof.Machine.execMxor h o s
  | .mnot h o => Sys2Proof.Machine.execMnot h o s
  | .mset h o => Sys2Proof.Machine.execMset h o s
  | .mcnt h o => Sys2Proof.Machine.execMcnt h o s
  | .vadd h o => Sys2Proof.Machine.execVadd h o s
  | .vsub h o => Sys2Proof.Machine.execVsub h o s
  | .vmul h o => Sys2Proof.Machine.execVmul h o s
  | .vfma h o => Sys2Proof.Machine.execVfma h o s
  | .vfms h o => Sys2Proof.Machine.execVfms h o s
  | .vmin h o => Sys2Proof.Machine.execVmin h o s
  | .vmax h o => Sys2Proof.Machine.execVmax h o s
  | .vabs h o => Sys2Proof.Machine.execVabs h o s
  | .vneg h o => Sys2Proof.Machine.execVneg h o s
  | .vand h o => Sys2Proof.Machine.execVand h o s
  | .vor h o => Sys2Proof.Machine.execVor h o s
  | .vxor h o => Sys2Proof.Machine.execVxor h o s
  | .vnot h o => Sys2Proof.Machine.execVnot h o s
  | .vshl h o => Sys2Proof.Machine.execVshl h o s
  | .vshr h o => Sys2Proof.Machine.execVshr h o s
  | .vsra h o => Sys2Proof.Machine.execVsra h o s
  | .vcmp h o => Sys2Proof.Machine.execVcmp h o s
  | .vsel h o => Sys2Proof.Machine.execVsel h o s
  | .vcvt h o => Sys2Proof.Machine.execVcvt h o s
  | .vwiden h o => Sys2Proof.Machine.execVwiden h o s
  | .vnarrow h o => Sys2Proof.Machine.execVnarrow h o s
  | .vsat h o => Sys2Proof.Machine.execVsat h o s
  | .vclamp h o => Sys2Proof.Machine.execVclamp h o s
  | .vdot4 h o => Sys2Proof.Machine.execVdot4 h o s
  | .vred h o => Sys2Proof.Machine.execVred h o s
  | .vscan h o => Sys2Proof.Machine.execVscan h o s
  | .vperm h o => Sys2Proof.Machine.execVperm h o s
  | .vshuf h o => Sys2Proof.Machine.execVshuf h o s
  | .vbcast h o => Sys2Proof.Machine.execVbcast h o s
  | .vslide h o => Sys2Proof.Machine.execVslide h o s
  | .viota h o => Sys2Proof.Machine.execViota h o s
  | .vcomp h o => Sys2Proof.Machine.execVcomp h o s
  | .vexpd h o => Sys2Proof.Machine.execVexpd h o s
  | .vld h o => Sys2Proof.Machine.execVld h o s
  | .vst h o => Sys2Proof.Machine.execVst h o s
  | .vldx h o => Sys2Proof.Machine.execVldx h o s
  | .vstx h o => Sys2Proof.Machine.execVstx h o s
  | .vgath h o => Sys2Proof.Machine.execVgath h o s
  | .vscat h o => Sys2Proof.Machine.execVscat h o s
  | .vqpop h o => Sys2Proof.Machine.execVqpop h o s
  | .vqpush h o => Sys2Proof.Machine.execVqpush h o s
  | .vexp2 h o => Sys2Proof.Machine.execVexp2 h o s
  | .vlog2 h o => Sys2Proof.Machine.execVlog2 h o s
  | .vrcp h o => Sys2Proof.Machine.execVrcp h o s
  | .vrsq h o => Sys2Proof.Machine.execVrsq h o s
  | .vtanh h o => Sys2Proof.Machine.execVtanh h o s
  | .vsigm h o => Sys2Proof.Machine.execVsigm h o s
  | .vmerge3 h o => Sys2Proof.Machine.execVmerge3 h o s
  | .vdefer h o => Sys2Proof.Machine.execVdefer h o s
  | .vdrain h o => Sys2Proof.Machine.execVdrain h o s
  | .vdqcnt h o => Sys2Proof.Machine.execVdqcnt h o s
  | .loopp h o => Sys2Proof.Machine.execLoopp h o s
  | .brp h o => Sys2Proof.Machine.execBrp h o s
  | .vmov h o => Sys2Proof.Machine.execVmov h o s
  | .vzero h o => Sys2Proof.Machine.execVzero h o s
  | .ld h o => Sys2Proof.Machine.execLd h o s
  | .st h o => Sys2Proof.Machine.execSt h o s
  | .ldx h o => Sys2Proof.Machine.execLdx h o s
  | .stx h o => Sys2Proof.Machine.execStx h o s
  | .lda h o => Sys2Proof.Machine.execLda h o s
  | .stl h o => Sys2Proof.Machine.execStl h o s
  | .amo h o => Sys2Proof.Machine.execAmo h o s
  | .cas h o => Sys2Proof.Machine.execCas h o s
  | .fence h o => Sys2Proof.Machine.execFence h o s
  | .mark h o => Sys2Proof.Machine.execMark h o s
  | .tksig h o => Sys2Proof.Machine.execTksig h o s
  | .tkwait h o => Sys2Proof.Machine.execTkwait h o s
  | .boqpush h o => Sys2Proof.Machine.execBoqpush h o s
  | .barv h o => Sys2Proof.Machine.execBarv h o s
  | .bwait h o => Sys2Proof.Machine.execBwait h o s
  | .tbinit h o => Sys2Proof.Machine.execTbinit h o s
  | .tbarv h o => Sys2Proof.Machine.execTbarv h o s
  | .tbwait h o => Sys2Proof.Machine.execTbwait h o s
  | .leeway h o => Sys2Proof.Machine.execLeeway h o s
  | .remq h o => Sys2Proof.Machine.execRemq h o s
  | .notify h o => Sys2Proof.Machine.execNotify h o s
  | .waitev h o => Sys2Proof.Machine.execWaitev h o s
  | .mma h o => Sys2Proof.Machine.execMma h o s
  | .mmac h o => Sys2Proof.Machine.execMmac h o s
  | .cmerge h o => Sys2Proof.Machine.execCmerge h o s
  | .cspill h o => Sys2Proof.Machine.execCspill h o s
  | .cdrain h o => Sys2Proof.Machine.execCdrain h o s
  | .acfg h o => Sys2Proof.Machine.execAcfg h o s
  | .azero h o => Sys2Proof.Machine.execAzero h o s
  | .aload h o => Sys2Proof.Machine.execAload h o s
  | .adrain h o => Sys2Proof.Machine.execAdrain h o s
  | .adrainp h o => Sys2Proof.Machine.execAdrainp h o s
  | .aarm h o => Sys2Proof.Machine.execAarm h o s
  | .fmtset h o => Sys2Proof.Machine.execFmtset h o s
  | .fmtld h o => Sys2Proof.Machine.execFmtld h o s
  | .mvec h o => Sys2Proof.Machine.execMvec h o s
  | .mxt h o => Sys2Proof.Machine.execMxt h o s
  | .xcopy h o => Sys2Proof.Machine.execXcopy h o s
  | .xgath h o => Sys2Proof.Machine.execXgath h o s
  | .xscat h o => Sys2Proof.Machine.execXscat h o s
  | .xfill h o => Sys2Proof.Machine.execXfill h o s
  | .xpop h o => Sys2Proof.Machine.execXpop h o s
  | .xstat h o => Sys2Proof.Machine.execXstat h o s
  | .publish h o => Sys2Proof.Machine.execPublish h o s
  | .ntake h o => Sys2Proof.Machine.execNtake h o s
  | .ndecl h o => Sys2Proof.Machine.execNdecl h o s
  | .nwait h o => Sys2Proof.Machine.execNwait h o s
  | .reclaim h o => Sys2Proof.Machine.execReclaim h o s
  | .rextend h o => Sys2Proof.Machine.execRextend h o s
  | .helmset h o => Sys2Proof.Machine.execHelmset h o s
  | .pwin h o => Sys2Proof.Machine.execPwin h o s
  | .coll h o => Sys2Proof.Machine.execColl h o s
  | .accw h o => Sys2Proof.Machine.execAccw h o s
  | .rdywait h o => Sys2Proof.Machine.execRdywait h o s
  | .sortk h o => Sys2Proof.Machine.execSortk h o s
  | .echoose h o => Sys2Proof.Machine.execEchoose h o s
  | .rcsnap h o => Sys2Proof.Machine.execRcsnap h o s
  | .lattn h o => Sys2Proof.Machine.execLattn h o s
  | .chnew h o => Sys2Proof.Machine.execChnew h o s
  | .chfork h o => Sys2Proof.Machine.execChfork h o s
  | .chflat h o => Sys2Proof.Machine.execChflat h o s
  | .chappend h o => Sys2Proof.Machine.execChappend h o s
  | .chlook h o => Sys2Proof.Machine.execChlook h o s
  | .chtrunc h o => Sys2Proof.Machine.execChtrunc h o s
  | .chseal h o => Sys2Proof.Machine.execChseal h o s
  | .chfree h o => Sys2Proof.Machine.execChfree h o s
  | .chgive h o => Sys2Proof.Machine.execChgive h o s
  | .bmset h o => Sys2Proof.Machine.execBmset h o s
  | .bmperm h o => Sys2Proof.Machine.execBmperm h o s
  | .bmlook h o => Sys2Proof.Machine.execBmlook h o s
  | .rkbegin h o => Sys2Proof.Machine.execRkbegin h o s
  | .acmp h o => Sys2Proof.Machine.execAcmp h o s
  | .rkcommit h o => Sys2Proof.Machine.execRkcommit h o s
  | .rkend h o => Sys2Proof.Machine.execRkend h o s
  | .rkstat h o => Sys2Proof.Machine.execRkstat h o s
  | .csrr h o => Sys2Proof.Machine.execCsrr h o s
  | .csrw h o => Sys2Proof.Machine.execCsrw h o s
  | .csrx h o => Sys2Proof.Machine.execCsrx h o s
  | .trap h o => Sys2Proof.Machine.execTrap h o s
  | .eret h o => Sys2Proof.Machine.execEret h o s
  | .halt h o => Sys2Proof.Machine.execHalt h o s
  | .nop h o => Sys2Proof.Machine.execNop h o s
  | .yield h o => Sys2Proof.Machine.execYield h o s
  | .mmaRecord h r => Sys2Proof.Machine.execMmaRecord h r s
  | .mmacRecord h r => Sys2Proof.Machine.execMmacRecord h r s
  | .xcopyRecord h r => Sys2Proof.Machine.execXcopyRecord h r s
  | .xgathRecord h r => Sys2Proof.Machine.execXgathRecord h r s
  | .xscatRecord h r => Sys2Proof.Machine.execXscatRecord h r s
  | .xfillRecord h r => Sys2Proof.Machine.execXfillRecord h r s
  | .publishRecord h r => Sys2Proof.Machine.execPublishRecord h r s
  | .collRecord h r => Sys2Proof.Machine.execCollRecord h r s
  | .sortkRecord h r => Sys2Proof.Machine.execSortkRecord h r s
  | .lattnRecord h r => Sys2Proof.Machine.execLattnRecord h r s
  | .vectorArithRecord fn h r => Sys2Proof.Machine.execVectorArithRecord fn h r s
  | .vectorLogicRecord fn h r => Sys2Proof.Machine.execVectorLogicRecord fn h r s
  | .vectorConvertRecord fn h r => Sys2Proof.Machine.execVectorConvertRecord fn h r s
  | .vectorDotRecord fn h r => Sys2Proof.Machine.execVectorDotRecord fn h r s
  | .vectorMemoryRecord fn h r => Sys2Proof.Machine.execVectorMemoryRecord fn h r s
  | .vectorSpecialRecord fn h r => Sys2Proof.Machine.execVectorSpecialRecord fn h r s
  | .vmerge3Record h r => Sys2Proof.Machine.execVmerge3Record h r s
  | .recordIssue core port => Sys2Proof.Machine.execRecordIssue core port s
  | .engineCommandStart core port => Sys2Proof.Machine.execEngineCommandStart core port s
  | .triggeredCommandStart core port => Sys2Proof.Machine.execTriggeredCommandStart core port s
  | .commandComplete core port => Sys2Proof.Machine.execCommandComplete core port s
  | .notifyRetire core port => Sys2Proof.Machine.execNotifyRetire core port s
  | .loadAnswer core id => Sys2Proof.Machine.execLoadAnswer core id s
  | .l1Eviction core line => Sys2Proof.Machine.execL1Eviction core line s
  | .pageWalkComplete walk => Sys2Proof.Machine.execPageWalkComplete walk s
  | .leewayCountUpdate cluster => Sys2Proof.Machine.execLeewayCountUpdate cluster s
  | .tokenDeadlock core => Sys2Proof.Machine.execTokenDeadlock core s
  | .reportedFaultDelivery core seq => Sys2Proof.Machine.execReportedFaultDelivery core seq s
  | .blockExpiry core slot => Sys2Proof.Machine.execBlockExpiry core slot s
  | .reclaimTrapDelivery core => Sys2Proof.Machine.execReclaimTrapDelivery core s
  | .noticeArrival msg => Sys2Proof.Machine.execNoticeArrival msg s
  | .heldNoticeEntry core => Sys2Proof.Machine.execHeldNoticeEntry core s
  | .noticeRipe core entry => Sys2Proof.Machine.execNoticeRipe core entry s
  | .helmPullStart core => Sys2Proof.Machine.execHelmPullStart core s
  | .segmentRequest core => Sys2Proof.Machine.execSegmentRequest core s
  | .segmentRead msg => Sys2Proof.Machine.execSegmentRead msg s
  | .segmentLand core => Sys2Proof.Machine.execSegmentLand core s
  | .pullCompletionArrival msg => Sys2Proof.Machine.execPullCompletionArrival msg s
  | .declineArrival msg => Sys2Proof.Machine.execDeclineArrival msg s
  | .withdrawalArrival msg => Sys2Proof.Machine.execWithdrawalArrival msg s
  | .collSegmentApply core => Sys2Proof.Machine.execCollSegmentApply core s
  | .remoteBlockServe core => Sys2Proof.Machine.execRemoteBlockServe core s
  | .tileEnd core => Sys2Proof.Machine.execTileEnd core s
  | .tileEndByFault core => Sys2Proof.Machine.execTileEndByFault core s
  | .packetRead queue => Sys2Proof.Machine.execPacketRead queue s
  | .coreOffer core => Sys2Proof.Machine.execCoreOffer core s
  | .launchComplete queue lseq => Sys2Proof.Machine.execLaunchComplete queue lseq s
  | .preemptTrigger queue => Sys2Proof.Machine.execPreemptTrigger queue s
  | .contextSave core => Sys2Proof.Machine.execContextSave core s
  | .tileResume core => Sys2Proof.Machine.execTileResume core s
  | .queueDrainDone queue => Sys2Proof.Machine.execQueueDrainDone queue s
  | .queueAbortDone queue => Sys2Proof.Machine.execQueueAbortDone queue s
  | .qctlEnable queue => Sys2Proof.Machine.execQctlEnable queue s
  | .qctlDrain queue => Sys2Proof.Machine.execQctlDrain queue s
  | .qctlAbort queue => Sys2Proof.Machine.execQctlAbort queue s
  | .qwrDoorbell queue value => Sys2Proof.Machine.execQwrDoorbell queue value s
  | .tigoInvalidate bytes => Sys2Proof.Machine.execTigoInvalidate bytes s
  | .tlbInvalidateComplete => Sys2Proof.Machine.execTlbInvalidateComplete s
  | .wcmdIngress entry => Sys2Proof.Machine.execWcmdIngress entry s
  | .wcmdLocal entry => Sys2Proof.Machine.execWcmdLocal entry s
  | .wcmdRelease entry => Sys2Proof.Machine.execWcmdRelease entry s
  | .shardBlockWrite addr data => Sys2Proof.Machine.execShardBlockWrite addr data s
  | .shardLocalCheckDone entry => Sys2Proof.Machine.execShardLocalCheckDone entry s
  | .shardPatrolPass => Sys2Proof.Machine.execShardPatrolPass s
  | .wfenceClear index value => Sys2Proof.Machine.execWfenceClear index value s
  | .fllostClear value => Sys2Proof.Machine.execFllostClear value s
  | .errorCountClear cluster index value => Sys2Proof.Machine.execErrorCountClear cluster index value s
  | .unfenceCore index value => Sys2Proof.Machine.execUnfenceCore index value s
  | .unfenceCluster value => Sys2Proof.Machine.execUnfenceCluster value s
  | .unfenceStack value => Sys2Proof.Machine.execUnfenceStack value s
  | .unfenceUnit index value => Sys2Proof.Machine.execUnfenceUnit index value s
  | .eccCorrected site => Sys2Proof.Machine.execEccCorrected site s
  | .eccUncorrectable site => Sys2Proof.Machine.execEccUncorrectable site s
  | .patrolScrub => Sys2Proof.Machine.execPatrolScrub s
  | .ckctlSave => Sys2Proof.Machine.execCkctlSave s
  | .ckctlRestore => Sys2Proof.Machine.execCkctlRestore s
  | .checkpointQuiesced => Sys2Proof.Machine.execCheckpointQuiesced s
  | .checkpointCopyDone => Sys2Proof.Machine.execCheckpointCopyDone s
  | .checkpointError => Sys2Proof.Machine.execCheckpointError s
  | .checkpointRestoreDone => Sys2Proof.Machine.execCheckpointRestoreDone s
  | .tcmdLcchange => Sys2Proof.Machine.execTcmdLcchange s
  | .tcmdQuote => Sys2Proof.Machine.execTcmdQuote s
  | .tcmdKeyinstall asid => Sys2Proof.Machine.execTcmdKeyinstall asid s
  | .tcmdKeyclear asid => Sys2Proof.Machine.execTcmdKeyclear asid s
  | .powerOnReset => Sys2Proof.Machine.execPowerOnReset s
  | .sfctlStartupEnd => Sys2Proof.Machine.execSfctlStartupEnd s
  | .sfctlBist => Sys2Proof.Machine.execSfctlBist s
  | .bistDone => Sys2Proof.Machine.execBistDone s
  | .clkcfgWrite die value => Sys2Proof.Machine.execClkcfgWrite die value s
  | .clkcfgPendingApply die => Sys2Proof.Machine.execClkcfgPendingApply die s
  | .pcfgWrite port value => Sys2Proof.Machine.execPcfgWrite port value s
  | .portTrained port peer => Sys2Proof.Machine.execPortTrained port peer s
  | .portTrainingTimeout port => Sys2Proof.Machine.execPortTrainingTimeout port s
  | .portFence port => Sys2Proof.Machine.execPortFence port s
  | .flitForward msg => Sys2Proof.Machine.execFlitForward msg s
  | .flitReplay port => Sys2Proof.Machine.execFlitReplay port s
  | .undeliverableReturn msg => Sys2Proof.Machine.execUndeliverableReturn msg s
  | .writeOfferArrival port offer => Sys2Proof.Machine.execWriteOfferArrival port offer s
  | .writeOfferPull port => Sys2Proof.Machine.execWriteOfferPull port s
  | .remoteWritePerform port => Sys2Proof.Machine.execRemoteWritePerform port s
  | .remoteWriteAck core entry answer => Sys2Proof.Machine.execRemoteWriteAck core entry answer s
  | .remoteReadRequest port addr bytes => Sys2Proof.Machine.execRemoteReadRequest port addr bytes s
  | .hostRegisterAccess port access => Sys2Proof.Machine.execHostRegisterAccess port access s
  | .registerWrite off value => Sys2Proof.Machine.execRegisterWrite off value s
  | .powerManagerCheck => Sys2Proof.Machine.execPowerManagerCheck s
  | .thermalStop => Sys2Proof.Machine.execThermalStop s
  | .thermalRestart => Sys2Proof.Machine.execThermalRestart s
  | .chronometerTick => Sys2Proof.Machine.execChronometerTick s
  | .pldmSensorRead sensor => Sys2Proof.Machine.execPldmSensorRead sensor s
  | .storePerformed core id => Sys2Proof.Machine.execStorePerformed core id s
  | .shardIngressCheckDone entry => Sys2Proof.Machine.execShardIngressCheckDone entry s
  | .stackLosesTraining stack => Sys2Proof.Machine.execStackLosesTraining stack s
  | .baseDieError stack => Sys2Proof.Machine.execBaseDieError stack s
  | .powerLoss => Sys2Proof.Machine.execPowerLoss s

end Sys2Proof.Machine
end

