-- ==== Sys2Proof/Machine/Step.lean ====
section
/-! DEFINITION. One step of the machine: the next turn of the schedule (log 1), a sequencer's turn being the fetch, decoding and
carrying out of its next word. -/

namespace Sys2Proof.Machine
open Sys2Proof

/-- The turn to take: the head of the agenda, or the part's own choice. (DESIGN CHOICE, log 1) -/
def State.nextTurn (s : State) : Turn × State :=
  match s.agenda with
  | t :: r => (t, { s with agenda := r, clock := s.clock + 1 })
  | [] => (Config.turn s.clock, { s with clock := s.clock + 1 })

/-- What still comes about from a junction temperature of 105 °C on (R395): the stop, sensor readings, a restart below the threshold, and the loss and
return of power. (DEDUCED, log 66) -/
def duringThermalStop : Instr → Bool
  | .thermalStop | .thermalRestart | .pldmSensorRead _ | .powerLoss | .powerOnReset => true
  | _ => false

/-- Turns that a stop by heat leaves: the outside's own, and the events above; without power only its return (R385). (DEDUCED, log 66) -/
def State.halts (s : State) (t : Turn) : Bool :=
  match t with
  | .idle | .outsideWrite _ _ => false
  | .event i =>
    if s.mgmt.powered then (s.mgmt.thermalHold || decide (105 ≤ s.mgmt.temp % 256)) && !duringThermalStop i else i != .powerOnReset
  | _ => !s.mgmt.powered || s.mgmt.thermalHold || decide (105 ≤ s.mgmt.temp % 256)

/-- An event that takes up the matrix engine or the vector unit comes after the sequencers' turns of the cycle, in the ports' order (R41, R65); a
landed segment is applied, and a block read for another core, after the matrix engine's reads of the cycle (R283, R296). -/
def State.inOrder (s : State) (i : Instr) : Bool :=
  let afterWords (core : Nat) : Bool := allSeqs.all (fun q => !s.turnLeft core q)
  match i with
  | .engineCommandStart core port | .recordIssue core port =>
    !enginePorts.contains port || (afterWords core && (enginePorts.takeWhile (fun p => p != port)).all (fun p => s.portDone core p))
  | .collSegmentApply core => afterWords core && s.portDone core 3
  | .segmentRead msg => (s.readsBlockOf msg).all (fun core => afterWords core && enginePorts.all (fun p => s.portDone core p))
  | _ => true

/-- Carry out one turn. (DESIGN CHOICE, log 1) -/
def State.takeTurn (t : Turn) (s : State) : Host.Outcome State Fault Refusal :=
  if s.halts t then .next s
  else match t with
  | .idle => .next s
  | .seq core q =>
    if 512 ≤ core then .fault .noSuchUnit
    else match s.seqTurn core q with
      | .quiet u => .next u
      | .word i u =>
      match exec i u with
      | .next t => .next (u.settleDue core q t)
      | e => e
  | .event i =>
    match i.parts with
    | some _ => .next s
    | none => if s.inOrder i then exec i s else .next s
  | .fetchAhead core q => if 512 ≤ core then .fault .noSuchUnit else .next (s.fetchAhead core q)
  | .l2WriteBack a => .next (s.passByte a)
  | .fromOutside port hops m => .next (if port < 24 then s.receive port hops m else s)
  | .flitAccepted port => .next (s.acceptFlit port)
  | .linkCredit port lane => .next (s.linkCredit port lane)
  | .remoteAtomic port addr n op b c => .next (s.remoteAtomic port addr n op b c)
  | .portUnfence port => .next (s.unfencePort port)
  | .ringAnswer q => .next (s.answerRing q)
  | .bringUp => .next s.bringUpStep
  | .readAnswer core n => .next (s.answerRead core n)
  | .outsideWrite a b => .next (s.outsideChange a b)

/-- The step function. -/
def step (s : State) : Host.Outcome State Fault Refusal :=
  s.nextTurn.2.takeTurn s.nextTurn.1

/-- The state with an instruction standing where the next turn fetches: in core 0's fetch line at PC 0 of a sequencer that may
issue it, a tile being resident. (DESIGN CHOICE, log 7) -/
def State.withFetchWord (s : State) (nbits w : Nat) : State :=
  let bytes := natBytes 64 (w % 2 ^ nbits)
  let q := match decodeTableWord nbits w with
    | some i => testSeq i
    | none => .c
  { s.mapCore 0 (fun k => k.withTest (s.cycleOf 0) q bytes) with
    agenda := .seq 0 q :: s.agenda
    mgmt := { s.mgmt with powered := true, thermalHold := false, temp := if 105 ≤ s.mgmt.temp % 256 then 0 else s.mgmt.temp }
    faults := { s.faults with fcore := setBit s.faults.fcore 0 false, fclu := setBit s.faults.fclu 0 false } }

end Sys2Proof.Machine
end

