-- ==== Sys2Proof/Safety.lean ====
section
/-! DEFINITION. The words that claims use: what a safe run is, which memories are in canonical form, what a word leaves unchanged, and
short forms for the next state of a word. -/

namespace Sys2Proof.Safety
open Sys2Proof Sys2Proof.Machine

/-! ### Safe runs -/

/-- n steps; none where one of them stops. -/
def run : Nat → State → Option State
  | 0, s => some s
  | n + 1, s =>
    match step s with
    | .next t => run n t
    | .fault _ => none
    | .refused _ => none

/-- The run of n steps from a state does not stop: no turn names a unit that the part does not have. -/
def safe (n : Nat) (s : State) : Prop := (run n s).isSome = true

/-- The memories of the package keep their canonical form: HBM and the outside's memory. -/
def memoriesWf (s : State) : Prop := Memory.wf s.hbm = true ∧ Memory.wf s.outside = true

/-! ### What a word leaves unchanged -/

/-- Every byte of every memory reads as before: physical memory at both levels, and each core's scratchpad and cache lines. -/
structure SameMemory (s t : State) : Prop where
  phys : ∀ (system : Bool) (a : Nat), t.physRead system a = s.physRead system a
  spad : ∀ (c a : Nat), (t.core c).spad.read a = (s.core c).spad.read a
  cache : ∀ c : Nat, (t.core c).l1 = (s.core c).l1

/-- A core's architectural registers beside its sequencers' are as before: vector registers, masks, rotation, flags, control
registers, accumulators, counters, formats, ready counters, routing words, blocks and phase. -/
structure SameRegisters (x y : Core) : Prop where
  v : y.v = x.v
  em : y.em = x.em
  cm : y.cm = x.cm
  masks : y.k = x.k
  rrb : y.rrb = x.rrb
  fflags : y.fflags = x.fflags
  frm : y.frm = x.frm
  aovf : y.aovf = x.aovf
  domain : y.domain = x.domain
  helmcfg : y.helmcfg = x.helmcfg
  pwincfg : y.pwincfg = x.pwincfg
  acc : y.acc = x.acc
  counters : y.counters = x.counters
  conf : y.conf = x.conf
  eb : y.eb = x.eb
  cwb : y.cwb = x.cwb
  cbound : y.cbound = x.cbound
  cdrains : y.cdrains = x.cdrains
  fmt : y.fmt = x.fmt
  granules : y.granules = x.granules
  counters32 : y.counters32 = x.counters32
  routing : y.routing = x.routing
  blocks : y.blocks = x.blocks
  phase : y.phase = x.phase

/-- A sequencer's trap registers, shadow stack and stage predicates are as before. -/
structure SameSpecials (r u : Sequencer) : Prop where
  shadow : u.shadow = r.shadow
  sg : u.sg = r.sg
  tvec : u.tvec = r.tvec
  epc : u.epc = r.epc
  ecause : u.ecause = r.ecause
  halted : u.halted = r.halted
  inHandler : u.inHandler = r.inHandler

/-- The device's registers outside the cores are as before. -/
structure SameDevice (s t : State) : Prop where
  chron : t.chron = s.chron
  queues : t.queues = s.queues
  groups : t.groups = s.groups
  shards : t.shards = s.shards
  ports : t.ports = s.ports
  routes : t.routes = s.routes
  faults : t.faults = s.faults
  trust : t.trust = s.trust
  mgmt : t.mgmt = s.mgmt
  checkpoint : t.checkpoint = s.checkpoint

/-- What a word of the present sequencer, carried out for slot 0, leaves unchanged when it writes the g-registers ds and nothing
else: every other g-register, the other sequencers, the other cores, every other register, and all memory. -/
structure OnlyG (s t : State) (ds : List (BitVec 6)) : Prop where
  memory : SameMemory s t
  device : SameDevice s t
  cores : ∀ c, c ≠ s.cur.core → t.core c = s.core c
  registers : SameRegisters s.me t.me
  sequencers : ∀ q, q ≠ s.cur.seq → t.me.seq q = s.me.seq q
  specials : SameSpecials s.mySeq t.mySeq
  others : ∀ n : Nat, (∀ d ∈ ds, d.toNat ≠ n) → t.mySeq.getG n = s.mySeq.getG n

/-! ### Next states of words -/

/-- The next state of a word that writes v to DG and goes on with the next word. -/
def wrote (p : Issue) (h : Header) (s : State) (d : BitVec 6) (v : Word) : Host.Outcome State Fault Refusal :=
  .next ((s.setG d v).retire p h (s.pc + 16) false)

/-- The next state of a word whose own effect has made u of the state and which goes on at n. -/
def went (p : Issue) (h : Header) (u : State) (n : Word) : Host.Outcome State Fault Refusal := .next (u.retire p h n false)

/-- The next state of a taken transfer whose own effect has made u of the state and which goes on at n. -/
def jumped (p : Issue) (h : Header) (u : State) (n : Word) : Host.Outcome State Fault Refusal := .next (u.retire p h n true)

/-- The next state of a word or record that enters an engine's FIFO with the ranges that its command holds (R183, R190, R253). -/
def entered (p : Issue) (h : Header) (s : State) (port : Nat) (c : Command) (spans : List Span) : Host.Outcome State Fault Refusal :=
  went p h
    ({ s.mapMe (fun k => k.accept port c) with nextId := s.nextId + 1 }.mapMe (fun k =>
      (spans.filter (fun (x : Span) => x.len != 0)).foldl (fun (k : Core) (x : Span) => k.addRange ⟨.command c.id, x.space, x.lo, x.len, x.loads, s.cycle, none⟩) k))
    (s.pc + BitVec.ofNat 64 p.size)

/-- A FIFO has room for one more command, no party has waited longer for it, in a FIXED region its engine can begin the command at once,
and the range scoreboard has room (R243, R244, R248, R253). -/
def room (s : State) (port : Nat) (c : Command) (spans : List Span) : Prop :=
  s.me.fifoRoom port = true ∧ s.me.older s.cur.seq port s.cycle = false ∧ s.me.beginsAtOnce port c = true ∧
  s.me.liveRanges.length + (spans.filter (fun (x : Span) => x.len != 0)).length ≤ 64

/-- A target that a taken transfer accepts: a multiple of 16, and of 64 in strict fetch (R74, R75). -/
def okTarget (s : State) (t : Word) : Prop := t.toNat % 16 = 0 ∧ (s.strict s.cur.core = true → t.toNat % 64 = 0)

end Sys2Proof.Safety
end

