-- ==== Sys2Proof/Certificates/Slice0/Obligations.lean ====
section
/-! DEFINITION. What is to be proved of the model: statements of the rules of spec/, per instruction, and of the machine as a whole. -/

open Sys2Proof Sys2Proof.Machine Sys2Proof.Safety

/-! ### Scalar words (chapter 5) -/

/-- Every arithmetic word of R104 that passes the checks of issue writes to DG the value of the rule's table, modulo 2^64, and goes on
with the next word. Their encodings are those of MAJ 0x01 with COND and CG zero, and with BG zero for NEG; none of them writes FFLAGS.
Every logic and bit word of R105 with a register operand writes to DG the value of the rule's table. -/
def Obligations.ArithmeticAndLogicWords : Prop :=
  ((∀ (h : Header) (o : RegOps) (s : State), gate (Issue.scalar [o.ag, o.bg] [o.dg]) h s = .go →
      let a := s.g o.ag
      let b := s.g o.bg
      let q : Int := a.toInt.sign * b.toInt.sign * ((a.toInt.natAbs / b.toInt.natAbs : Nat) : Int)
      let p (lat : Nat) : Issue := { Issue.scalar [o.ag, o.bg] [o.dg] with lat := lat }
      exec (.add h o) s = wrote (p 1) h s o.dg (a + b) ∧
      exec (.sub h o) s = wrote (p 1) h s o.dg (a - b) ∧
      exec (.mul h o) s = wrote (p 3) h s o.dg (a * b) ∧
      exec (.mulh h o) s = wrote (p 3) h s o.dg (BitVec.ofInt 64 (a.toInt * b.toInt / 2 ^ 64)) ∧
      exec (.mulhn h o) s = wrote (p 3) h s o.dg (BitVec.ofNat 64 (a.toNat * b.toNat / 2 ^ 64)) ∧
      exec (.div h o) s = wrote (p 20) h s o.dg (if b = 0 then BitVec.allOnes 64 else BitVec.ofInt 64 q) ∧
      exec (.divn h o) s = wrote (p 20) h s o.dg (if b = 0 then BitVec.allOnes 64 else a / b) ∧
      exec (.rem h o) s = wrote (p 20) h s o.dg (if b = 0 then a else BitVec.ofInt 64 (a.toInt - b.toInt * q)) ∧
      exec (.remn h o) s = wrote (p 20) h s o.dg (if b = 0 then a else a % b) ∧
      exec (.neg h o) s = wrote (p 1) h s o.dg (-a) ∧
      exec (.min h o) s = wrote (p 1) h s o.dg (BitVec.ofInt 64 (Min.min a.toInt b.toInt)) ∧
      exec (.max h o) s = wrote (p 1) h s o.dg (BitVec.ofInt 64 (Max.max a.toInt b.toInt)) ∧
      exec (.minn h o) s = wrote (p 1) h s o.dg (BitVec.ofNat 64 (Min.min a.toNat b.toNat)) ∧
      exec (.maxn h o) s = wrote (p 1) h s o.dg (BitVec.ofNat 64 (Max.max a.toNat b.toNat))) ∧
   (∀ (h : Header) (o : RegOps),
     (Instr.add h o).parts = some (0x01, 0x00, h, .reg o) ∧ ((Instr.add h o).wf = true → o.cond = 0 ∧ o.cg = 0) ∧
     (Instr.sub h o).parts = some (0x01, 0x01, h, .reg o) ∧ ((Instr.sub h o).wf = true → o.cond = 0 ∧ o.cg = 0) ∧
     (Instr.mul h o).parts = some (0x01, 0x02, h, .reg o) ∧ ((Instr.mul h o).wf = true → o.cond = 0 ∧ o.cg = 0) ∧
     (Instr.mulh h o).parts = some (0x01, 0x03, h, .reg o) ∧ ((Instr.mulh h o).wf = true → o.cond = 0 ∧ o.cg = 0) ∧
     (Instr.mulhn h o).parts = some (0x01, 0x04, h, .reg o) ∧ ((Instr.mulhn h o).wf = true → o.cond = 0 ∧ o.cg = 0) ∧
     (Instr.div h o).parts = some (0x01, 0x05, h, .reg o) ∧ ((Instr.div h o).wf = true → o.cond = 0 ∧ o.cg = 0) ∧
     (Instr.divn h o).parts = some (0x01, 0x06, h, .reg o) ∧ ((Instr.divn h o).wf = true → o.cond = 0 ∧ o.cg = 0) ∧
     (Instr.rem h o).parts = some (0x01, 0x07, h, .reg o) ∧ ((Instr.rem h o).wf = true → o.cond = 0 ∧ o.cg = 0) ∧
     (Instr.remn h o).parts = some (0x01, 0x08, h, .reg o) ∧ ((Instr.remn h o).wf = true → o.cond = 0 ∧ o.cg = 0) ∧
     (Instr.neg h o).parts = some (0x01, 0x09, h, .reg o) ∧ ((Instr.neg h o).wf = true → o.cond = 0 ∧ o.cg = 0 ∧ o.bg = 0) ∧
     (Instr.min h o).parts = some (0x01, 0x0a, h, .reg o) ∧ ((Instr.min h o).wf = true → o.cond = 0 ∧ o.cg = 0) ∧
     (Instr.max h o).parts = some (0x01, 0x0b, h, .reg o) ∧ ((Instr.max h o).wf = true → o.cond = 0 ∧ o.cg = 0) ∧
     (Instr.minn h o).parts = some (0x01, 0x0c, h, .reg o) ∧ ((Instr.minn h o).wf = true → o.cond = 0 ∧ o.cg = 0) ∧
     (Instr.maxn h o).parts = some (0x01, 0x0d, h, .reg o) ∧ ((Instr.maxn h o).wf = true → o.cond = 0 ∧ o.cg = 0)) ∧
   (∀ (p : Issue) (h : Header) (s : State) (d : BitVec 6) (v : Word) (t : State), wrote p h s d v = .next t → t.me.fflags = s.me.fflags)) ∧
  (∀ (h : Header) (o : RegOps) (s : State), gate (Issue.scalar [o.ag, o.bg] [o.dg]) h s = .go →
     let a := s.g o.ag
     let b := s.g o.bg
     let p := Issue.scalar [o.ag, o.bg] [o.dg]
     exec (.and h o) s = wrote p h s o.dg (a &&& b) ∧
     exec (.or h o) s = wrote p h s o.dg (a ||| b) ∧
     exec (.xor h o) s = wrote p h s o.dg (a ^^^ b) ∧
     exec (.andn h o) s = wrote p h s o.dg (a &&& ~~~b) ∧
     exec (.not h o) s = wrote p h s o.dg (~~~a) ∧
     exec (.shl h o) s = wrote p h s o.dg (if 64 ≤ b.toNat then 0 else a <<< b.toNat) ∧
     exec (.shr h o) s = wrote p h s o.dg (if 64 ≤ b.toNat then 0 else a >>> b.toNat) ∧
     exec (.sra h o) s = wrote p h s o.dg (if 64 ≤ b.toNat then a.sshiftRight 63 else a.sshiftRight b.toNat) ∧
     exec (.rol h o) s = wrote p h s o.dg (a.rotateLeft (b.toNat % 64)) ∧
     exec (.clz h o) s = wrote p h s o.dg (BitVec.ofNat 64 ((List.range 64).takeWhile (fun i => !a.getLsbD (63 - i))).length) ∧
     exec (.ctz h o) s = wrote p h s o.dg (BitVec.ofNat 64 ((List.range 64).takeWhile (fun i => !a.getLsbD i)).length) ∧
     exec (.popc h o) s = wrote p h s o.dg (BitVec.ofNat 64 ((List.range 64).filter (fun i => a.getLsbD i)).length) ∧
     exec (.sext h o) s = wrote p h s o.dg
       (if b.toNat = 0 then 0 else if 64 ≤ b.toNat then a else (a.setWidth b.toNat).signExtend 64) ∧
     exec (.zext h o) s = wrote p h s o.dg
       (if b.toNat = 0 then 0 else if 64 ≤ b.toNat then a else (a.setWidth b.toNat).setWidth 64))

/-- The same words with an immediate operand, and ADDI, LI and LEA of R106. -/
def Obligations.ImmediateWords : Prop :=
  ∀ (h : Header) (o : ImmOps) (s : State),
    let a := s.g o.ag
    let b := o.imm
    let p := Issue.scalar [o.ag] [o.dg]
    (gate p h s = .go →
      exec (.andImm h o) s = wrote p h s o.dg (a &&& b) ∧
      exec (.orImm h o) s = wrote p h s o.dg (a ||| b) ∧
      exec (.xorImm h o) s = wrote p h s o.dg (a ^^^ b) ∧
      exec (.andnImm h o) s = wrote p h s o.dg (a &&& ~~~b) ∧
      exec (.shlImm h o) s = wrote p h s o.dg (if 64 ≤ b.toNat then 0 else a <<< b.toNat) ∧
      exec (.shrImm h o) s = wrote p h s o.dg (if 64 ≤ b.toNat then 0 else a >>> b.toNat) ∧
      exec (.sraImm h o) s = wrote p h s o.dg (if 64 ≤ b.toNat then a.sshiftRight 63 else a.sshiftRight b.toNat) ∧
      exec (.rolImm h o) s = wrote p h s o.dg (a.rotateLeft (b.toNat % 64)) ∧
      exec (.sextImm h o) s = wrote p h s o.dg
        (if b.toNat = 0 then 0 else if 64 ≤ b.toNat then a else (a.setWidth b.toNat).signExtend 64) ∧
      exec (.zextImm h o) s = wrote p h s o.dg
        (if b.toNat = 0 then 0 else if 64 ≤ b.toNat then a else (a.setWidth b.toNat).setWidth 64) ∧
      exec (.addi h o) s = wrote p h s o.dg (a + b) ∧
      exec (.li h o) s = wrote p h s o.dg b) ∧
    (gate (Issue.scalar [] [o.dg]) h s = .go → exec (.lea h o) s = wrote (Issue.scalar [] [o.dg]) h s o.dg (s.pc + b))

/-- A COND field holds as the table of R103 gives: CSET writes 1 where it holds and 0 where it does not; SEL (R106) selects by G(CG). -/
def Obligations.ConditionWords : Prop :=
  ∀ (h : Header) (o : RegOps) (s : State),
    let a := s.g o.ag
    let b := s.g o.bg
    let holds : Prop := match o.cond.toNat with
      | 0 => a = b
      | 1 => a ≠ b
      | 2 => a.toInt < b.toInt
      | 3 => a.toInt ≥ b.toInt
      | 4 => a.toInt ≤ b.toInt
      | 5 => a.toInt > b.toInt
      | 6 => a.toNat < b.toNat
      | 7 => a.toNat ≥ b.toNat
      | 8 => a.toNat ≤ b.toNat
      | 9 => a.toNat > b.toNat
      | _ => False
    (gate (Issue.scalar [o.ag, o.bg] [o.dg]) h s = .go →
      (holds → exec (.cset h o) s = wrote (Issue.scalar [o.ag, o.bg] [o.dg]) h s o.dg 1) ∧
      (¬holds → exec (.cset h o) s = wrote (Issue.scalar [o.ag, o.bg] [o.dg]) h s o.dg 0)) ∧
    (gate (Issue.scalar [o.ag, o.bg, o.cg] [o.dg]) h s = .go →
      exec (.sel h o) s = wrote (Issue.scalar [o.ag, o.bg, o.cg] [o.dg]) h s o.dg (if s.g o.cg = 0 then b else a))

/-- What issuing comes to when the word does not act: a word that the sequencer may not issue traps, one whose cycle has not come leaves
the state, one whose predicate is 0 goes on without effect, one that misses its place in a FIXED segment takes the schedule-miss fault
(R79, R86, R246, R248). Stated for ADD, whose checks are those of every word. -/
def Obligations.WordsThatDoNotAct : Prop :=
  ∀ (h : Header) (o : RegOps) (s : State),
    let p := Issue.scalar [o.ag, o.bg] [o.dg]
    (∀ i, gate p h s = .trap i → exec (.add h o) s = .next (if s.cur.slot = 0 then s.takeTrap i else s.trapCopy p h i)) ∧
    (p.who.contains s.cur.seq = true → h.rot = 1 → s.cur.seq ≠ .x → gate p h s = .trap (.bare .illegal)) ∧
    (gate p h s = .stay → exec (.add h o) s = .next s) ∧
    (gate p h s = .skip → ∃ t, exec (.add h o) s = .next t ∧ t.pc = s.pc + 16 ∧ (s.cur.slot = 0 → OnlyG s t [])) ∧
    (gate p h s = .miss → ∃ t, exec (.add h o) s = .next t ∧ t = (s.takeTrap (.bare .scheduleMiss)).mapMySeq (fun r =>
      { r with lastM := some true, lastIssue := some s.cycle }))

/-- An INTERLOCK word without tokens, predicate or rotation issues in a cycle after the last one as soon as every register that it names
may be used (R241, R243). -/
def Obligations.PlainWordsIssue : Prop :=
  ∀ (p : Issue) (s : State), p.who.contains s.cur.seq = true → p.absent = none → p.stamp = none → s.cur.slot = 0 → p.pops = [] → p.pushes = [] →
    s.mySeq.lastM ≠ some true → (∀ c, s.mySeq.lastIssue = some c → c < s.cycle) →
    (∀ n ∈ p.srcs ++ p.dsts, s.mySeq.usable s.cycle n = true) → gate p .plain s = .go

/-- What the end of a word leaves unchanged in slot 0, and the frame of the words that write a g-register (R28, R104 to R106): the end of
a word changes no g-register, no other sequencer or core and no byte of memory, and outside a round it goes on at the next word; a word
that writes v to DG leaves v there (and g0 at 0) and every other register, sequencer, core and byte of memory as before. -/
def Obligations.ScalarFrame : Prop :=
  ∀ (p : Issue) (h : Header) (s : State) (d : BitVec 6) (v n : Word) (taken : Bool), s.cur.slot = 0 →
    OnlyG s (s.retire p h n taken) [] ∧ (s.inRound p.once = false → (s.retire p h n taken).pc = n) ∧
    (let t := (s.setG d v).retire p h (s.pc + 16) false
     t.mySeq.getG 0 = 0 ∧ (d ≠ 0 → t.mySeq.getG d.toNat = v) ∧ OnlyG s t [d])

/-- J, B, LOOP, JR and BRQ go where R113 says, when a taken target is one that a transfer accepts. -/
def Obligations.TransferWords : Prop :=
  ∀ (h : Header) (o : JmpOps) (s : State),
    let target := s.pc + 16 * o.disp.signExtend 64
    let c := s.g o.dg
    (gate (Issue.scalar [] []) h s = .go → okTarget s target → exec (.j h o) s = jumped (Issue.scalar [] []) h s target) ∧
    (gate (Issue.scalar [o.ag, o.bg] []) h s = .go → okTarget s target →
      exec (.b h o) s = (if condHolds o.cond.toNat (s.g o.ag) (s.g o.bg) then jumped (Issue.scalar [o.ag, o.bg] []) h s target
        else went (Issue.scalar [o.ag, o.bg] []) h s (s.pc + 16))) ∧
    (gate (Issue.scalar [o.dg] [o.dg]) h s = .go → okTarget s target →
      exec (.loop h o) s = (if c = 0 then went (Issue.scalar [o.dg] [o.dg]) h s (s.pc + 16)
        else if c = 1 then went (Issue.scalar [o.dg] [o.dg]) h (s.setG o.dg (c - 1)) (s.pc + 16)
        else jumped (Issue.scalar [o.dg] [o.dg]) h (s.setG o.dg (c - 1)) target)) ∧
    (gate (Issue.scalar [o.ag] []) h s = .go → okTarget s (s.g o.ag) →
      exec (.jr h o) s = jumped (Issue.scalar [o.ag] []) h s (s.g o.ag)) ∧
    (∀ b, gate (Issue.scalar [] []) h s = .go → okTarget s target → s.cur.slot = 0 →
      s.me.outcomeHead s.cur.seq s.cycle = some b →
      let t := s.mapMe (fun k => { k.popOutcome s.cur.seq with round := { k.round with outcome := b } })
      exec (.brq h o) s = (if b = decide (o.cond.toNat = 1) then jumped (Issue.scalar [] []) h t target
        else went (Issue.scalar [] []) h t (s.pc + 16)))

/-- CALL and CALLR push the address of the next word onto the shadow stack and write it to DG; RET pops it and goes there when G(AG) holds
the same address (R28, R113). -/
def Obligations.CallWords : Prop :=
  ∀ (h : Header) (o : JmpOps) (s : State), s.cur.slot = 0 →
    let target := s.pc + 16 * o.disp.signExtend 64
    let pushed := (s.mapMySeq (fun r => { r with shadow := (s.pc + 16) :: r.shadow })).setG o.dg (s.pc + 16)
    (gate (Issue.scalar [] [o.dg]) h s = .go → okTarget s target → s.mySeq.shadow.length < 64 →
      exec (.call h o) s = jumped (Issue.scalar [] [o.dg]) h pushed target) ∧
    (gate (Issue.scalar [o.ag] [o.dg]) h s = .go → okTarget s (s.g o.ag) → s.mySeq.shadow.length < 64 →
      exec (.callr h o) s = jumped (Issue.scalar [o.ag] [o.dg]) h pushed (s.g o.ag)) ∧
    (∀ t rest, gate (Issue.scalar [o.ag] []) h s = .go → s.mySeq.shadow = t :: rest → t = s.g o.ag → okTarget s t →
      s.me.round.st ≠ .guessing →
      exec (.ret h o) s = jumped (Issue.scalar [o.ag] []) h (s.mapMySeq (fun r => { r with shadow := rest })) t)

/-- Transfers that do not happen. A target that is no multiple of 16, or in strict fetch of 64, raises the alignment trap before any other
effect: of JR, CALLR, RET and ERET from a register, of J, B, BRQ, CALL, LOOP, LOOPP and BRP from a displacement, when the transfer is
taken. A call with 64 entries held, and a return with none held or to another address than G(AG), raise the control-integrity trap (R28,
R74, R75, R113). -/
def Obligations.TransferTraps : Prop :=
  ∀ (h : Header) (o : JmpOps) (s : State), s.cur.slot = 0 →
    let p := Issue.scalar [o.ag] []
    let p0 := Issue.scalar [] []
    let pd := Issue.scalar [] [o.dg]
    let pr := Issue.scalar [o.ag] [o.dg]
    let pb := Issue.scalar [o.ag, o.bg] []
    let pl := Issue.scalar [o.dg] [o.dg]
    let plp := { Issue.scalar [o.ag] [o.dg] with noSpec := true }
    let pbrp := { Issue.scalar [o.dg] [o.dg] with noSpec := true }
    let target := s.pc + 16 * o.disp.signExtend 64
    let trapped (p : Issue) (i : FaultInfo) : Host.Outcome State Fault Refusal := .next (s.trapCopy p h i)
    let bad (t : Word) : FaultInfo := .virt .alignment t.toNat 3
    (¬okTarget s (s.g o.ag) →
      (gate p h s = .go → exec (.jr h o) s = trapped p (bad (s.g o.ag))) ∧
      (gate pr h s = .go → exec (.callr h o) s = trapped pr (bad (s.g o.ag)))) ∧
    (∀ t rest, gate p h s = .go → s.mySeq.shadow = t :: rest → ¬okTarget s t → exec (.ret h o) s = trapped p (bad t)) ∧
    (∀ i : ImmOps, gate p0 h s = .go → ¬okTarget s s.mySeq.epc → exec (.eret h i) s = trapped p0 (bad s.mySeq.epc)) ∧
    (¬okTarget s target →
      (gate p0 h s = .go → exec (.j h o) s = trapped p0 (bad target)) ∧
      (gate pb h s = .go → condHolds o.cond.toNat (s.g o.ag) (s.g o.bg) = true → exec (.b h o) s = trapped pb (bad target)) ∧
      (gate p0 h s = .go → s.me.outcomeHead s.cur.seq s.cycle = some (o.cond == 1) → exec (.brq h o) s = trapped p0 (bad target)) ∧
      (gate pd h s = .go → exec (.call h o) s = trapped pd (bad target)) ∧
      (gate pl h s = .go → s.g o.dg ≠ 0 → s.g o.dg ≠ 1 → exec (.loop h o) s = trapped pl (bad target)) ∧
      (gate plp h s = .go → s.g o.ag = 0 → exec (.loopp h o) s = trapped plp (bad target)) ∧
      (gate pbrp h s = .go →
        (s.g o.dg).toNat % 2 ^ 32 + 1 < (s.g o.dg).toNat / 2 ^ 32 + o.imm.toNat % 256 - 1 →
        exec (.brp h o) s = trapped pbrp (bad target))) ∧
    (64 ≤ s.mySeq.shadow.length →
      (gate pd h s = .go → okTarget s target → exec (.call h o) s = trapped pd (.bare .controlIntegrity)) ∧
      (gate pr h s = .go → okTarget s (s.g o.ag) → exec (.callr h o) s = trapped pr (.bare .controlIntegrity))) ∧
    (gate p h s = .go → s.mySeq.shadow = [] → exec (.ret h o) s = trapped p (.bare .controlIntegrity)) ∧
    (∀ t rest, gate p h s = .go → s.mySeq.shadow = t :: rest → okTarget s t → t ≠ s.g o.ag →
      exec (.ret h o) s = trapped p (.bare .controlIntegrity))

/-- LOOPP and BRP keep the trip count T in DG[63:32] and the pass number p in DG[31:0], compute the stage predicates afresh, and BRP
lowers RRB by Q on X-seq (R155). -/
def Obligations.PipelinedLoopWords : Prop :=
  ∀ (h : Header) (o : JmpOps) (s : State), s.cur.slot = 0 →
    let target := s.pc + 16 * o.disp.signExtend 64
    okTarget s target →
    (gate { Issue.scalar [o.ag] [o.dg] with noSpec := true } h s = .go →
      let t := s.g o.ag
      let i := { Issue.scalar [o.ag] [o.dg] with noSpec := true }
      (t = 0 → exec (.loopp h o) s = jumped i h ((s.setG o.dg 0).mapMySeq (fun r => { r with sg := 0 })) target) ∧
      (t ≠ 0 → t.toNat ≤ 2 ^ 32 - 16 →
        exec (.loopp h o) s = went i h ((s.setG o.dg (t <<< 32)).mapMySeq (fun r => { r with sg := 1 })) (s.pc + 16)) ∧
      (2 ^ 32 - 16 < t.toNat → exec (.loopp h o) s = .next (s.trapCopy i h (.bare .illegalOperand)))) ∧
    (gate { Issue.scalar [o.dg] [o.dg] with noSpec := true } h s = .go →
      let i := { Issue.scalar [o.dg] [o.dg] with noSpec := true }
      let t := (s.g o.dg).toNat / 2 ^ 32
      let p := (s.g o.dg).toNat % 2 ^ 32 + 1
      let st := o.imm.toNat % 256
      let q := o.imm.toNat / 256 % 256
      ∃ v : State,
        v = (if s.cur.seq = .x then s.mapMe (fun k => { k with rrb := BitVec.ofNat 9 (k.rrb.toNat + 512 - q) }) else s).setG o.dg
          (BitVec.ofNat 64 (t * 2 ^ 32 + p)) ∧
        (p < t + st - 1 → ∃ sg : BitVec 16,
          (∀ j, j < 16 → (sg.getLsbD j = true ↔ j < st ∧ j ≤ p ∧ p - j < t)) ∧
          exec (.brp h o) s = jumped i h (v.mapMySeq (fun r => { r with sg := sg })) target) ∧
        (t + st - 1 ≤ p → exec (.brp h o) s = went i h (v.mapMySeq (fun r => { r with sg := 0 })) (s.pc + 16)))

/-- CSRR, CSRW and CSRX complete for every register and access of the map: CSRR of each of its 23 numbers writes the register's value to
DG, CSRW of a register that it gives the sequencer writes G(AG), CSRX does both; any other number, access or value is an illegal
instruction (R44, R127). What the registers of the map hold and what a write of one leaves: the read of a register that was written gives
the written bits that the register has, and in FFLAGS and AOVF the flags that the same cycle raised stay set (R44 to R46). Parts of it are
the model's choice: log 44 and 110. -/
def Obligations.CsrWords : Prop :=
  (∀ (h : Header) (o : ImmOps) (s : State), s.cur.slot = 0 →
     let n := o.imm.toNat
     let x := s.g o.ag
     let pr := Issue.scalar [] [o.dg]
     let pw : Issue := { Issue.scalar [o.ag] [] with noSpec := true }
     let px : Issue := { Issue.scalar [o.ag] [o.dg] with noSpec := true }
     let readable : List Nat := [0x000, 0x001, 0x002, 0x008, 0x009, 0x00A, 0x010, 0x011, 0x012, 0x018, 0x019, 0x01A, 0x01B, 0x020, 0x028,
       0x029, 0x030, 0x031, 0x032, 0x038, 0x040, 0x041, 0x042]
     let writable : Prop := n ∈ [0x00A, 0x010, 0x011, 0x012, 0x01B, 0x030, 0x031, 0x032] ∨ (n = 0x009 ∧ s.cur.seq = .x) ∨
       (n = 0x008 ∧ x.toNat / 16 % 16 ≠ 0 ∧ x.toNat % 8 < 4)
     (gate pr h s = .go →
       (n ∈ readable → ∃ v, s.csr n = some v ∧ exec (.csrr h o) s = wrote pr h s o.dg v) ∧
       (n ∉ readable → exec (.csrr h o) s = .next (s.trapCopy pr h (.bare .illegal)))) ∧
     (gate pw h s = .go →
       (writable → ∃ t, s.writeCsr n x = some t ∧ exec (.csrw h o) s = went pw h t (s.pc + 16)) ∧
       (¬writable → exec (.csrw h o) s = .next (s.trapCopy pw h (.bare .illegal)))) ∧
     (gate px h s = .go →
       (writable → ∃ v t, s.csr n = some v ∧ s.writeCsr n x = some t ∧ exec (.csrx h o) s = went px h (t.setG o.dg v) (s.pc + 16)) ∧
       (¬writable → exec (.csrx h o) s = .next (s.trapCopy px h (.bare .illegal))))) ∧
  (∀ (s : State) (x : Word),
     let now : Prop := s.me.raisedAt = s.cycle
     s.csr 0x001 = some (BitVec.ofNat 64 s.cur.core) ∧ s.csr 0x002 = some (BitVec.ofNat 64 s.cur.seq.num) ∧
     s.csr 0x003 = none ∧ s.writeCsr 0x000 x = none ∧ s.writeCsr 0x001 x = none ∧
     (∃ t, s.writeCsr 0x010 x = some t ∧ (¬now → t.csr 0x010 = some (x &&& 31)) ∧
       (now → t.csr 0x010 = some ((x &&& 31) ||| s.me.raisedFlags.setWidth 64))) ∧
     (∃ t, s.writeCsr 0x011 x = some t ∧ t.csr 0x011 = some (x &&& 3)) ∧
     (∃ t, s.writeCsr 0x012 x = some t ∧ (¬now → t.csr 0x012 = some (x &&& 1)) ∧ (now → s.me.raisedAovf = true → t.csr 0x012 = some 1)) ∧
     (∃ t, s.writeCsr 0x01B x = some t ∧ (¬now → t.csr 0x01B = some x)) ∧
     (∃ t, s.writeCsr 0x00A x = some t ∧ t.csr 0x00A = some (x &&& 0xFFFF)) ∧
     (∃ t, s.writeCsr 0x030 x = some t ∧ t.csr 0x030 = some (x &&& ~~~15)) ∧
     (∃ t, s.writeCsr 0x031 x = some t ∧ t.csr 0x031 = some x) ∧
     (∃ t, s.writeCsr 0x032 x = some t ∧ t.csr 0x032 = some (x &&& 0xFFFF03FF)) ∧
     (s.cur.seq = .x → ∃ t, s.writeCsr 0x009 x = some t ∧ t.csr 0x009 = some (x &&& 511)) ∧
     (s.cur.seq ≠ .x → s.writeCsr 0x009 x = none) ∧
     (x.toNat / 16 % 16 ≠ 0 → x.toNat % 8 < 4 → ∃ t, s.writeCsr 0x008 x = some t ∧ t.csr 0x008 = some (x &&& 0xF7)) ∧
     (x.toNat / 16 % 16 = 0 ∨ 4 ≤ x.toNat % 8 → s.writeCsr 0x008 x = none))

/-- TRAP takes the software trap with IMM[15:0]; ERET goes to EPC and ends the handler; HALT stops the sequencer once every earlier word
has retired; NOP does nothing; YIELD marks the tile on C-seq when another queue outranks it (R128, R129). -/
def Obligations.SystemWords : Prop :=
  ∀ (h : Header) (o : ImmOps) (s : State), s.cur.slot = 0 →
    let p := Issue.scalar [] []
    let ph : Issue := { Issue.scalar [] [] with noSpec := true, patient := true }
    (gate p h s = .go →
      exec (.trap h o) s = .next (s.trapCopy p h ⟨.software, { FaultAt.none with info := o.imm.toNat % 65536 }⟩)) ∧
    (gate p h s = .go → okTarget s s.mySeq.epc →
      exec (.eret h o) s = jumped p h (s.mapMe (fun k => (s.mySeq.resumes.foldl (fun k p => k.resume p) k).mapSeq s.cur.seq (fun r =>
        { r with inHandler := false, recovery := r.recovery - 1, resumes := [] }))) s.mySeq.epc) ∧
    (gate ph h s = .go → s.allRetired = true →
      exec (.halt h o) s = went ph h (s.mapMySeq (fun r => { r with halted := true })) s.pc) ∧
    (gate p h s = .go → exec (.nop h o) s = went p h s (s.pc + 16)) ∧
    (gate p h s = .go → s.cur.seq ≠ .c → exec (.yield h o) s = went p h s (s.pc + 16)) ∧
    (∀ t, gate p h s = .go → s.cur.seq = .c → s.me.tile = some t →
      (s.outranked t = false → exec (.yield h o) s = went p h s (s.pc + 16)) ∧
      (s.outranked t = true → exec (.yield h o) s =
        went p h (s.mapMe (fun k => { k with tile := some { t with yielded := true, yieldedFor := s.dispatchableQueues t } })) (s.pc + 16)))

/-- Taking a trap of a cause that the fault log does not record: EPC holds the trapping word's PC, ECAUSE the cause, the PC is TVEC and
the sequencer is in its handler; with TVEC = 0 the tile ends by fault (R94, R363, R370). -/
def Obligations.TrapEntry : Prop :=
  ∀ (s : State) (i : FaultInfo), i.cause.recorded = false →
    (s.mySeq.tvec = 0 → ((s.takeTrap i).me.tile = s.me.tile.map (fun t => { t with dead := true }) ∧
      (s.takeTrap i).mySeq = s.mySeq)) ∧
    (s.mySeq.tvec ≠ 0 → s.strict s.cur.core = false → s.mgmt.sfctl.getLsbD 2 = false →
      let t := s.takeTrap i
      t.mySeq.epc = s.pc ∧ t.mySeq.ecause = ecauseOf i.cause false i.loc.info false ∧ t.mySeq.pc = s.mySeq.tvec ∧
      t.mySeq.inHandler = true ∧ t.mySeq.tvec = s.mySeq.tvec ∧ t.mySeq.g = s.mySeq.g ∧ t.mySeq.shadow = s.mySeq.shadow ∧
      t.mySeq.sg = s.mySeq.sg ∧ (∀ c, c ≠ s.cur.core → t.core c = s.core c) ∧ t.hbm = s.hbm ∧ t.l2 = s.l2 ∧ t.chron = s.chron)

/-- The mask words of X-seq: MSAVE and MREST copy a mask, MAND, MOR, MXOR and MNOT combine masks bit by bit, MSET sets the first
min(G(CG), 1,024) bits, and MCNT counts one bits (R126), when no compare that writes CM is under way and the latency of the last has
passed (R134, R242). -/
def Obligations.MaskWords : Prop :=
  ∀ (h : Header) (o : RegOps) (s : State), s.me.cmAwaited s.cycle = false →
    let m (x : BitVec 6) : Mask := s.maskReg x.toNat
    let p : Issue := { Issue.scalar [] [] with who := [.x] }
    let ps : Issue := { Issue.scalar [o.cg] [] with who := [.x] }
    let pc : Issue := { Issue.scalar [] [o.cg] with who := [.x], lat := 2 }
    let sets (x : Mask) : Host.Outcome State Fault Refusal := went p h (s.setMaskReg o.dg.toNat x) (s.pc + 16)
    (gate p h s = .go →
      exec (.msave h o) s = sets (m o.ag) ∧
      exec (.mrest h o) s = sets (m o.ag) ∧
      exec (.mand h o) s = sets (m o.ag &&& m o.bg) ∧
      exec (.mor h o) s = sets (m o.ag ||| m o.bg) ∧
      exec (.mxor h o) s = sets (m o.ag ^^^ m o.bg) ∧
      exec (.mnot h o) s = sets (~~~(m o.ag))) ∧
    (gate ps h s = .go → ∃ x : Mask, (∀ i, x.getLsbD i = (decide (i < 1024) && decide (i < (s.g o.cg).toNat))) ∧
      exec (.mset h o) s = went ps h (s.setMaskReg o.dg.toNat x) (s.pc + 16)) ∧
    (gate pc h s = .go → exec (.mcnt h o) s =
      wrote pc h s o.cg (BitVec.ofNat 64 ((List.range 1024).filter (fun i => (m o.ag).getLsbD i)).length))

/-! ### Scalar memory and synchronisation (chapter 5) -/

/-- LD, LDA, LDX: a load whose checks pass and whose bytes no held range and no unacknowledged write overlaps enters the load queue with
its address, width, scope and acquire mark, and its register is awaited; a load of the register window that the firmware reaches reads the
register; a misaligned address traps with nothing queued. -/
def Obligations.LoadWords : Prop :=
  ∀ (h : Header) (o : MemOps) (s : State), s.cBusy = false →
    let p (lat : Nat) : Issue := { Issue.scalar [o.ag] [o.dg] with who := [.c, .l], lat := lat }
    let n := 2 ^ o.sz.toNat
    let ea := s.g o.ag + o.off.signExtend 64
    let lat := if s.cur.seq = .l then 5 else 1
    let sg := o.sgn == 1
    (∀ pas, gate (p 1) h s = .go → s.reach .read (scopeOf o.sco) ea n = .pas pas → pas.findSome? (fun pa => s.homeFault pa) = none →
      s.rangeWait .virt ea.toNat n false = false → (pas.any s.isRemote && s.me.postedOverlap pas) = false →
      let due := if s.cur.seq = .l ∧ s.me.cached pas = true then some (s.cycle + 4) else none
      let a (acquire : Bool) : Access :=
        { s.access (.load o.dg.toNat sg) .virt ea.toNat n (scopeOf o.sco) acquire false due with phys := [(pas.headD 0, n)] }
      (exec (.ld h o) s = went (p lat) h (s.queueLoad (a false) (some o.dg.toNat)) (s.pc + 16) ∧
        exec (.lda h o) s = went (p lat) h (s.queueLoad (a true) (some o.dg.toNat)) (s.pc + 16))) ∧
    (∀ pas i, gate (p 1) h s = .go → s.reach .read (scopeOf o.sco) ea n = .pas pas → pas.findSome? (fun pa => s.homeFault pa) = some i →
      exec (.ld h o) s = .next (s.trapCopy (p lat) h i) ∧ exec (.lda h o) s = .next (s.trapCopy (p lat) h i)) ∧
    (∀ off, gate (p 1) h s = .go → s.reach .read (scopeOf o.sco) ea n = .register off →
      exec (.ld h o) s = wrote (p lat) h s o.dg (s.readRegister off) ∧ exec (.lda h o) s = wrote (p lat) h s o.dg (s.readRegister off)) ∧
    (gate (p 1) h s = .go → ea.toNat % n ≠ 0 →
      exec (.ld h o) s = .next (s.trapCopy (p lat) h (.virt .alignment ea.toNat 3)) ∧
      exec (.lda h o) s = .next (s.trapCopy (p lat) h (.virt .alignment ea.toNat 3)) ∧
      exec (.ldx h o) s = .next (s.trapCopy (p 4) h (.spad .alignment ea.toNat 3))) ∧
    (gate (p 1) h s = .go → ea.toNat % n = 0 → s.me.inSpad ea.toNat n = true → s.rangeWait .spad ea.toNat n false = false →
      exec (.ldx h o) s = went (p 4) h
        (s.queueLoad (s.access (.load o.dg.toNat sg) .spad ea.toNat n .core false false (some (s.cycle + 3))) (some o.dg.toNat))
        (s.pc + 16))

/-- ST, STL, STX: a store of slot 0 whose checks pass enters the store queue with the low bytes of G(BG), one of a higher slot its slot's
buffer, and no memory byte changes until it is performed (a write of the register window that the firmware reaches acts at once); a
misaligned address traps with nothing queued. -/
def Obligations.StoreWords : Prop :=
  ∀ (h : Header) (o : MemOps) (s : State), s.cBusy = false →
    let p : Issue := { Issue.scalar [o.ag, o.bg] [] with who := [.c, .s] }
    let n := 2 ^ o.sz.toNat
    let ea := s.g o.ag + o.off.signExtend 64
    let data := natBytes n (s.g o.bg).toNat
    (∀ pas, gate p h s = .go → s.reach .write (scopeOf o.sco) ea n = .pas pas → s.rangeWait .virt ea.toNat n true = false →
      let a (release : Bool) : Access :=
        { s.access (.store data) .virt ea.toNat n (scopeOf o.sco) false release none with phys := [(pas.headD 0, n)] }
      (s.cur.slot = 0 → pas.any s.isRemote = false →
        exec (.st h o) s = went p h (s.queueStore (a false)) (s.pc + 16) ∧ exec (.stl h o) s = went p h (s.queueStore (a true)) (s.pc + 16)) ∧
      (s.cur.slot = 0 → pas.any s.isRemote = true → s.me.postedOverlap pas = false → s.me.postedRoom 1 = true →
        let t := s.mapMe (fun k => k.addPosted s.nextId (pas.headD 0) data 8 s.cur.seq s.pc none false)
        exec (.st h o) s = went p h (t.queueStore (a false)) (s.pc + 16) ∧ exec (.stl h o) s = went p h (t.queueStore (a true)) (s.pc + 16)) ∧
      (s.cur.slot ≠ 0 → exec (.st h o) s = went p h (s.slotStore .virt ea.toNat data) (s.pc + 16) ∧
        exec (.stl h o) s = went p h (s.slotStore .virt ea.toNat data) (s.pc + 16))) ∧
    (∀ off, gate p h s = .go → s.reach .write (scopeOf o.sco) ea n = .register off →
      exec (.st h o) s = went p h (s.writeRegister off (s.g o.bg)) (s.pc + 16) ∧
      exec (.stl h o) s = went p h (s.writeRegister off (s.g o.bg)) (s.pc + 16)) ∧
    (gate p h s = .go → ea.toNat % n = 0 → s.me.inSpad ea.toNat n = true → s.rangeWait .spad ea.toNat n true = false →
      (s.cur.slot = 0 → exec (.stx h o) s =
        went p h (s.queueStore (s.access (.store data) .spad ea.toNat n .core false false none)) (s.pc + 16)) ∧
      (s.cur.slot ≠ 0 → exec (.stx h o) s = went p h (s.slotStore .spad ea.toNat data) (s.pc + 16))) ∧
    (gate p h s = .go → ea.toNat % n ≠ 0 →
      exec (.st h o) s = .next (s.trapCopy p h (.virt .alignment ea.toNat 3)) ∧
      exec (.stl h o) s = .next (s.trapCopy p h (.virt .alignment ea.toNat 3)) ∧
      exec (.stx h o) s = .next (s.trapCopy p h (.spad .alignment ea.toNat 3)))

/-- LOAD_ANSWER of a scratchpad load of slot 0: the register receives the bytes, the lowest address least significant, zero- or
sign-extended, and no byte of memory and no other register changes (R2, R108, R242). STORE_PERFORMED of a scratchpad store: its bytes
stand at its address and every other byte of every memory is as before; a number that no queue holds changes nothing (R264, R269). Parts
of it are the model's choice: log 1, 35, 80 and 81. -/
def Obligations.AccessesPerformed : Prop :=
  (∀ (core id reg : Nat) (signed : Bool) (a : Access) (s : State), core < 512 → reg ≠ 0 →
     (s.core core).loads.find? (fun b => b.id == id) = some a → s.performable core (s.core core).loads a = true → a.phys = [] →
     a.space = .spad → a.slot = 0 → a.acquire = false → a.kind = .load reg signed →
     (s.core core).markScope a = .core → (∀ r ∈ (s.core core).reads, r.owner ≠ id) →
     let x := bytesNat ((s.core core).spad.readBytes a.addr a.bytes)
     ∃ t, exec (.loadAnswer core id) s = .next t ∧
       ((t.core core).seq a.seq).getG reg = (if signed then BitVec.ofInt 64 (sext (8 * a.bytes) x) else BitVec.ofNat 64 x) ∧
       (∀ n, n ≠ reg → ((t.core core).seq a.seq).getG n = ((s.core core).seq a.seq).getG n) ∧
       (∀ q, q ≠ a.seq → (t.core core).seq q = (s.core core).seq q) ∧
       (∀ c, c ≠ core → t.core c = s.core c) ∧ SameMemory s t ∧ SameDevice s t ∧
       (t.core core).loads = (s.core core).loads.filter (fun b => b.id != id)) ∧
  (∀ (core id : Nat) (s : State), core < 512 →
     (((s.core core).stores.find? (fun b => b.id == id)) = none → exec (.storePerformed core id) s = .next s) ∧
     (∀ a data, (s.core core).stores.find? (fun b => b.id == id) = some a →
       s.performable core (s.core core).stores a = true → a.space = .spad → a.release = false → a.kind = .store data →
       ∃ t, exec (.storePerformed core id) s = .next t ∧
         (t.core core).spad = (s.core core).spad.writeBytes a.addr data ∧
         (∀ x, (x < a.addr ∨ a.addr + data.length ≤ x) → (t.core core).spad.read x = (s.core core).spad.read x) ∧
         (∀ c, c ≠ core → t.core c = s.core c) ∧ (t.core core).l1 = (s.core core).l1 ∧ t.hbm = s.hbm ∧ t.l2 = s.l2 ∧
         t.outside = s.outside ∧ SameDevice s t ∧ SameRegisters (s.core core) (t.core core) ∧
         (∀ q, (t.core core).seq q = (s.core core).seq q)) ∧
     (∀ a data, (s.core core).stores.find? (fun b => b.id == id) = some a →
       s.performable core (s.core core).stores a = true → a.space = .virt → a.release = false → a.kind = .store data →
  a.scope ≠ .core → s.l2.length + data.length + s.retiredWays.length < sliceLines →
       (∀ i, i < data.length → (s.tlbFind core (s.core core).asid ((a.addr + i) % 2 ^ 64)).isSome = true) →
       ∃ t, exec (.storePerformed core id) s = .next t ∧
         (∀ x, (∀ i pa, i < data.length → s.resolve core (s.core core).asid ((a.addr + i) % 2 ^ 64) .write = some pa →
             s.place x ≠ s.place pa) → ∀ sys, t.physRead sys x = s.physRead sys x) ∧
         (∀ c x, (t.core c).spad.read x = (s.core c).spad.read x) ∧ (∀ c, c ≠ core → t.core c = s.core c) ∧ SameDevice s t ∧
         SameRegisters (s.core core) (t.core core) ∧ (∀ q, (t.core core).seq q = (s.core core).seq q)))

/-- AMO and CAS read and write their location in one step: DG receives the old bytes and the location the new value of the rule's table; a
failing CAS writes nothing (R110). The new value of each AMO operation on n-byte patterns, cut to n bytes (R110). -/
def Obligations.AtomicWords : Prop :=
  (∀ (h : Header) (o : MemOps) (s : State) (pas : List Nat), s.cBusy = false → s.cur.slot = 0 →
     let n := 2 ^ o.sz.toNat
     let ea := s.g o.ag + o.off.signExtend 64
     let scope := scopeOf o.sco
     s.reach .both (scopeOf o.sco) ea n = .pas pas → pas.findSome? (fun pa => s.homeFault pa) = none → pas.findSome? (fun pa => s.answerFault pa) = none →
     s.rangeWait .virt ea.toNat n true = false → (pas.any s.isRemote && s.me.postedOverlap pas) = false →
     ((o.ord == 2 || o.ord == 3) && scope != .core && !(s.me.postedBefore .c).isEmpty) = false →
     let i (srcs : List (BitVec 6)) : Issue := { Issue.scalar srcs [o.dg] with who := [.c], noSpec := true }
     let ext (old : Nat) : Word := if o.sgn = 1 then BitVec.ofInt 64 (sext (8 * n) old) else BitVec.ofNat 64 old
     let b := (s.g o.bg).toNat % 2 ^ (8 * n)
     (gate (i [o.ag, o.bg]) h s = .go →
       let r := s.rmw scope o.ord.toNat pas (fun old => some (amoValue o.aop.toNat n old b))
       exec (.amo h o) s = went (i [o.ag, o.bg]) h (r.1.setG o.dg (ext r.2)) (s.pc + 16)) ∧
     (gate (i [o.ag, o.bg, o.cg]) h s = .go →
       let r := s.rmw scope o.ord.toNat pas (fun old => if old = b then some ((s.g o.cg).toNat % 2 ^ (8 * n)) else none)
       exec (.cas h o) s = went (i [o.ag, o.bg, o.cg]) h (r.1.setG o.dg (ext r.2)) (s.pc + 16))) ∧
  (∀ (n old b : Nat), 0 < n → old < 2 ^ (8 * n) → b < 2 ^ (8 * n) →
     amoValue 0 n old b = b ∧ amoValue 1 n old b = (old + b) % 2 ^ (8 * n) ∧ amoValue 2 n old b = old &&& b ∧
     amoValue 3 n old b = old ||| b ∧ amoValue 4 n old b = old ^^^ b ∧
     sext (8 * n) (amoValue 5 n old b) = Min.min (sext (8 * n) old) (sext (8 * n) b) ∧
     sext (8 * n) (amoValue 6 n old b) = Max.max (sext (8 * n) old) (sext (8 * n) b) ∧
     amoValue 7 n old b = Min.min old b ∧ amoValue 8 n old b = Max.max old b)

/-- FENCE with nothing to wait for acts on the caches at once; otherwise it stands in the store queue behind the accesses of the queues
that it orders, and later accesses follow it. MARK counts, once for all copies of a round's word, and retires without waiting (R111, R112,
R130). Parts of it are the model's choice: log 80. -/
def Obligations.FenceWords : Prop :=
  ∀ (h : Header) (o : MemOps) (s : State),
    let p := Issue.scalar [] []
    let pm : Issue := { Issue.scalar [] [] with who := [.l, .s] }
    let before := if o.ord.toNat = 1 then s.me.queuedLoads s.cur.seq else s.me.queuedAccesses s.cur.seq
    let system := scopeOf o.sco != .core && o.ord.toNat != 1 && !(s.me.postedBefore s.cur.seq).isEmpty
    (gate p h s = .go → before = [] → system = false →
      exec (.fence h o) s = went p h (s.fenceCaches s.cur.core o.ord.toNat (scopeOf o.sco)) (s.pc + 16)) ∧
    (gate p h s = .go → before ≠ [] ∨ system = true →
      let a := { s.access (.fence o.ord.toNat) .virt 0 0 (scopeOf o.sco) false false none with after := before }
      exec (.fence h o) s = went p h ((s.queueStore a).mapMySeq (fun r => { r with
        loadAfter := if o.ord.toNat = 2 then r.loadAfter else r.loadAfter ++ [a.id]
        storeAfter := r.storeAfter ++ [a.id] })) (s.pc + 16)) ∧
    (gate pm h s = .go →
      exec (.mark h o) s = went pm h (if s.cur.slot = 0 then s.mapMySeq (fun r => { r with marks := r.marks ++ [(scopeOf o.sco, s.nextId)] })
        else s) (s.pc + 16))

/-- The steps of the memory below the sequencers: an evicted line is written back under its dirty mask and dropped (R39, R261); a page
walk that finds a leaf fills the TLBs and one that does not leaves the failure for the waiting word (R325); TIGO starts an invalidation of
a multiple of 64 KiB, and when no access uses the range its entries leave every TLB and the first-level caches' dirty bytes are written
back (R325). Parts of it are the model's choice: log 20, 21 and 107. -/
def Obligations.TranslationSteps : Prop :=
  ∀ (s : State),
    (∀ core line l, core < 512 → (s.core core).l1[line]? = some l →
      exec (.l1Eviction core line) s = .next ((s.writeBack l).mapCore core (fun k => { k with
        l1 := k.l1.filter (fun m => !(m.granule == l.granule && m.way == l.way && m.set == l.set)) }))) ∧
    (∀ walk w e, s.walks = [w] → w.id = walk → w.running = true → s.walk w.asid w.va = some e →
      exec (.pageWalkComplete walk) s = .next ({ s with walks := [] }.tlbFill w.core e)) ∧
    (∀ walk w, s.walks = [w] → w.id = walk → w.running = true → s.walk w.asid w.va = none →
      exec (.pageWalkComplete walk) s = .next ({ s with walks := [] }.mapCore w.core (fun k =>
        { k with walkFaults := (w.asid, w.va / 65536, { s with walks := [] }.walkLost w.asid w.va) :: k.walkFaults }))) ∧
    (∀ bytes, bytes % 65536 = 0 → s.tigo = none →
      exec (.tigoInvalidate bytes) s = .next { s with tigo := some (s.tiasid.toNat, s.tiva.toNat, bytes) }) ∧
    (∀ asid va n, s.tigo = some (asid, va, n) → s.usesRange asid va n = false →
      ∃ t, exec .tlbInvalidateComplete s = .next t ∧ t.tigo = none ∧
        ((∀ c l, l ∈ (s.core c).l1 → l.dirty = 0) → t.hbm = s.hbm ∧ t.l2 = s.l2) ∧
        (∀ c e, e ∈ (t.core c).tlb → e.inRange asid va n = false) ∧ (∀ c l, l ∈ (t.core c).l1 → l.dirty = 0))

/-- TKSIG and TKWAIT to a peer pass the checks of issue with the tokens that they name and go on; to the issuer they are illegal; BOQPUSH
pushes the outcome of its condition into its owner's queue (R114, R115). -/
def Obligations.TokenWords : Prop :=
  ∀ (h : Header) (o : MemOps) (s : State), s.cur.slot = 0 →
    let peer := seqOfNat (o.off.toNat % 4)
    let n := o.off.toNat / 4 % 16
    let p (a b : List (SeqId × Nat)) : Issue := { Issue.scalar [] [] with pushes := a, pops := b }
    let owner := o.off.toNat % 4
    (peer = s.cur.seq → exec (.tksig h o) s = .next (s.takeTrap (.bare .illegal)) ∧
      exec (.tkwait h o) s = .next (s.takeTrap (.bare .illegal))) ∧
    (peer ≠ s.cur.seq → gate (p [(peer, n)] []) h s = .go → exec (.tksig h o) s = went (p [(peer, n)] []) h s (s.pc + 16)) ∧
    (peer ≠ s.cur.seq → gate (p [] [(peer, n)]) h s = .go → exec (.tkwait h o) s = went (p [] [(peer, n)]) h s (s.pc + 16)) ∧
    (gate (Issue.scalar [o.ag, o.bg] []) h s = .go → s.me.outcomeRoom owner (if s.cur.seq = .s ∧ s.me.comparePushes s.cycle owner = true then 2 else 1) = true →
      s.me.older s.cur.seq (8 + owner) s.cycle = false →
      exec (.boqpush h o) s = went (Issue.scalar [o.ag, o.bg] []) h
        (s.mapMe (fun k => k.pushOutcome owner ⟨s.cycle + 1, condHolds (o.off.toNat / 16) (s.g o.ag) (s.g o.bg),
          k.openAccesses s.cur.seq ++ k.postedBefore s.cur.seq, s.cycle, s.cur.seq⟩)) (s.pc + 16))

/-- BARV sets the core's arrival bit and reads GEN; when the last member arrives GEN rises and the arrivals empty. BWAIT goes on once GEN
has passed G(AG) (R116, R117). A Meridian group whose members have all arrived completes its generation: GEN rises by 1 modulo 2^32, the
arrivals empty and a held membership takes its place; otherwise nothing changes (R116). -/
def Obligations.MeridianWords : Prop :=
  (∀ (h : Header) (o : MemOps) (s : State), s.cur.slot = 0 → s.cBusy = false →
     let c := s.cur.core
     let n := 32 * dieOf c + o.off.toNat
     let g := s.group n
     let pv : Issue := { Issue.scalar [] [o.dg] with who := [.c], noSpec := true }
     let pw : Issue := { Issue.scalar [o.ag] [] with who := [.c], noSpec := true }
     let level := s.me.level s.cycle
     (gate pv h s = .go → s.groupFault g = none → s.levelDiffers g = false → g.arrived.getLsbD (c % 128) = false →
       exec (.barv h o) s = went pv h (((s.releaseCaches c (levelScope level)).setG o.dg (BitVec.ofNat 64 g.gen.toNat)).setGroup n
         ({ g with arrived := setBit g.arrived (c % 128) true }.settle (s.fencedMask (dieOf c)))) (s.pc + 16)) ∧
     (gate pw h s = .go → s.groupFault g = none → 1 ≤ (g.gen - BitVec.ofNat 32 (s.g o.ag).toNat).toNat →
       (g.gen - BitVec.ofNat 32 (s.g o.ag).toNat).toNat < 2 ^ 31 →
       exec (.bwait h o) s = went pw h (s.acquireCaches c (levelScope level)) (s.pc + 16)) ∧
     (∀ cause, gate pv h s = .go → s.groupFault g = some cause → exec (.barv h o) s = .next (s.trapCopy pv h (.bare cause))) ∧
     (gate pv h s = .go → s.groupFault g = none → s.levelDiffers g = true → exec (.barv h o) s = .next (s.trapCopy pv h (.bare .barrier)))) ∧
  (∀ (g : Group) (f : BitVec 128),
     (g.arrived ≠ 0 → (∀ i, g.mask.getLsbD i = true → (g.arrived ||| g.ended ||| f).getLsbD i = true) →
       (g.settle f).gen = g.gen + 1 ∧ (g.settle f).arrived = 0 ∧ (g.settle f).held = none ∧
       (g.settle f).mask = g.held.getD g.mask) ∧
     (g.arrived = 0 ∨ (∃ i, g.mask.getLsbD i = true ∧ (g.arrived ||| g.ended ||| f).getLsbD i = false) → g.settle f = g))

/-- TBINIT writes a fresh barrier of G(BG) arrivals in one step; a misaligned address, one past the scratchpad's end and a count outside 1
to 2,047 fault, checked in that order (R119). TBARV arrives with its bytes and reads the phase, TBWAIT goes on when the phase differs from
G(BG)[0] (R118, R120, R121). -/
def Obligations.TransactionBarrierWords : Prop :=
  ∀ (h : Header) (o : MemOps) (s : State), s.cur.slot = 0 → s.cBusy = false →
    let ea := (s.g o.ag + o.off.signExtend 64).toNat
    let pi : Issue := { Issue.scalar [o.ag, o.bg] [] with who := [.c], noSpec := true }
    let pa : Issue := { Issue.scalar [o.ag, o.bg, o.cg] [o.dg] with who := [.c], noSpec := true }
    let target := (s.g o.bg).toNat
    (Instr.tbinit h o).parts = some (0x88, 0x05, h, .mem o) ∧
    (gate pi h s = .go → ea % 8 ≠ 0 → exec (.tbinit h o) s = .next (s.trapCopy pi h (.spad .alignment ea 3))) ∧
    (gate pi h s = .go → ea % 8 = 0 → ¬ea + 8 ≤ s.me.spadBytes →
      exec (.tbinit h o) s = .next (s.trapCopy pi h (.spad .scratchRange ea 3))) ∧
    (gate pi h s = .go → s.me.barrierFault ea = none → target = 0 ∨ 2047 < target →
      exec (.tbinit h o) s = .next (s.trapCopy pi h (.bare .illegalOperand))) ∧
    (gate pi h s = .go → s.me.barrierFault ea = none → 1 ≤ target → target ≤ 2047 → s.me.held s.cycle .spad ea 8 true = false →
      exec (.tbinit h o) s = went pi h (s.mapMe (fun k => k.setBarrier ea ⟨target, 0, 0, 0⟩)) (s.pc + 16)) ∧
    (∀ b, gate pa h s = .go → target < 512 → clusterOf target = clusterOf s.cur.core → s.coreFenced target = false →
      (s.core target).barrierFault ea = none → ((s.core target).barrier ea).arrive (s.g o.cg).toNat = some b →
      exec (.tbarv h o) s = went pa h (((s.releaseCaches s.cur.core .cluster).mapCore target (fun k => k.setBarrier ea b)).setG o.dg
        (BitVec.ofNat 64 ((s.core target).barrier ea).ph)) (s.pc + 16)) ∧
    (gate pi h s = .go → s.me.barrierFault ea = none → (s.me.barrier ea).ph ≠ (s.g o.bg).toNat % 2 →
      exec (.tbwait h o) s = went pi h ((s.acquireCaches s.cur.core .cluster).mapMe (fun k => k.inherit .c k.doneWrites)) (s.pc + 16))

/-- LEEWAY raises the core's count once and goes on when its lead over the neighbours is within LEAD; a count update shows every cluster
the least count of each launch that the cluster's cores hold tiles of (R122, R257). -/
def Obligations.LeewaySteps : Prop :=
  ∀ (h : Header) (o : MemOps) (s : State),
    let p : Issue := { Issue.scalar [] [o.dg] with who := [.c], noSpec := true }
    let n := if s.me.leewayWait then s.me.phase else s.me.phase + 1
    let raised (wait : Bool) : State := (s.mapMe (fun k => { k with phase := n, leewayWait := wait })).noteCount (clusterOf s.cur.core)
    (s.cur.slot = 0 → gate p h s = .go → s.leewayOpen s.cur.core n.toNat = true →
      exec (.leeway h o) s = wrote p h (raised false) o.dg n) ∧
    (s.cur.slot = 0 → h.m = 0 → gate p h s = .go → s.leewayOpen s.cur.core n.toNat = false →
      exec (.leeway h o) s = .next ((raised true).markWait none)) ∧
    (∀ cluster, cluster < 32 → ∃ t, exec (.leewayCountUpdate cluster) s = .next t ∧ t.cores = s.cores ∧ t.hbm = s.hbm ∧
      (∀ reader, reader < 32 → Table.get [] t.leeway (32 * reader + cluster) = s.clusterCounts cluster) ∧
      Table.get 0 t.leewayDue cluster = 0)

/-- REMQ hands a block of the scratchpad to another core of the launch and holds its bytes; NOTIFY enters its engine's FIFO; WAITEV takes
the oldest raised event into DG (R43, R123 to R125). -/
def Obligations.RemoteWorkWords : Prop :=
  ∀ (h : Header) (o : MemOps) (s : State), s.cur.slot = 0 →
    let target := (s.g o.bg).toNat
    let ea := (s.g o.ag + o.off.signExtend 64).toNat
    let len := 64 + 16 * bytesNat (s.me.spad.readBytes ea 2)
    let pq : Issue := { Issue.scalar [o.ag, o.bg] [] with who := [.c], noSpec := true }
    let port := notifyPort o.off.toNat s.cur.seq
    let pn : Issue := { Issue.scalar [] [] with engine := some port, cmd := some (.notify h o), noSpec := true }
    let pe : Issue := { Issue.scalar [] [o.dg] with who := [.c], noSpec := true }
    (gate pq h s = .go → target < 512 → ea % 64 = 0 → s.me.inSpad ea 64 = true → s.me.inSpad ea len = true → s.coreFenced target = false →
      s.cBusy = false → (s.core target).inbox.length < 16 → (s.core target).launchOf = s.me.launchOf → s.olderRemq target = false →
      s.me.liveRanges.length < 64 →
      ∃ u, exec (.remq h o) s = went pq h u (s.pc + 16) ∧ u.nextId = s.nextId + 1 ∧
        (∃ rest, (u.core target).inbox = rest ++ [⟨s.cur.core, ea, s.nextId, [], 0, none⟩])) ∧
    (gate pn h s = .go → s.me.fifoRoom port = true → s.me.older s.cur.seq port s.cycle = false →
      exec (.notify h o) s = went pn h { s.mapMe (fun k => k.accept port (s.command (.notify h o) h [] none)) with nextId := s.nextId + 1 }
        (s.pc + 16)) ∧
    (gate pe h s = .go → s.me.events ≠ [] →
      exec (.waitev h o) s = went pe h
        ((((s.mapMe (fun k => { k with events := s.me.events.drop 1 }.inherit .c k.doneWrites)).acquireCaches s.cur.core .device).setG o.dg
          (BitVec.ofNat 64 (s.me.events.headD 0))).combine s.cur.core)
        (s.pc + 16))

/-! ### Vector and matrix words (chapters 6 and 7) -/

/-- Every VEC word over registers (VADD, VSUB, VMUL, VFMA, VFMS, VMIN, VMAX, VABS, VNEG, VAND, VOR, VXOR, VNOT, VSHL, VSHR, VSRA, VCMP,
VSEL, VCVT, VWIDEN, VNARROW, VSAT, VCLAMP, VDOT4, VRED, VSCAN, VPERM, VSHUF, VBCAST, VSLIDE, VIOTA, VCOMP, VEXPD, VQPOP, VQPUSH, VEXP2,
VLOG2, VRCP, VRSQ, VTANH, VSIGM, VMERGE3, VDEFER, VDRAIN, VDQCNT, VMOV, VZERO) whose registers are not awaited enters its issuer's
sub-queue with its mask, rotation and G(GA) as they are, and the sequencer goes on (R30, R79, R131, R242, R252, R270). -/
def Obligations.VectorWordsEnter : Prop :=
  ∀ (i : Instr) (maj fn : Nat) (h : Header) (o : VecOps) (s : State), i.parts = some (maj, fn, h, .vec o) → maj ≠ 0x48 →
    let port := vectorPort s.cur.seq
    let counts : Bool := maj = 0x4C && fn ≠ 0
    let p : Issue := { Issue.scalar (if counts then [] else [o.ga]) (if counts then [o.ga] else []) with
      who := vectorIssuers maj fn, lanes := !counts, engine := some port, cmd := some i, noSpec := maj = 0x49 || (maj = 0x4C && fn ≤ 1) }
    let uses := vecUses o maj fn
    let c := { s.command i h [s.g o.ga] (if h.m = 1 then some s.cycle else none) with
      copy := if maj = 0x42 then natBytes 128 (s.maskReg 1).toNat else [] }
    let t := { s.mapMe (fun k => k.accept port c) with nextId := s.nextId + 1 }
    gate p h s = .go → ¬(s.cur.slot ≠ 0 ∧ p.noSpec = true) →
    (s.cur.slot = 0 → (uses.1 ++ uses.2).any (fun n => s.me.vecAwaited s.cur.seq s.cycle (rename h.rot s.me.rrb n)) = false) →
    ((maj = 0x42 ∨ h.msrc = 2) → s.me.cmAwaited s.cycle = false) →
    s.me.fifoRoom port = true → s.me.older s.cur.seq port s.cycle = false → s.me.beginsAtOnce port c = true →
    exec i s = went p h
      (if counts && o.ga ≠ 0 then t.mapMySeq (fun r => { r with outstanding := r.outstanding ++ [o.ga.toNat] })
       else if maj = 0x49 ∧ fn = 0 then
         t.mapMySeq (fun r => { r with loadAfter := r.loadAfter ++ [s.nextId], storeAfter := r.storeAfter ++ [s.nextId] })
       else t) (s.pc + 16)

/-- VLD, VST, VLDX, VSTX, VGATH and VSCAT whose bytes pass their checks queue their access, enter the sub-queue and go on, a scatter once
each of its remote lanes has its entry; a failing check is a precise fault of the word (R131, R133, R146, R147, R349). Parts of it are the
model's choice: log 17 and 37. -/
def Obligations.VectorMemoryWords : Prop :=
  ∀ (i : Instr) (fn : Nat) (h : Header) (o : VecOps) (s : State), i.parts = some (0x48, fn, h, .vec o) →
    let port := vectorPort s.cur.seq
    let p : Issue := { Issue.scalar [o.ga] [] with who := vectorIssuers 0x48 fn, lanes := true, engine := some port, cmd := some i }
    let uses := vecUses o 0x48 fn
    let a := s.vectorAccess fn h o
    gate p h s = .go →
    (s.cur.slot = 0 → (uses.1 ++ uses.2).any (fun n => s.me.vecAwaited s.cur.seq s.cycle (rename h.rot s.me.rrb n)) = false ∧
      uses.2.any (fun n => s.me.vecUnread s.cur.seq (rename h.rot s.me.rrb n)) = false) →
    (h.msrc = 2 → s.me.cmAwaited s.cycle = false) →
    (∀ f, s.checkVector s.cur.core s.me.asid 3 a = .fault f → exec i s = .next (s.trapCopy p h f)) ∧
    (∀ bytes u, s.checkVector s.cur.core s.me.asid 3 a = .ok bytes → s.vectorWaits a bytes = false →
      (s.mayRetry = true → s.me.older s.cur.seq 13 s.cycle = false) →
      s.postLanes a (s.v a.reg) (if s.cur.slot = 0 then (s.remoteLanes a bytes).drop s.mySeq.scattered else []) = (u, []) →
      let c := { u.command i h [u.g o.ga] (if h.m = 1 then some u.cycle else none) with
        copy := a.lanes.flatMap (fun l => natBytes 8 l.2) }
      u.me.fifoRoom port = true → u.me.older u.cur.seq port u.cycle = false → u.me.beginsAtOnce port c = true →
      let q := u.queueVector a bytes (if fn = 2 then some (u.cycle + 5) else none)
      exec i s = went p h { q.1.mapMe (fun k => k.accept port { c with id := q.1.nextId, own := q.2 }) with nextId := q.1.nextId + 1 }
        (u.pc + 16)) ∧
    (∀ bytes u l r, s.checkVector s.cur.core s.me.asid 3 a = .ok bytes → s.vectorWaits a bytes = false →
      (s.mayRetry = true → s.me.older s.cur.seq 13 s.cycle = false) →
      s.postLanes a (s.v a.reg) (if s.cur.slot = 0 then (s.remoteLanes a bytes).drop s.mySeq.scattered else []) = (u, l :: r) → h.m = 0 →
      exec i s = .next (u.markWait none))

/-- The lanes of the integer and logic words: an active lane of VD receives the value of R135 or R136 modulo 2^w, an inactive lane keeps
its value, no flag is raised, and no other vector register changes (R9, R79). -/
def Obligations.IntegerLanes : Prop :=
  ∀ (r : VRun) (o : VecOps) (s : State), s.cur.slot = 0 → isI o.et = true → vecSb o = false → o.sat = 0 →
    let w := typeWidth o.et
    let p := rename r.rot r.rrb o.vd.toNat
    let a (i : Nat) : Nat := elem (r.reg 0 s o.va.toNat) i w
    let b (i : Nat) : Nat := elem (r.reg 1 s o.vb.toNat) i w
    let lanes (t : State) (f : Nat → Nat) : Prop :=
      (∀ i, i < 4096 / w → elem (t.v p) i w = if r.mask.getLsbD i then f i % 2 ^ w else elem (s.v p) i w) ∧
      (∀ q, q ≠ p → t.v q = s.v q) ∧ t.me.fflags = s.me.fflags ∧ SameMemory s t
    lanes (vArith 0 r o s) (fun i => a i + b i) ∧
    lanes (vArith 1 r o s) (fun i => a i + 2 ^ w - b i) ∧
    lanes (vArith 2 r o s) (fun i => a i * b i) ∧
    lanes (vLogic 0 r o s) (fun i => a i &&& b i) ∧
    lanes (vLogic 1 r o s) (fun i => a i ||| b i) ∧
    lanes (vLogic 2 r o s) (fun i => a i ^^^ b i) ∧
    lanes (vMove 0 r o s) (fun i => a i) ∧
    lanes (vMove 1 r o s) (fun _ => 0)

/-- ENGINE_COMMAND_START of a register word at the head of a vector sub-queue that may start: the vector registers become what the word's
effect makes of them and its command counts as performed (R131, R134). -/
def Obligations.VectorWordPerformed : Prop :=
  ∀ (core port maj fn : Nat) (h : Header) (o : VecOps) (c : Command) (s : State), core < 512 → 4 ≤ port → port < 8 →
    (s.core core).nextCommand port = some c → c.instr.parts = some (maj, fn, h, .vec o) →
    [0x40, 0x41, 0x43, 0x44, 0x45, 0x4A, 0x4B, 0x4E].contains maj = true →
    (s.core core).working = true → c.started = false → c.out = [] → c.failed = none → c.due = none → (s.core core).readsDone c.id = true →
    Table.get 0 (s.core core).portFree port ≤ s.cycleOf core →
    let v : State := { (s.takeUp core port).ownReads core c.id with cur := ⟨core, c.seq, c.slot⟩, noted := [] }
    let u := vectorEffect maj fn (c.vrun h (c.vals.getD 0 0) v.cycle) o v
    ∃ t, exec (.engineCommandStart core port) s = .next t ∧ t.cur = s.cur ∧ (t.core core).v = (u.core core).v ∧
      (t.core core).fflags = (u.core core).fflags ∧ SameMemory s t ∧ (∀ d, d ≠ core → t.core d = s.core d) ∧
      (∀ q, (t.core core).seq q = (u.core core).seq q)

/-- The matrix words of X-seq that name a tile or the counters the configuration has enter the matrix FIFO with the stretches of the
scratchpad that they read and write; with an absent tile they take the accumulator-configuration fault in decoding; ACFG configures the
array once its FIFO is empty, or faults while something is live (R86, R157 to R173, R181). Parts of it are the model's choice: log 12 and
14. -/
def Obligations.MatrixWords : Prop :=
  ∀ (h : Header) (o : EngOps) (s : State), s.cur.slot = 0 →
    let p (i : Instr) (ns absent : Bool) : Issue :=
      { engineIssue i 3 [.x] ns o with absent := if absent then some (.bare .accConfig) else none }
    let cmd (i : Instr) : Command := s.engCommand i h o
    let fits : Prop := s.cur.seq = .x ∧ h.msrc ≠ 1 ∧ h.msrc ≠ 2
    let enters (i : Instr) (ns absent : Bool) (spans : List Span) : Prop :=
      (gate (p i ns absent) h s = .go → room s 3 (cmd i) spans → exec i s = entered (p i ns absent) h s 3 (cmd i) spans) ∧
      (absent = true → fits → exec i s = .next (s.takeTrap (.bare .accConfig)))
    let ty := engTypes o
    let src (r : BitVec 6) (n : Nat) : Span := ⟨.spad, (s.g r).toNat, n, false⟩
    let dst (r : BitVec 6) (n : Nat) : Span := ⟨.spad, (s.g r).toNat, n, true⟩
    let tile := decide (tilesOf s.me.conf ≤ o.tile.toNat)
    let uncounted := s.me.conf != .count
    let acfg : Issue := { Issue.scalar [] [] with who := [.x], noSpec := true }
    let types : Prop := if s.me.conf = .fp then o.ta = 12 ∨ o.ta = 11 else o.ta = 6 ∨ o.ta = 12
    let pa : Issue := { Issue.scalar [o.ga] [] with who := [.x], engine := some 3, cmd := some (.aload h o), noSpec := true }
    let pv : Issue := { Issue.scalar [] [] with who := [.x], engine := some 3, cmd := some (.mvec h o) }
    let reg := rename h.rot s.me.rrb o.va.toNat
    let mvec := s.command (.mvec h o) h [] (if h.m = 1 then some s.cycle else none)
    let aload := s.command (.aload h o) h [s.g o.ga] (if h.m = 1 then some s.cycle else none)
    enters (.mma h o) false (!suits s.me.conf ty || tile)
      [src o.ga (operandBytes ty.ta ty.ks 64 ty.bka), src o.gb (operandBytes ty.tb ty.ks 64 ty.bkb)] ∧
    enters (.mmac h o) true uncounted [src o.ga (operandBytes ty.ta 256 32 ty.bka), src o.gb (operandBytes ty.tb 256 32 ty.bkb)] ∧
    enters (.cmerge h o) true uncounted [src o.ga spillBytes] ∧
    enters (.cspill h o) true uncounted [dst o.ga spillBytes] ∧
    enters (.cdrain h o) true uncounted [] ∧
    enters (.azero h o) (o.imm.getLsbD 0) (if o.imm.getLsbD 0 then uncounted else tile) [] ∧
    enters (.adrain h o) false tile [dst o.ga (s.me.tileSize * imageBytes o.tc)] ∧
    enters (.adrainp h o) true tile [] ∧
    enters (.aarm h o) true tile [] ∧
    enters (.fmtset h o) true false [] ∧
    enters (.fmtld h o) true false [src o.ga 64] ∧
    enters (.mxt h o) false false [src o.gb (4096 * imageBytes o.ta), dst o.ga (4096 * imageBytes o.ta)] ∧
    (gate acfg h s = .go → s.me.fifo 3 = [] →
      (∀ k, s.me.configure (acfgConf o) (BitVec.ofNat 9 (o.imm.toNat / 4)) = some k →
        exec (.acfg h o) s = went acfg h (s.setMe (k.takePart 3 false)) (s.pc + 16)) ∧
      (s.me.configure (acfgConf o) (BitVec.ofNat 9 (o.imm.toNat / 4)) = none →
        exec (.acfg h o) s = .next (s.trapCopy acfg h (.bare .accConfig)))) ∧
    (fits → ¬types → exec (.aload h o) s = .next (s.takeTrap (.bare .illegal))) ∧
    (fits → types → tile = true → exec (.aload h o) s = .next (s.takeTrap (.bare .accConfig))) ∧
    (types → tile = false → gate pa h s = .go → room s 3 aload [src o.ga (s.me.tileSize * imageBytes o.ta)] →
      exec (.aload h o) s = entered pa h s 3 aload [src o.ga (s.me.tileSize * imageBytes o.ta)]) ∧
    (fits → (s.me.conf ≠ .fp ∨ tile = true) → exec (.mvec h o) s = .next (s.takeTrap (.bare .accConfig))) ∧
    (s.me.conf = .fp → tile = false → gate pv h s = .go → s.me.vecAwaited .x s.cycle reg = false → s.me.vecUnread .x reg = false →
      room s 3 mvec [] → exec (.mvec h o) s = entered pv h s 3 mvec [])

/-! ### Engines, results, blocks and rounds (chapters 8 to 12) -/

/-- The words of the transfer, port and collective FIFOs enter them with the values of their registers and the ranges that they hold
(R183, R184, R188, R190, R193, R201, R204, R212). The words over charts and block maps enter the transfer FIFO (R212, R214 to R229). Parts
of it are the model's choice: log 79. -/
def Obligations.EngineWords : Prop :=
  (∀ (h : Header) (o : EngOps) (s : State), s.cur.slot = 0 →
     let p (i : Instr) (port : Nat) (who : List SeqId) (ns : Bool) : Issue := engineIssue i port who ns o
     let cmd (i : Instr) : Command := s.engCommand i h o
     let enters (i : Instr) (port : Nat) (who : List SeqId) (ns : Bool) (c : Command) (spans : List Span) : Prop :=
       gate (p i port who ns) h s = .go → room s port c spans → exec i s = entered (p i port who ns) h s port c spans
     let indexed (i : Instr) : Command := { cmd i with copy := natBytes 512 (s.v o.vb.toNat).toNat }
     let spansOf (fn : Nat) (c : Command) : List Span := wordSpans fn o c
     let published : Command := s.publishCommand (.publish h o) h o
     enters (.xcopy h o) 0 csl false (cmd (.xcopy h o)) (spansOf 0 (cmd (.xcopy h o))) ∧
     (s.me.vecAwaited s.cur.seq s.cycle o.vb.toNat = false →
       enters (.xgath h o) 0 csl false (indexed (.xgath h o)) (spansOf 1 (indexed (.xgath h o))) ∧
       enters (.xscat h o) 0 csl false (indexed (.xscat h o)) (spansOf 2 (indexed (.xscat h o)))) ∧
     enters (.xfill h o) 0 csl false (cmd (.xfill h o)) (spansOf 3 (cmd (.xfill h o))) ∧
     (s.rangeWait .spad (s.g o.ga).toNat 64 true = false → s.ownStoresFilled = true →
       enters (.publish h o) 1 cs false published (publication published.copy).spans) ∧
     enters (.ntake h o) 1 cl true (cmd (.ntake h o)) [] ∧
     enters (.ndecl h o) 1 cl true (cmd (.ndecl h o)) [] ∧
     enters (.nwait h o) 1 cl true (cmd (.nwait h o)) [] ∧
     enters (.helmset h o) 1 [.c] true (cmd (.helmset h o)) [] ∧
     enters (.pwin h o) 1 [.c] true (cmd (.pwin h o)) [] ∧
     (let t := wordTransfer (cmd (.coll h o))
      enters (.coll h o) 2 cs true (cmd (.coll h o)) (if t.size < 2 ^ 24 then [⟨.spad, t.src, t.size, false⟩] else [])) ∧
     enters (.accw h o) 2 cl true (cmd (.accw h o)) (accwSpans (cmd (.accw h o))) ∧
     enters (.sortk h o) 0 csl false (cmd (.sortk h o)) (sortkSpans o (cmd (.sortk h o))) ∧
     enters (.echoose h o) 0 csl true (cmd (.echoose h o)) (echooseSpans o (cmd (.echoose h o))) ∧
     enters (.rcsnap h o) 0 csl true (cmd (.rcsnap h o)) (rcsnapSpans o (cmd (.rcsnap h o))) ∧
     enters (.lattn h o) 0 csl false (cmd (.lattn h o)) (lattnSpans o (cmd (.lattn h o)))) ∧
  (∀ (h : Header) (o : EngOps) (s : State), s.cur.slot = 0 →
     let p (i : Instr) (ns : Bool) : Issue := engineIssue i 0 csl ns o
     let enters (i : Instr) (ns : Bool) (spans : Command → List Span) : Prop :=
       gate (p i ns) h s = .go → room s 0 (s.engCommand i h o) (spans (s.engCommand i h o)) →
         exec i s = entered (p i ns) h s 0 (s.engCommand i h o) (spans (s.engCommand i h o))
     let none_ (_ : Command) : List Span := []
     enters (.chnew h o) true none_ ∧ enters (.chfork h o) true none_ ∧ enters (.chflat h o) true none_ ∧
     enters (.chappend h o) (o.imm.getLsbD 0) chappendSpans ∧ enters (.chlook h o) false chlookSpans ∧
     enters (.chtrunc h o) true none_ ∧ enters (.chseal h o) true none_ ∧ enters (.chfree h o) true none_ ∧
     enters (.chgive h o) true none_ ∧ enters (.bmset h o) true none_ ∧ enters (.bmperm h o) true bmpermSpans ∧
     enters (.bmlook h o) false bmlookSpans)

/-- Record headers enter their engine's FIFO with the bases that their descriptors name and the ranges that their issues touch; the
sequencer goes on 64 bytes further (R73, R92, R189, R190, R193, R204). Completes the records of XCOPY, XGATH, XSCAT, XFILL, PUBLISH, COLL,
SORTK and LATTN. Headers of the matrix and vector records (R154, R175): those that the configuration suits enter the matrix FIFO or the
issuer's sub-queue, an MMA or MMAC record that it does not suit traps in decoding (R86, R164, R165). Completes the MMA and MMAC records
and the records of MAJ 0xF5 to 0xFB. Parts of it are the model's choice: log 11, 32 and 80. -/
def Obligations.RecordHeaders : Prop :=
  (∀ (h : Header) (r : RecOps) (s : State), s.cur.slot = 0 →
     let p (i : Instr) (port : Nat) (who : List SeqId) : Issue := recordIssue i port who false r
     let cmd (i : Instr) : Command := s.headerCommand i h r
     let enters (i : Instr) (port : Nat) (who : List SeqId) (spans : Command → List Span) : Prop :=
       gate (p i port who) h s = .go → room s port (cmd i) (spans (cmd i)) →
         exec i s = entered (p i port who) h s port (cmd i) (spans (cmd i))
     enters (.xcopyRecord h r) 0 csl (fun c => s.recordSpans 0 r c) ∧
     enters (.xgathRecord h r) 0 csl (fun c => s.recordSpans 1 r c) ∧
     enters (.xscatRecord h r) 0 csl (fun c => s.recordSpans 2 r c) ∧
     enters (.xfillRecord h r) 0 csl (fun c => s.recordSpans 3 r c) ∧
     enters (.publishRecord h r) 1 cs (fun c => recSpan r c.vals c.w 0 (2 ^ (r.da.ulog.toNat + recUsh r)) false) ∧
     enters (.collRecord h r) 2 cs (fun c => recSpan r c.vals c.w 0 (2 ^ r.da.ulog.toNat) false) ∧
     enters (.sortkRecord h r) 0 csl (fun c => match sortParams (c.val 3) with
       | some (_, k, n) => recSpan r c.vals c.w 0 (n * (typeWidth r.ta / 8)) false ++ recSpan r c.vals c.w 2 (8 * k) true
       | none => []) ∧
     enters (.lattnRecord h r) 0 csl (fun c => recSpan r c.vals c.w 0 (4 * attnDim r.ta) false ++ recSpan r c.vals c.w 1 64 false ++
       recSpan r c.vals c.w 2 1536 true)) ∧
  (∀ (fn : BitVec 8) (h : Header) (r : RecOps) (s : State), s.cur.slot = 0 →
     let pm (i : Instr) : Issue := { Issue.scalar [r.da.base, r.db.base] [] with
       who := [.x], size := 64, stamp := some r.stamp.toNat, engine := some 3, cmd := some i, once := true }
     let matrix (i : Instr) (rows : Nat) : Prop :=
       let c := s.recordCommand i h r
       let spans := s.me.matrixSpans r (recTypes r) rows c.w c.vals
       gate (pm i) h s = .go → room s 3 c spans → exec i s = entered (pm i) h s 3 c spans
     let traps (i : Instr) (x : Cause) : Prop := s.cur.seq = .x → h.msrc ≠ 1 → h.msrc ≠ 2 → exec i s = .next (s.takeTrap (.bare x))
     let port := vectorPort s.cur.seq
     let pv (i : Instr) (who : List SeqId) : Issue := recordIssue i port who true r
     let vector (i : Instr) (who : List SeqId) (kept : Nat) : Prop :=
       let c := s.recordCommand i h r
       gate (pv i who) h s = .go → (h.msrc = 2 → s.me.cmAwaited s.cycle = false) → s.me.fifoRoom port = true →
         s.me.older s.cur.seq port s.cycle = false → s.me.beginsAtOnce port c = true →
         exec i s = went (pv i who) h { s.mapMe (fun k => k.accept port c) with nextId := s.nextId + 1 + kept } (s.pc + 64)
     let tiles : Prop := r.opx.toNat % 16 + s.me.slotCount ≤ tilesOf s.me.conf
     let typed : Prop := r.fts = 1 ∨ suits s.me.conf (recTypes r) = true
     let slotted : Prop := s.me.round.st = .running ∧ r.slot ≠ 0
     (tiles → typed → matrix (.mmaRecord h r) 64) ∧ (¬(tiles ∧ typed) → traps (.mmaRecord h r) .accConfig) ∧
     (¬slotted → s.me.conf = .count → s.me.slotCount ≤ tilesOf s.me.conf → matrix (.mmacRecord h r) 32) ∧
     (slotted → traps (.mmacRecord h r) .illegal) ∧
     (¬slotted → (s.me.conf ≠ .count ∨ tilesOf s.me.conf < s.me.slotCount) → traps (.mmacRecord h r) .accConfig) ∧
     vector (.vectorArithRecord fn h r) [.x] 0 ∧ vector (.vectorLogicRecord fn h r) [.x] 0 ∧ vector (.vectorConvertRecord fn h r) [.x] 0 ∧
     vector (.vectorDotRecord fn h r) [.x] 0 ∧
     vector (.vectorMemoryRecord fn h r) (if fn.toNat % 2 = 1 then [.s] else [.l])
       (recTotal r (s.recordCommand (.vectorMemoryRecord fn h r) h r).w) ∧
     vector (.vectorSpecialRecord fn h r) [.x] 0 ∧ vector (.vmerge3Record h r) [.x] 0)

/-- XPOP pops a result FIFO's oldest entry into GA; XSTAT reads the counts; RDYWAIT goes on once its ready flag is set (R185, R202, R277).
Parts of it are the model's choice: log 29. -/
def Obligations.ResultWords : Prop :=
  ∀ (h : Header) (o : EngOps) (s : State), s.cur.slot = 0 →
    let q := o.imm.toNat % 8
    let p : Issue := { Issue.scalar [] [o.ga] with noSpec := true }
    let pr : Issue := { Issue.scalar [] [] with noSpec := true }
    (∀ x rest, gate p h s = .go → s.me.results' q = x :: rest → s.me.older s.cur.seq (32 + q) s.cycle = false →
      exec (.xpop h o) s =
        wrote p h ((s.mapMe (fun k => (k.popResult s.cur.seq q).setResults q rest)).acquireCaches s.cur.core .device) o.ga x) ∧
    (gate p h s = .go →
      let units := match (s.me.fifo q).find? (fun c => c.started) with
        | some c => c.iter
        | none => 0
      exec (.xstat h o) s = wrote p h s o.ga (BitVec.ofNat 64 (units % 2 ^ 32 * 2 ^ 32 +
        ((s.me.fifo q).filter (fun c => c.result.isNone)).length * 2 ^ 8 + (s.me.results' q).length))) ∧
    (gate pr h s = .go → (s.me.counter (o.imm.toNat % 32)).flag = true →
      exec (.rdywait h o) s = went pr h (s.acquireCaches s.cur.core .device) (s.pc + 16))

/-- RECLAIM withdraws a named block, unless its last pulls complete in the same cycle, and REXTEND moves its deadline; a name that no
block carries changes no block; one that is no block identifier is a reported fault; with RS the port's result FIFO receives OK, GONE or
FAULTED; the word releases C-seq's accesses before it at device scope (R184, R194, R195, R199, R277). Parts of it are the model's choice:
log 31. -/
def Obligations.BlockWords : Prop :=
  ∀ (h : Header) (o : EngOps) (s : State), s.cur.slot = 0 →
    let p : Issue := { Issue.scalar [o.gb, o.gc] [] with who := [.c], noSpec := true }
    let s1 := (s.releaseCaches s.cur.core .device).mapMe (fun k => k.takePart 1 false)
    let x := (s1.g o.gb).toNat
    let n := (s1.g o.gc).toNat
    let rs := o.imm.getLsbD 15
    let push (t : State) (st : Status) (v : Nat) : State :=
      if rs then t.mapMe (fun k => k.pushResult 1 (resultWord st v) s1.nextId) else t
    let bad := s1.reportTo s1.cur.core s1.cur.seq 1 s1.pc (.bare .illegalOperand) none
    gate p h s = .go → s.me.fifoRoom 1 = true → s.me.older s.cur.seq 1 s.cycle = false → (rs = true → s.me.resultRoom 1 = true) →
    s.cBusy = false → s.me.unacknowledged (s.me.postedBefore .c) = false →
    (2 ^ 15 ≤ x → exec (.reclaim h o) s = went p h (push bad.1 .faulted (bad.2.getD 0)) (s1.pc + 16) ∧
      exec (.rextend h o) s = went p h (push bad.1 .faulted (bad.2.getD 0)) (s1.pc + 16)) ∧
    (x < 2 ^ 15 → (n = 0 ∨ 2 ^ 32 ≤ n) → exec (.rextend h o) s = went p h (push bad.1 .faulted (bad.2.getD 0)) (s1.pc + 16)) ∧
    (∀ slot, x < 2 ^ 15 → s1.me.named x = some slot →
      (s1.completions s1.cur.core x < (s1.me.block slot).count →
        exec (.reclaim h o) s = went p h (push ((s1.withdraw s1.cur.core x).mapMe (fun k =>
          let k := k.unpin s1.cycle slot false
          k.setBlock slot { k.block slot with freedAt := s1.cycle + 1 })) .ok 0) (s1.pc + 16)) ∧
      ((s1.me.block slot).count ≤ s1.completions s1.cur.core x →
        exec (.reclaim h o) s = went p h (push s1 .gone 0) (s1.pc + 16)) ∧
      (1 ≤ n → n < 2 ^ 32 →
        exec (.rextend h o) s = went p h
          (push (s1.mapMe (fun k => k.setBlock slot { k.block slot with deadline := s1.tick + n, expired := false })) .ok 0)
          (s1.pc + 16))) ∧
    (x < 2 ^ 15 → s1.me.named x = none →
      exec (.reclaim h o) s = went p h (push s1 .gone 0) (s1.pc + 16) ∧
      (1 ≤ n → n < 2 ^ 32 → exec (.rextend h o) s = went p h (push s1 .gone 0) (s1.pc + 16)))

/-- RKBEGIN opens a round in its guessing state and calls the routine; the routine's return ends its run; ACMP confirms; RKCOMMIT closes
the round at the last accepted slot, whose g-registers the owner takes over, with the number of accepted slots in GA; RKEND closes it and
keeps slot 0's g-registers, or does nothing outside one; RKSTAT reads the round's word (R231, R232, R236 to R238). Completes RKBEGIN,
ACMP, RKCOMMIT, RKEND and RKSTAT. A round closed at slot 0 goes on with the next word, is closed with acc 0, and its destination receives
1 (R237). Parts of it are the model's choice: log 42. -/
def Obligations.RoundWords : Prop :=
  (∀ (h : Header) (o : EngOps) (s : State), s.cur.slot = 0 →
     let p (who : List SeqId) (a b : List (BitVec 6)) : Issue := { Issue.scalar a b with who := who, once := true }
     let t := s.g o.ga
     let mask := s.g o.gc
     let begins := p allSeqs ([o.ga, o.gc] ++ ({ Round.closed with carried := mask } : Round).carriedRegs.map (BitVec.ofNat 6)) []
     let compares := p s.roundIssuers (s.me.round.carriedRegs.map (BitVec.ofNat 6)) []
     let a := s.me.round.accepted
     let empty (j : Nat) : Prop := s.me.round.stores.all (fun x => x.slot != j) = true ∧
       s.me.round.heldResults.all (fun x => x.1 != j) = true ∧ (s.me.slot j).deferred = []
     (gate begins h s = .go → s.me.round.st = .closed → t.toNat % 64 = 0 → mask.getLsbD 0 = false →
       ((List.range 64).filter (fun n => mask.getLsbD n)).length ≤ 8 → s.mySeq.shadow.length < 64 →
       ∃ u, exec (.rkbegin h o) s = jumped begins h u t ∧ u.me.round.st = .guessing ∧
         u.me.round.w = o.imm.toNat % 16 ∧ u.me.round.owner = s.cur.seq ∧ u.me.round.carried = mask ∧ u.me.round.routine = t ∧
         u.mySeq.shadow = (s.pc + 16) :: s.mySeq.shadow ∧ SameMemory s u) ∧
     (∀ (j : JmpOps) (x : Word) (rest : List Word), gate (Issue.scalar [j.ag] []) h s = .go → s.mySeq.shadow = x :: rest → x = s.g j.ag →
       okTarget s x → s.me.round.st = .guessing → s.me.round.owner = s.cur.seq → rest.length = s.me.round.depth →
       s.mySeq.outstanding.any (fun n => s.me.round.run + 1 = s.me.round.w || s.me.round.carried.getLsbD n) = false →
       let u := (s.mapMySeq (fun r => { r with shadow := rest })).endRun
       okTarget s u.2 → exec (.ret h j) s = jumped (Issue.scalar [j.ag] []) h u.1 u.2) ∧
     (gate compares h s = .go → s.me.round.st = .running →
       exec (.acmp h o) s = went compares h (s.mapMe Core.confirm) (s.pc + 16)) ∧
     (gate (p s.roundIssuers [] [o.ga]) h s = .go → s.me.round.st = .running → s.me.roundBusy (s.mySeq.drain.getD s.nextId) = false →
       (∀ j, 1 ≤ j → j ≤ a → empty j) → (a ≠ 0 → (s.me.slot a).fault = none) →
       ∃ u, exec (.rkcommit h o) s = .next u ∧ u.me.round.st = .closed ∧ u.me.round.acc = a ∧ u.mySeq.pc = s.pc + 16 ∧
         (o.ga ≠ 0 → u.mySeq.getG o.ga.toNat = BitVec.ofNat 64 (a + 1)) ∧
         (∀ n, n ≠ 0 → n ≠ o.ga.toNat →
           u.mySeq.getG n = if a = 0 then s.mySeq.getG n else Table.get 0 (s.me.slot a).g n)) ∧
     (gate (p s.roundIssuers [] []) h s = .go → s.me.round.st = .closed →
       exec (.rkend h o) s = went (p s.roundIssuers [] []) h s (s.pc + 16)) ∧
     (gate (p s.roundIssuers [] []) h s = .go → s.me.round.st = .running → s.me.roundBusy (s.mySeq.drain.getD s.nextId) = false →
       ∃ u, exec (.rkend h o) s = .next u ∧ u.me.round.st = .closed ∧ u.me.round.acc = 0 ∧ u.mySeq.pc = s.pc + 16 ∧
         (∀ n, u.mySeq.getG n = s.mySeq.getG n)) ∧
     (gate (Issue.scalar [] [o.ga]) h s = .go →
       exec (.rkstat h o) s = wrote (Issue.scalar [] [o.ga]) h s o.ga (s.me.round.word 0))) ∧
  (∀ (s u : State) (d : BitVec 6) (n : Word), s.cur.slot = 0 → closeRound s 0 (some d) = .done u n →
     n = s.pc + 16 ∧ u.me.round.st = .closed ∧ u.me.round.acc = 0 ∧ (d ≠ 0 → u.mySeq.getG d.toNat = 1))

/-- The steps of an engine: a command at its FIFO's head starts, a triggered command once its ready flag is set, an accepted record makes
its next issue, a triggered one whose flag is clear misses in the cycle after its own, a performed command completes with its result and
its tokens after its bytes have been credited, and a NOTIFY retires behind the commands before it (R92, R124, R183, R184, R191). Completes
ENGINE_COMMAND_START, RECORD_ISSUE, TRIGGERED_COMMAND_START, COMMAND_COMPLETE and NOTIFY_RETIRE. A fault of a command is reported and not
precise: the sequencer that issued it goes on, its FIFO stops, and the fault waits at the end of the sequencer's pending faults (R93,
R365). Parts of it are the model's choice: log 22, 33 and 109. -/
def Obligations.EngineSteps : Prop :=
  (∀ (core port : Nat) (c : Command) (s : State), core < 512 → port < 8 →
     ((s.core core).nextCommand port = some c → (s.core core).working = true →
       (c.trigger = none → c.started = false →
         exec (.engineCommandStart core port) s = .next ((s.takeUp core port).startCommand core port c)) ∧
       (c.total.isSome = true → c.started = true →
         exec (.recordIssue core port) s =
           .next ((if s.skipsSlot core c then s else s.takeUp core port).startCommand core port c)) ∧
       (∀ n, c.trigger = some n → c.started = false → ((s.core core).counter n).flag = true →
         exec (.triggeredCommandStart core port) s = .next (s.startCommand core port c)) ∧
       (∀ n, c.trigger = some n → c.started = false → ((s.core core).counter n).flag = false →
         exec (.triggeredCommandStart core port) s = .next s) ∧
       (∀ n d, c.trigger = some n → c.started = false → c.due = some d →
         exec (.engineCommandStart core port) s = .next (if d < s.cycleOf core then s.missCommand core port c else s))) ∧
     (∀ r, Table.get none (s.core core).stopped port = none → ((s.core core).fifo port).head? = some c → c.result = some r →
       s.mayComplete core port c = true → (s.core core).resultRoom (engineOfPort port) = true →
       (c.creditBar = none → exec (.commandComplete core port) s = .next (s.complete core port c r)) ∧
       (∀ bar, c.creditBar = some bar →
         (∀ t, s.credit core bar r.value = some t → exec (.commandComplete core port) s = .next (t.complete core port c r)) ∧
         (s.credit core bar r.value = none →
           exec (.commandComplete core port) s = .next (s.faultCommand core port c (.bare .barrier))))) ∧
     (∀ h o, (s.core core).headCommand port = some c → c.instr = .notify h o → c.failed = none → port < 4 → port ≠ 1 →
       exec (.notifyRetire core port) s = .next (((s.mapCore core (fun k =>
         ({ k with mmaRun := if port = 3 then none else k.mmaRun }.setFifo port ((k.fifo port).drop 1)).reach (engineOfPort port))).commandTokens
           core c).combine core))) ∧
  (∀ (core port : Nat) (c : Command) (i : FaultInfo) (s : State), c.slot = 0 → c.remote = none →
     let t := s.faultCommand core port c i
     ∃ p rest, ((t.core core).seq c.seq).pending = rest ++ [p] ∧ p.stops = some port ∧
       ((t.core core).seq c.seq).pc = ((s.core core).seq c.seq).pc ∧ ((t.core core).seq c.seq).g = ((s.core core).seq c.seq).g ∧
       ((t.core core).seq c.seq).epc = ((s.core core).seq c.seq).epc ∧ (Table.get none (t.core core).stopped port).isSome = true)

/-- A pinned block at its deadline expires, unless a completion of the same tick comes first, and its reclaim trap and a reported fault
are delivered at a word boundary: the handler is entered with EPC at the word not yet issued (R194, R199, R364). Completes BLOCK_EXPIRY,
RECLAIM_TRAP_DELIVERY and REPORTED_FAULT_DELIVERY. Parts of it are the model's choice: log 34. -/
def Obligations.Deliveries : Prop :=
  ∀ (core : Nat) (s : State), core < 512 →
    (∀ slot, slot < 64 → ((s.core core).block slot).pinned = true → ((s.core core).block slot).expired = false →
      ((s.core core).block slot).deadline ≤ s.tick →
      (s.tick = ((s.core core).block slot).deadline → s.completing core (((s.core core).block slot).bid slot) = false) →
      exec (.blockExpiry core slot) s = .next (s.mapCore core (fun k =>
        k.setBlock slot { (s.core core).block slot with expired := true }))) ∧
    (∀ slot b, (s.core core).due .c = .reclaim slot b → s.atBoundary core .c = true →
      exec (.reclaimTrapDelivery core) s = .next (s.enterHandler core .c ((s.core core).seq .c).pc
        (ecauseOf .reclaim false (b.generation.toNat * 64 + slot) false) [])) ∧
    (∀ q p, (s.core core).due q = .fault p → s.atBoundary core q = true →
      exec (.reportedFaultDelivery core q.num) s = .next
        ((s.mapCore core (fun k => k.mapSeq q (fun r => { r with pending := r.pending.drop 1 }))).enterHandler core q
          ((s.core core).seq q).pc p.ecause p.stops.toList)) ∧
    ((s.core core).due .c = .nothing → exec (.reclaimTrapDelivery core) s = .next s)

/-- Notices on their way: one that arrives where it may enter is accepted, a malformed one is declined, one that may not enter is held by
the fabric, one for a fenced core is refused; completions and declines lower their block's count; a withdrawal reaches its notice, or
waits for one that it has overtaken (R192, R194, R196, R199, R283, R290, R295, R374). Completes NOTICE_ARRIVAL, HELD_NOTICE_ENTRY,
PULL_COMPLETION_ARRIVAL, DECLINE_ARRIVAL and WITHDRAWAL_ARRIVAL. Parts of it are the model's choice: log 33 and 70. -/
def Obligations.NoticeSteps : Prop :=
  ∀ (msg : Nat) (s : State),
    (∀ bits con dev asid w, s.postOf msg = some (.notice bits con dev asid none w) → con / 512 = s.devnum →
      s.earlierNotice msg bits con dev = false →
      let early := w || s.earlyWithdrawal bits dev con
      let u := s.useWithdrawals bits dev con
      (u.coreFenced (con % 512) = true → exec (.noticeArrival msg) s = .next ((u.unpost msg).refuseFenced bits con dev asid)) ∧
      (u.coreFenced (con % 512) = false →
        (noticeMalformed bits = true → exec (.noticeArrival msg) s = .next ((u.unpost msg).post (declineOf bits dev con))) ∧
        (noticeMalformed bits = false → u.mayEnter (con % 512) asid = true → u.nextHeld (con % 512) = none →
          exec (.noticeArrival msg) s = .next ((u.unpost msg).acceptNotice (con % 512) bits dev asid early)) ∧
        (noticeMalformed bits = false → (u.mayEnter (con % 512) asid = false ∨ (u.nextHeld (con % 512)).isSome = true) →
          exec (.noticeArrival msg) s = .next { u with posts := u.posts.map (fun p =>
            if p.id = msg then { p with msg := .notice bits con dev asid (some u.tick) early } else p) }))) ∧
    (∀ core id bits dev asid rest, core < 512 → s.coreFenced core = true → s.heldFor core = (id, bits, dev, asid) :: rest →
      exec (.heldNoticeEntry core) s = .next ((s.unpost id).refuseFenced bits (s.consumerId core) dev asid)) ∧
    (∀ core id bits dev asid w, core < 512 → s.coreFenced core = false → s.nextHeld core = some (id, bits, dev, asid, w) →
      exec (.heldNoticeEntry core) s = .next ((s.unpost id).acceptNotice core bits dev asid w)) ∧
    (∀ bits con, s.postOf msg = some (.completion bits s.devnum con) → s.justFreed (noticeProd bits) (noticeBid bits) = false →
      exec (.pullCompletionArrival msg) s = .next ((s.unpost msg).lowerCount (noticeProd bits) (noticeBid bits) con true)) ∧
    (∀ bits con, s.postOf msg = some (.decline bits s.devnum con) →
      exec (.declineArrival msg) s = .next ((s.unpost msg).lowerCount (noticeProd bits) (noticeBid bits) con false)) ∧
    (∀ bits dev con, s.postOf msg = some (.withdrawal bits dev con false) → con / 512 = s.devnum → s.overtakes bits dev con = true →
      exec (.withdrawalArrival msg) s = .next { s with posts := s.posts.map (fun p =>
        if p.id = msg then { p with msg := .withdrawal bits dev con true } else p) }) ∧
    (∀ bits dev con, s.postOf msg = some (.withdrawal bits dev con false) → con / 512 = s.devnum → s.overtakes bits dev con = false →
      ∃ t, exec (.withdrawalArrival msg) s = .next t ∧
        t.posts = ((s.unpost msg).withdrawPosts dev (noticeProd bits) (noticeBid bits) con).posts ∧ t.hbm = s.hbm ∧ t.l2 = s.l2 ∧
        t.chron = s.chron ∧
        (∀ n, (s.core (con % 512)).notices = [n] → n.dev = dev → noticeProd n.bits = noticeProd bits → noticeBid n.bits = noticeBid bits →
          n.state = .waiting → n.windowed = true →
          (t.core (con % 512)).notices = [{ n with state := .landed, size := 0, withdrawn := true }]))

/-- Pulls: within the two bounds the reads of what lies elsewhere go before the next segment of the notice being pulled (the order of the
two is the model's, log 97), a pull starts with the Helm's choice, a request is answered with the segment's bytes or as withdrawn, a
segment that arrived lands, a KIND 3 segment is applied, and a notice turns ripe (R202, R283 to R288, R296, R354). Completes
SEGMENT_REQUEST, HELM_PULL_START, NOTICE_RIPE, SEGMENT_READ, SEGMENT_LAND and COLL_SEGMENT_APPLY. Parts of it are the model's choice: log
70, 74 and 97. -/
def Obligations.PullSteps : Prop :=
  ∀ (core : Nat) (s : State), core < 512 →
    (∀ n, (s.core core).requesting = some n → s.helmRuns core = true → (s.core core).mayRequest s.tick = true →
      ((s.withLoadReads core).core core).nextRead = none →
      exec (.segmentRequest core) s = .next (s.requestSegment core n)) ∧
    (∀ i, (s.core core).mayRequest s.tick = true → ((s.withLoadReads core).core core).nextRead = some i →
      exec (.segmentRequest core) s = .next ((s.withLoadReads core).mapCore core (fun k => k.askRead s.tick i))) ∧
    (∀ n, (s.core core).requesting = none → s.helmRuns core = true → (s.core core).mayRequest s.tick = true →
      (s.core core).choice s.tick = some n → n.kind = 3 → (s.core core).outsideRegion n.bits = true →
      exec (.helmPullStart core) s = .next ((s.mapCore core (fun k => k.dropNotice n)).post (declineOf n.bits n.dev (s.consumerId core)))) ∧
    (∀ n, (s.core core).requesting = none → s.helmRuns core = true → (s.core core).mayRequest s.tick = true →
      (s.core core).choice s.tick = some n → ¬(n.kind = 3 ∧ (s.core core).outsideRegion n.bits = true) →
      (s.core core).scoreboardFull n = false →
      let off := if n.windowed then (match (s.core core).chooseRun n.rounded with | some r => r.1 | none => 0) else 0
      let m := { n with state := .pulling, window := off, ripe := false }
      exec (.helmPullStart core) s = .next ((s.mapCore core (fun k =>
        let k := k.putNotice m
        let k := if m.windowed then k.windowRange m (s.cycleOf core) else k
        if m.kind = 2 then { k with helm := { k.helm with staging := [] } } else k)).requestSegment core m)) ∧
    (∀ entry n, entry < 64 → (s.core core).noticeAt entry = some n → (s.core core).ripe s.tick n = true →
      exec (.noticeRipe core entry) s = .next (s.mapCore core (fun k => k.putNotice { n with ripe := true }))) ∧
    (∀ msg bits con entry seg, s.postOf msg = some (.request bits s.devnum con entry seg) →
      let k := (s.unpost msg).coreWith (noticeProd bits) (fun k => (k.named (noticeBid bits)).isSome)
      (∀ slot, k.named (noticeBid bits) = some slot → s.segmentShared (noticeProd bits) k slot seg = false →
        exec (.segmentRead msg) s = .next ((s.unpost msg).post (.response bits s.devnum con entry seg ((s.unpost msg).readSegment k slot seg) false))) ∧
      (k.named (noticeBid bits) = none →
        exec (.segmentRead msg) s = .next ((s.unpost msg).post (.response bits s.devnum con entry seg [] true)))) ∧
    (∀ entry seg rest n p bits dev data w, (s.core core).helm.queue = (entry, seg) :: rest → (s.core core).noticeAt entry = some n →
      s.posts = [p] → p.msg = .response bits dev (s.consumerId core) entry seg data w →
      (w = false → n.withdrawn = false → n.landed + 1 = segmentsOf (noticeSize n.bits) →
        (n.kind = 2 → s.mayArrive core n.bits = true) ∧
        (n.dev = s.devnum → s.cycleClosed (noticeProd n.bits) (noticeBid n.bits) = false)) →
      exec (.segmentLand core) s = .next ((s.unpost p.id).landSegment core n seg data w)) ∧
    exec (.collSegmentApply core) s = .next (s.mapCore core (fun k => k.applySegment (s.cycleOf core)))

/-! ### Tiles, launches and shards (chapters 13 to 15) -/

/-- A tile whose work is finished leaves its core and counts as done; a dead tile, or one on a fenced core, ends by fault and its launch
is marked faulted (R47, R314, R370). Completes TILE_END and TILE_END_BY_FAULT. A core whose sequencers can never go on takes the
token-deadlock fault on its first sequencer that has not halted (R251). Completes TOKEN_DEADLOCK. A remote block's bytes are copied 512 at
a time at the Helm's pace, the last of them with an acquire of what its issuer released, and a block whose words have all entered leaves
the inbox (R272, R317). Completes REMOTE_BLOCK_SERVE. Parts of it are the model's choice: log 46, 47, 49 and 50. -/
def Obligations.TileSteps : Prop :=
  (∀ (core : Nat) (t : Tile) (s : State), core < 512 → (s.core core).tile = some t →
     ((s.core core).finished = true → s.coreFenced core = false →
       exec (.tileEnd core) s = .next ((s.leaveTile core).mapLaunch t.queue t.lseq (fun l =>
         { l with running := l.running - 1, done := l.done ++ [t.index] }))) ∧
     (t.killed = false → (t.dead = true ∨ s.coreFenced core = true) →
       exec (.tileEndByFault core) s =
         .next (((s.mapLaunch t.queue t.lseq (fun l => { l with faulted := true })).endStopped core (fun l => l)).settleYields)) ∧
     (t.dead = false → s.coreFenced core = false → exec (.tileEndByFault core) s = .next s)) ∧
  (∀ (core : Nat) (q : SeqId) (s : State), core < 512 → s.deadlocked core = true →
     allSeqs.find? (fun q => !((s.core core).seq q).halted) = some q →
     exec (.tokenDeadlock core) s = .next { { s with cur := ⟨core, q, 0⟩ }.takeTrap (.bare .tokenDeadlock) with cur := s.cur }) ∧
  (∀ (core : Nat) (b : RemoteBlock) (rest : List RemoteBlock) (s : State), core < 512 → (s.core core).inbox = b :: rest →
     (s.core core).working = true → s.coreFenced core = false →
     let holds (m : Core) : Bool := m.ranges.any (fun r => r.owner == .remq core b.id)
     let source := s.coreWith b.source holds
     (holds source = true → (s.core core).mayRequest s.tick = true →
       b.bytes.length + 512 < b.length source.spad →
       exec (.remoteBlockServe core) s = .next (s.mapCore core (fun k => { k with
         inbox := { b with bytes := b.bytes ++ source.spad.readBytes (b.offset + b.bytes.length) 512 } :: rest,
         helm := { k.helm with lastRequest := some s.tick } }))) ∧
     (holds source = true → (s.core core).mayRequest s.tick = true →
       b.length source.spad - b.bytes.length ≤ 512 → b.bytes.length ≤ b.length source.spad →
       let t := s.mapCore core (fun k => { k with
         inbox := { b with bytes := b.bytes ++ source.spad.readBytes (b.offset + b.bytes.length) (b.length source.spad - b.bytes.length) } :: rest,
         helm := { k.helm with lastRequest := some s.tick } })
       exec (.remoteBlockServe core) s = .next ((t.mapCoreWith b.source holds (fun m =>
         m.dropRanges (t.cycleOf b.source) (.remq core b.id))).acquireCaches core (narrowest core b.source))) ∧
     (holds source = false → bytesNat (b.bytes.take 2) ≠ 0 → bytesNat (b.bytes.take 2) ≤ 252 → bytesNat ((b.bytes.drop 2).take 6) = 0 →
       bytesNat (b.bytes.take 2) ≤ b.entered →
       exec (.remoteBlockServe core) s = .next (s.mapCore core (fun k => { k with inbox := rest }))))

/-- Writing QCTL: ENABLE of a disabled queue with a good configuration starts it at LSEQ 0, a bad one is refused with the configuration
fault; ENABLE of a faulted queue lets it go on; DRAIN and ABORT move it on; the doorbell moves QWR in steps of 16 bytes (R304 to R306,
R321). Completes QCTL_ENABLE, QCTL_DRAIN, QCTL_ABORT, QUEUE_DRAIN_DONE, QUEUE_ABORT_DONE and QWR_DOORBELL. Parts of it are the model's
choice: log 51 and 68. -/
def Obligations.QueueControl : Prop :=
  ∀ (q value : Nat) (s : State), q < 16384 →
    let x := s.queue q
    let bad := x.weight == 0 || x.cent == 0 || decide (65536 < x.cent.toNat) || decide (x.qsize.toNat < 128) ||
      decide (16777200 < x.qsize.toNat) || decide (x.qsize.toNat ≤ x.qrd.toNat) || decide (x.qsize.toNat ≤ x.qwr.toNat) ||
      s.shards.wfence.getLsbD x.asid || s.mgmt.sfctl.getLsbD 0 || s.trust.lcstate == .scrapped || s.trust.bootst % 4 == 2
    (x.state = .disabled → ∃ t, exec (.qctlEnable q) s = .next t ∧
      (bad = false → (t.queue q).state = .enabled ∧ (t.queue q).lseq = 0 ∧ (t.queue q).fault = 0) ∧
      (bad = true → (t.queue q).state = .disabled ∧ (t.queue q).fault = badConfig) ∧ (∀ p, p ≠ q → t.queue p = s.queue p)) ∧
    (x.state = .faulted →
      exec (.qctlEnable q) s = .next (s.mapQueue q (fun x => { x with state := .enabled, fault := 0, pull := none }))) ∧
    (x.state = .enabled ∨ x.state = .faulted →
      exec (.qctlDrain q) s = .next (s.mapQueue q (fun x => { x with state := .draining })).settleYields) ∧
    (x.state = .enabled ∨ x.state = .faulted ∨ x.state = .draining → exec (.qctlAbort q) s = .next (s.abortQueue q)) ∧
    (x.state = .draining → s.queueEmpty q = true →
      exec (.queueDrainDone q) s = .next (s.mapQueue q (fun x => { x with state := .disabled }))) ∧
    (x.state = .aborting → s.cores.all (fun x => match x.2.tile with
        | some t => !(t.queue == q && t.killed)
        | none => true) = true → s.queueEmpty q = true →
      exec (.queueAbortDone q) s = .next (s.mapQueue q (fun x => { x with state := .disabled }))) ∧
    (∃ t, exec (.qwrDoorbell q value) s = .next t ∧ (t.queue q).qwr.toNat = value % 2 ^ 24 / 16 * 16 ∧
      (t.queue q).qrd = x.qrd ∧ (t.queue q).state = x.state ∧ (∀ p, p ≠ q → t.queue p = s.queue p) ∧ t.cores = s.cores ∧ t.hbm = s.hbm)

/-- Launches: a packet of VER 1 with a good layout is read at QRD, one of another device's memory or the host's by a pull, and becomes a
launch with the next LSEQ; a core offered by the arbiter receives a tile, or the saved tile that waits for it; a launch whose tiles have
ended writes its completion record, and is complete with it or, where it lies elsewhere, with its acknowledgement; a pre-emption picks a
victim and its tile stops; a stopped tile is saved (R307 to R320, R360). Completes PACKET_READ, CORE_OFFER, TILE_RESUME, LAUNCH_COMPLETE,
PREEMPT_TRIGGER and CONTEXT_SAVE. Parts of it are the model's choice: log 52 to 56. -/
def Obligations.LaunchSteps : Prop :=
  ∀ (core q lseq : Nat) (s : State), core < 512 → q < 16384 →
    (let x := s.queue q
     let bytes := s.physReadBytes true (ringAddress x.qbase + x.qrd.toNat) 64
     let l : Launch :=
       { queue := q, lseq := x.lseq.toNat, packet := bytes, next := 0, running := 0, done := [], faulted := false,
         aborted := false, refusedWith := 0, tstart := none, nfault := 0, dies := [] }
     let a := ringAddress x.qbase + x.qrd.toNat
     let r := s.recordAddress q x.lseq.toNat + 4
     x.state = .enabled → x.qrd ≠ x.qwr → x.qrd.toNat + 64 ≤ x.qsize.toNat → s.checkpoint.holdsDispatch = false →
     s.isRemote a = false → s.isRemote r = false → s.recordPending r 1 = false → s.launches = [] → l.field 0 1 = 1 → l.scratch % 16384 = 0 → l.scratch ≤ 294912 → l.bad x.cent.toNat x.lseq.toNat = false →
     ∃ t, exec (.packetRead q) s = .next t ∧ t.launches = [l] ∧ (t.queue q).lseq = x.lseq + 1 ∧
       (t.queue q).qrd.toNat = (if x.qrd.toNat + 64 = x.qsize.toNat then 0 else x.qrd.toNat + 64) % 2 ^ 24 ∧
       (∀ p, p ≠ q → t.queue p = s.queue p) ∧
       (∀ c, (t.core c).spad = (s.core c).spad ∧ ∀ i, (t.core c).seq i = (s.core c).seq i)) ∧
    (let x := s.queue q
     let a := ringAddress x.qbase + x.qrd.toNat
     let r := s.recordAddress q x.lseq.toNat + 4
     x.state = .enabled → x.qrd ≠ x.qwr → s.checkpoint.holdsDispatch = false → s.launches = [] → s.isRemote a = true →
     s.ringOpen a = true → s.ringOpen r = true → s.recordPending r 1 = false → x.pull = none →
     exec (.packetRead q) s = .next (s.mapQueue q (fun x => { x with pull := some (a, none) }))) ∧
    (∀ c t l, s.offered core = true → s.arbitrate core = some (c, t) → s.savedOn c core = none → s.launchFor c core = some l →
      ((l.group (dieOf core)).isSome && !l.dies.contains (dieOf core)) = false →
      exec (.coreOffer core) s = .next ((t.dispatch core l).countDecision c)) ∧
    (∀ c t l m, s.offered core = true → s.arbitrate core = some (c, t) → s.savedOn c core = none → s.launchFor c core = some l →
      ((l.group (dieOf core)).isSome && !l.dies.contains (dieOf core)) = true →
      ((s.setMembership l (dieOf core)).launchFor c core = none →
        exec (.coreOffer core) s = .next (s.setMembership l (dieOf core))) ∧
      ((s.setMembership l (dieOf core)).launchFor c core = some m →
        exec (.coreOffer core) s =
          .next (((t.setMembership l (dieOf core)).dispatch core { m with dies := m.dies }).countDecision c))) ∧
    (∀ c t x, s.offered core = true → s.arbitrate core = some (c, t) → s.savedOn c core = some x →
      ∃ u, exec (.tileResume core) s = .next u ∧ (u.core core).v = x.state.v ∧ (u.core core).acc = x.state.acc ∧
        (u.core core).em = x.state.em ∧ (u.core core).spad = x.state.spad ∧ (u.core core).fflags = x.state.fflags ∧
        (∀ q, (u.core core).seq q = x.state.seq q)) ∧
    (∀ l st, s.launches.find? (fun l => l.queue == q && l.lseq == lseq) = some l → s.launchStatus l = some st →
      let a := s.recordAddress q lseq
      let t := (s.discardContexts (fun x => x.state.launchOf == some (q, lseq))).writeRecord a (s.completionRecord l st) (some (q, lseq))
      s.recordPending a 64 = false → s.ringOpen a = true →
      exec (.launchComplete q lseq) s = .next (if s.isRemote a = true then t else t.finishLaunch q lseq)) ∧
    (∀ l c x, s.dispatchable q = some l → s.checkpoint.holdsDispatch = false →
      (List.range l.ncore).any (fun i => (s.core (l.first + i)).tile.isNone && !s.coreFenced (l.first + i)) = false →
      s.victim q l = some (c, x) →
      exec (.preemptTrigger q) s = .next ((s.retractCount c).mapCore c (fun k =>
        { k.abandonAll with tile := k.tile.map (fun t => { t with stopping := true }) }))) ∧
    (∀ t, (s.core core).tile = some t → t.stopping = true → t.dead = false → t.killed = false → s.coreFenced core = false →
      s.maySave core = true →
      ∃ u, exec (.contextSave core) s = .next u ∧ (u.core core).tile = none ∧
        u.contexts = s.contexts ++ [⟨t.queue, s.contextSlot t.queue, core, s.cycleOf core, (s.core core).saved⟩])

/-- Shard commands: a command runs when it is the one written, or when none stands; INGRESS and LOCAL register an entry that passes its
check or leave the check's code; RELEASE of an entry that is in use and whose ASID no queue runs zeroes its bytes and leaves code 0;
clearing WFENCE bits; checks that end move the entry's state (R336 to R343). Completes WCMD_INGRESS, WCMD_LOCAL, WCMD_RELEASE,
SHARD_BLOCK_WRITE, SHARD_LOCAL_CHECK_DONE, SHARD_INGRESS_CHECK_DONE, SHARD_PATROL_PASS and WFENCE_CLEAR. Parts of it are the model's
choice: log 57, 117 and 118. -/
def Obligations.ShardSteps : Prop :=
  ∀ (e index value addr : Nat) (data : List Byte) (s : State), e < 4096 →
    (s.wcmdRuns 1 e = true → s.registerCheck e true ≠ 0 → exec (.wcmdIngress e) s = .next (s.wcmdResult (s.registerCheck e true))) ∧
    (s.wcmdRuns 2 e = true → s.registerCheck e false ≠ 0 → exec (.wcmdLocal e) s = .next (s.wcmdResult (s.registerCheck e false))) ∧
    (s.registerCheck e true = 0 → exec (.wcmdIngress e) s = .next (s.registerShard e true)) ∧
    (s.registerCheck e false = 0 → exec (.wcmdLocal e) s = .next (s.registerShard e false)) ∧
    (s.wcmdRuns 1 e = false → exec (.wcmdIngress e) s = .next s) ∧ (s.wcmdRuns 2 e = false → exec (.wcmdLocal e) s = .next s) ∧
    (s.wcmdRuns 3 e = false → exec (.wcmdRelease e) s = .next s) ∧
    (s.wcmdRuns 3 e = true → e < s.shardCount → s.entryState e ≠ shardFree → s.asidActive (s.entryAsid e) = false →
      ∃ t, exec (.wcmdRelease e) s = .next t ∧ t.shards.wcmd = 0 ∧ t.shards.busy = none ∧ Table.get [] t.shards.landed e = [] ∧ t.cores = s.cores ∧
        t.queues = s.queues ∧ (∀ a, s.entryBase e ≤ a → a < s.entryBase e + s.entryLength e → t.hbm.read a = 0)) ∧
    (s.wcmdRuns 3 e = true → e < s.shardCount → s.entryState e ≠ shardFree → s.asidActive (s.entryAsid e) = true →
      exec (.wcmdRelease e) s = .next (s.wcmdResult 4)) ∧
    (s.loadingAt addr = some e → exec (.shardBlockWrite addr data) s = .next (s.shardBlocks e addr data)) ∧
    (e < s.shardCount → s.entryState e = shardChecking →
      (s.badFrame (s.entryBase e) (s.entryLength e) = true → exec (.shardLocalCheckDone e) s = .next (s.quarantine e 5)) ∧
      (s.badFrame (s.entryBase e) (s.entryLength e) = false →
        (s.digestOk e = true → exec (.shardLocalCheckDone e) s = .next (s.validate e)) ∧
        (s.digestOk e = false → exec (.shardLocalCheckDone e) s = .next (s.quarantine e 2)))) ∧
    (e < s.shardCount → s.entryState e = shardLoading → (Table.get [] s.shards.landed e).length = s.entryLength e / 16 →
      let key := Table.get zeroKey s.trust.keys (s.entryAsid e)
      let iv := s.entryBytes e 16 12
      let tagged := gcmTag key iv (gcmCrypt key iv 0 (s.shardText e)) = s.entryBytes e 32 16
      (¬tagged → exec (.shardIngressCheckDone e) s = .next (s.quarantine e 1)) ∧
      (tagged → s.digestOk e = false → exec (.shardIngressCheckDone e) s = .next (s.quarantine e 2)) ∧
      (tagged → s.digestOk e = true → exec (.shardIngressCheckDone e) s =
        .next ({ s with shards := { s.shards with landed := Table.set [] s.shards.landed e [] } }.validate e))) ∧
    (s.shards.wpatrol ≠ 0 → s.shards.patrolAt + s.shards.wpatrol * ticksPerSecond ≤ s.tick →
      ∃ t, exec .shardPatrolPass s = .next t ∧ t.shards.patrolAt = s.tick) ∧
    (index < 4 → ∃ t, exec (.wfenceClear index value) s = .next t ∧
      (∀ i, i < 256 → t.shards.wfence.getLsbD i =
        (s.shards.wfence.getLsbD i && !(decide (i / 64 = index) && value.testBit (i % 64)))) ∧
      t.cores = s.cores ∧ t.hbm = s.hbm)

/-! ### Links, faults, trust, power and time (chapters 17 to 21) -/

/-- Ports: PCFG is written while the port is down; training ends up, or down where the peer is the device itself, or down at the timeout;
offers join the queue of an up port and are pulled within WPACE and WINGR; a replay counts; a port past its limits is fenced (R351, R358,
R359, R374, R393). Completes PCFG_WRITE, PORT_TRAINED, PORT_TRAINING_TIMEOUT, WRITE_OFFER_ARRIVAL, WRITE_OFFER_PULL, FLIT_REPLAY,
PORT_FENCE and REMOTE_READ_REQUEST. Parts of it are the model's choice: log 62 and 70. -/
def Obligations.PortSteps : Prop :=
  ∀ (p : Nat) (s : State), p < 24 →
    (∀ value, exec (.pcfgWrite p value) s = .next (s.writePcfg p (BitVec.ofNat 64 value))) ∧
    (∀ value, (s.port p).state ≠ .down → exec (.pcfgWrite p value) s = .next s) ∧
    (∀ peer, peer < 1024 → (s.port p).state = .training → s.tick < (s.port p).trainStart + 130000000 →
      ((s.port p).mode = 1 → peer = s.devnum → ∃ t, exec (.portTrained p peer) s = .next t ∧ (t.port p).state = .down) ∧
      (¬((s.port p).mode = 1 ∧ peer = s.devnum) → ∃ t, exec (.portTrained p peer) s = .next t ∧ (t.port p).state = .up ∧
        (t.port p).peer = (if (s.port p).mode = 1 then peer else 0) ∧ (t.port p).credit = s.tick ∧
        (∀ q, q ≠ p → t.port q = s.port q))) ∧
    ((s.port p).state = .training → (s.port p).trainStart + 130000000 ≤ s.tick →
      ∃ t, exec (.portTrainingTimeout p) s = .next t ∧ (t.port p).state = .down ∧ (∀ q, q ≠ p → t.port q = s.port q)) ∧
    (∀ o, (s.port p).state = .up → ∃ t, exec (.writeOfferArrival p o) s = .next t ∧ (t.port p).offers = (s.port p).offers ++ [⟨o, s.nextId⟩] ∧
      (t.port p).credit = s.tick ∧ t.hbm = s.hbm ∧ t.cores = s.cores) ∧
    (∀ y rest, (s.port p).offers = y :: rest → (s.port p).state = .up →
      (∀ t, (s.port p).lastPull = some t → t + (s.port p).wpace ≤ s.tick) →
      (s.port p).progress = 0 → y.offer.data.length ≤ 512 → (s.port p).outstanding + y.offer.data.length ≤ (s.port p).wingr →
      ∃ t, exec (.writeOfferPull p) s = .next t ∧ (t.port p).offers = rest ∧ (t.port p).asked = (s.port p).asked ++ [y] ∧
        (t.port p).pulls = (s.port p).pulls ++ [(y.offer.dev, y.offer.core, y.offer.entry, y.offer.data.length)] ∧
        t.posts = s.posts ++ [⟨s.nextId, .pull s.devnum y.offer.dev y.offer.core y.offer.entry y.offer.data.length, s.tick, 0, none⟩] ∧
        (t.port p).lastPull = some s.tick ∧ t.hbm = s.hbm) ∧
    (∀ y rest, (s.port p).offers = y :: rest →
      (s.port p).wingr < (s.port p).outstanding + min 512 (y.offer.data.length - (s.port p).progress) →
      exec (.writeOfferPull p) s = .next s) ∧
    ((s.port p).state = .up → ∃ t, exec (.flitReplay p) s = .next t ∧ (t.port p).errors = (s.port p).errors + 1 ∧
      (t.port p).replays = ((s.port p).replays + 1) % 2 ^ 32) ∧
    ((s.port p).state = .up → (replayLimit ≤ (s.port p).errors ∨ (s.port p).credit + creditLimit ≤ s.tick) →
      ∃ t, exec (.portFence p) s = .next t ∧ t = s.fencePort p) ∧
    (∀ addr n, (s.port p).state = .up → n ≤ 512 → ∃ t, exec (.remoteReadRequest p addr n) s = .next t ∧ t.hbm = s.hbm ∧
      t.cores = s.cores ∧ (t.port p).credit = s.tick)

/-- Writes between devices and the host's accesses: an acknowledged entry leaves the buffer and its bytes stand at their home, a refused
one is a fault; a pulled write is performed and answered, a host's write for another device offered there in turn; the host's read is
answered, over a port in host mode or, bridged, in peer mode, and its write becomes an offer; messages leave by the candidate port with
the most free credits, or come back (R19, R347 to R359). Completes REMOTE_WRITE_ACK, REMOTE_WRITE_PERFORM, HOST_REGISTER_ACCESS,
REGISTER_WRITE, FLIT_FORWARD and UNDELIVERABLE_RETURN. Parts of it are the model's choice: log 17, 52, 68, 69, 72 and 119. -/
def Obligations.RemoteSteps : Prop :=
  ∀ (s : State),
    (∀ core entry e, core < 512 → s.underWay core entry = false →
      (s.core core).posted.find? (fun e => e.entry == entry && e.sent && e.given == e.data.length) = some e →
      let u := s.mapCore core (fun k => { k with posted := k.posted.erase e })
      exec (.remoteWriteAck core entry .ok) s = .next (u.writeOutside e.addr e.data e.holes) ∧
      (∀ answer c, answer ≠ .undeliverable → answerCause answer = some c →
        exec (.remoteWriteAck core entry answer) s = .next (u.writeFault core e c 0))) ∧
    (∀ p y, p < 24 → (s.port p).pulled.find? (fun y => s.offerReady p y) = some y →
      let o := y.offer
      let u := s.mapPort p (fun x => { x with pulled := x.pulled.erase y })
      (∀ a, s.place o.addr = .hbm a → exec (.remoteWritePerform p) s =
        .next ((u.homeWrite o.addr o.data).1.acknowledge p o (u.homeWrite o.addr o.data).2)) ∧
      (∀ off, s.place o.addr = .window off →
        exec (.remoteWritePerform p) s =
          .next (if o.fromHost = true then (u.hostWriteBytes off o.data).acknowledge p o .ok else u.acknowledge p o .registers)) ∧
      (∀ dev, s.place o.addr = .remote dev → o.fromHost = true → exec (.remoteWritePerform p) s =
        .next ((u.mapPort p (fun x => { x with forwarded := x.forwarded ++ [(o, 0)] })).post (.offer o.addr s.devnum (512 + p) o.entry))) ∧
      (s.place o.addr = .unbacked ∨ s.place o.addr = .host → o.data ≠ [] → exec (.remoteWritePerform p) s =
        .next (u.acknowledge p o .unbacked))) ∧
    (∀ p addr data, p < 24 → (s.port p).state = .up → (s.port p).mode = 2 →
      ∃ t, exec (.hostRegisterAccess p (.write addr data)) s = .next t ∧ t.nextId = s.nextId + 1 ∧
        (t.port p).offers = (s.port p).offers ++ [⟨⟨addr, data, true, s.devnum, 512 + p, s.nextId⟩, s.nextId⟩] ∧ t.hbm = s.hbm ∧ t.cores = s.cores) ∧
    (∀ p addr n, p < 24 → (s.port p).state = .up → ((s.port p).mode = 2 ∨ (s.port p).mode = 1) →
      ((s.windowAt addr).any linkRegister = true → s.linkAccessBefore s.nextId = false) →
      ∃ t, exec (.hostRegisterAccess p (.read addr n)) s = .next t ∧
        (t.port p).answers.length = (s.port p).answers.length + 1 ∧ (t.port p).credit = s.tick ∧ t.hbm = s.hbm ∧ t.cores = s.cores ∧
        (∀ off, s.place addr = .window off → off % 8 + n ≤ 8 → (t.port p).answers = (s.port p).answers ++
          [some (((natBytes 8 ((s.credited p).hostRead (off / 8 * 8)).toNat).drop (off % 8)).take n)])) ∧
    (∀ p addr, p < 24 → (s.port p).state ≠ .up → ∀ n, exec (.hostRegisterAccess p (.read addr n)) s = .next s) ∧
    (∀ off value, off % 8 = 0 → exec (.registerWrite off value) s = .next (s.hostWrite off (BitVec.ofNat 64 value))) ∧
    (∀ msg m port, s.posts.find? (fun p => p.id == msg) = some m → (s.way m.msg).bind (fun ports => s.bestPort m.lane ports) = some port →
      m.hops < 8 → m.msg.flits ≤ (s.port port).credits m.lane →
      ∃ t, exec (.flitForward msg) s = .next t ∧ (t.port port).sending = (s.port port).sending ++ [⟨m.msg, m.lane, m.msg.flits, 0⟩] ∧
        (t.port port).used = Table.set 0 (s.port port).used m.lane (Table.get 0 (s.port port).used m.lane + m.msg.flits) ∧
        t.posts = s.posts.filter (fun p => p.id != msg)) ∧
    (∀ msg m ports, s.posts.find? (fun p => p.id == msg) = some m → s.way m.msg = some ports → (8 ≤ m.hops ∨ ports = []) →
      (∀ x info, m.msg ≠ .undelivered x info) →
      exec (.undeliverableReturn msg) s = .next ((s.unpost msg).sendBack m.msg 0))

/-- ECC errors: a corrected error counts; an uncorrectable error fences what it names, retires an L2 way or an HBM frame, or is counted; a
stack that loses training or whose base die fails is fenced; the patrol scrub corrects in place (R17, R204, R371 to R374). Completes
ECC_CORRECTED, ECC_UNCORRECTABLE, STACK_LOSES_TRAINING, BASE_DIE_ERROR and PATROL_SCRUB. Parts of it are the model's choice: log 58, 60
and 61. -/
def Obligations.EccSteps : Prop :=
  ∀ (s : State),
    (∀ c, c < 512 → exec (.eccCorrected (.coreArray c)) s = .next (s.countCluster (clusterOf c) 1 0)) ∧
    (∀ f, siteOk (.hbmFrame f) = true → exec (.eccCorrected (.hbmFrame f)) s = .next (s.countStack (f / 2 ^ 20) 1 0 0)) ∧
    (∀ f, siteOk (.hbmFrame f) = true → exec (.eccUncorrectable (.hbmFrame f)) s = .next (s.retireFrame f)) ∧
    (∀ c, c < 512 → ∃ t, exec (.eccUncorrectable (.coreArray c)) s = .next t ∧ t.faults.fcore.getLsbD c = true) ∧
    (∀ c, c < 32 → exec (.eccCorrected (.clusterTlb c)) s = .next (s.countCluster c 1 0) ∧
      exec (.eccCorrected (.barrierNet c)) s = .next s ∧ exec (.eccUncorrectable (.barrierNet c)) s = .next (s.fenceCluster c) ∧
      ∃ t, exec (.eccUncorrectable (.clusterTlb c)) s = .next t ∧ t.faults.fclu.getLsbD c = true) ∧
    (∀ u, u < 240 → exec (.eccCorrected (.baseUnit u)) s = .next (s.countStack (u / 10) 1 0 0) ∧
      ∃ t, exec (.eccUncorrectable (.baseUnit u)) s = .next t ∧ t.faults.funit.getLsbD u = true ∧ t.hbm = s.hbm ∧ t.cores = s.cores) ∧
    (∀ sl st w, sl < 4 → st < 16384 → w < 36 →
      (∃ t, exec (.eccCorrected (.l2Way sl st w)) s = .next t ∧ t.hbm = s.hbm ∧ t.l2 = s.l2 ∧ t.cores = s.cores) ∧
      (let way := sl * 2 ^ 20 + st * 2 ^ 6 + w
       (s.retiredWays.contains way = true → exec (.eccUncorrectable (.l2Way sl st w)) s = .next s) ∧
       (s.retiredWays.contains way = false → ∃ t, exec (.eccUncorrectable (.l2Way sl st w)) s = .next t ∧
         t.retiredWays = way :: s.retiredWays ∧ t.hbm = s.hbm ∧ t.cores = s.cores))) ∧
    (∀ d, d < 4 → exec (.eccCorrected (.bridge d)) s = .next s ∧
      exec (.eccUncorrectable (.bridge d)) s = .next { s with faults := { s.faults with bridges := setBit s.faults.bridges d true } }) ∧
    (∀ p, p < 24 → exec (.eccCorrected (.port p)) s = .next s ∧ exec (.eccUncorrectable (.port p)) s = .next (s.fencePort p)) ∧
    (∀ st, st < 24 → exec (.stackLosesTraining st) s = .next (s.fenceStack st) ∧ exec (.baseDieError st) s = .next (s.fenceStack st)) ∧
    exec .patrolScrub s = .next s

/-- Clearing fences and counts: a written 1 lifts a fence and wipes what it covered; FLLOST and the error counters are cleared by the bits
written (R366, R367, R372, R374, R375). Completes UNFENCE_CORE, UNFENCE_CLUSTER, UNFENCE_STACK, UNFENCE_UNIT, FLLOST_CLEAR and
ERROR_COUNT_CLEAR. Parts of it are the model's choice: log 58 and 59. -/
def Obligations.RecoveryWrites : Prop :=
  ∀ (s : State),
    (∀ c, c < 512 → s.faults.fcore.getLsbD c = true → (s.core c).tile = none →
      ∃ t, exec (.unfenceCore (c / 64) (2 ^ (c % 64))) s = .next t ∧ t.faults.fcore.getLsbD c = false ∧ t.core c = Core.reset) ∧
    (∀ c, c < 32 → s.faults.fclu.getLsbD c = false → exec (.unfenceCluster (2 ^ c)) s = .next s) ∧
    (∀ c, c < 32 → s.faults.fclu.getLsbD c = true → (∀ i, i < 16 → (s.core (16 * c + i)).tile = none) →
      ∃ t, exec (.unfenceCluster (2 ^ c)) s = .next t ∧ t.faults.fclu.getLsbD c = false ∧
        (∀ i, i < 16 → t.core (16 * c + i) = Core.reset)) ∧
    (∀ st, st < 24 → s.faults.fstack.getLsbD st = true → s.shardsIn (2 ^ 36 * st) (2 ^ 36) = [] →
      ∃ t, exec (.unfenceStack (2 ^ st)) s = .next t ∧ t.faults.fstack.getLsbD st = false ∧
        (∀ a, 2 ^ 36 * st ≤ a → a < 2 ^ 36 * st + 2 ^ 36 → t.hbm.read a = 0)) ∧
    (∀ i v, i < 4 → ∃ t, exec (.unfenceUnit i v) s = .next t ∧ (∀ u, u < 256 → t.faults.funit.getLsbD u =
      (s.faults.funit.getLsbD u && !(decide (u / 64 = i) && v.testBit (u % 64)))) ∧ t.cores = s.cores ∧ t.hbm = s.hbm) ∧
    (∀ v, v % 2 ^ 64 ≠ 0 → exec (.fllostClear v) s = .next { s with faults := { s.faults with fllost := 0 } }) ∧
    (∀ v, v % 2 ^ 64 = 0 → exec (.fllostClear v) s = .next s) ∧
    (∀ i v, i < 24 → ∃ t, exec (.errorCountClear false i v) s = .next t ∧
      Table.get (0, 0, 0) t.faults.ecnt i = (let x := Table.get (0, 0, 0) s.faults.ecnt i
        (if v / 2 ^ 32 % 2 ^ 32 = 0 then x.1 else 0, if v / 2 ^ 16 % 2 ^ 16 = 0 then x.2.1 else 0, if v % 2 ^ 16 = 0 then x.2.2 else 0)) ∧
      (∀ j, j ≠ i → Table.get (0, 0, 0) t.faults.ecnt j = Table.get (0, 0, 0) s.faults.ecnt j)) ∧
    (∀ i v, i < 32 → ∃ t, exec (.errorCountClear true i v) s = .next t ∧
      Table.get (0, 0) t.faults.eclu i = (let x := Table.get (0, 0) s.faults.eclu i
        (if v / 2 ^ 32 % 2 ^ 32 = 0 then x.1 else 0, if v % 2 ^ 32 = 0 then x.2 else 0)))

/-- Checkpoints: SAVE of an idle unit to a place outside stops every tile; once the cores are quiet the image is taken and CKSEQ rises;
the copy ends in DONE; an error in ERROR; RESTORE of a device whose queues are disabled runs and ends in DONE (R377 to R379). Completes
CKCTL_SAVE, CHECKPOINT_QUIESCED, CHECKPOINT_COPY_DONE, CHECKPOINT_ERROR, CKCTL_RESTORE and CHECKPOINT_RESTORE_DONE. Parts of it are the
model's choice: log 63. -/
def Obligations.CheckpointSteps : Prop :=
  ∀ (s : State),
    let c := s.checkpoint
    ((s.place c.dst.toNat = .host ∨ ∃ d, s.place c.dst.toNat = .remote d) → c.running = false → c.restoring = false →
      exec .ckctlSave s = .next ((s.withCheckpoint { c with state := .quiescing, frames := 0, bad := 0 }).stopAll)) ∧
    (c.state = .quiescing → s.records = [] → s.cores.any (fun x => x.2.tile.isSome || !x.2.posted.isEmpty) = false →
      ∃ t, exec .checkpointQuiesced s = .next t ∧ t.checkpoint.state = .copying ∧ t.checkpoint.seqno = c.seqno + 1 ∧
        t.checkpoint.image = s.l2Flush.hbm ∧ t.checkpoint.areas = s.l2Flush.areas ∧ t.hbm = s.hbm) ∧
    (c.state = .copying → s.routeOpen c.dst.toNat = true →
      ∃ t, exec .checkpointCopyDone s = .next t ∧ t.checkpoint.state = .done ∧ t.checkpoint.image = []) ∧
    (c.state = .copying → ∃ t, exec .checkpointError s = .next t ∧ t.checkpoint.state = .error ∧ t.checkpoint.image = []) ∧
    (c.running = false → c.restoring = false → s.queues.any (fun x => x.2.state != .disabled) = false →
      exec .ckctlRestore s = .next (s.withCheckpoint { c with restoring := true, frames := 0, bad := 0 })) ∧
    (c.restoring = true → ∃ t, exec .checkpointRestoreDone s = .next t ∧ t.checkpoint.state = .done ∧
      t.checkpoint.restoring = false ∧ t.contexts = [])

/-- Trust commands: a command runs when it is the one written, or when none stands; KEYINSTALL and KEYCLEAR that fail their check leave
its code in TCMD; KEYINSTALL derives the ASID's key from the shared secret and KEYCLEAR zeroes it; QUOTE outside PROVISIONED and DEPLOYED
is refused with code 3, and uses one signature index inside; LCCHANGE with a bad token leaves code 1 and a new nonce, and one whose token
is good enters the new state and resets (R382, R384 to R388). Completes TCMD_KEYINSTALL, TCMD_KEYCLEAR, TCMD_QUOTE and TCMD_LCCHANGE.
Parts of it are the model's choice: log 6 and 64. -/
def Obligations.TrustSteps : Prop :=
  ∀ (asid : Nat) (s : State), asid < 256 →
    (s.tcmdRuns 3 asid = true → s.keyCheck asid ≠ 0 → exec (.tcmdKeyinstall asid) s = .next (s.tcmdResult (s.keyCheck asid))) ∧
    (s.tcmdRuns 4 asid = true → s.keyCheck asid ≠ 0 → exec (.tcmdKeyclear asid) s = .next (s.tcmdResult (s.keyCheck asid))) ∧
    (s.tcmdRuns 4 asid = true → s.keyCheck asid = 0 →
      ∃ t, exec (.tcmdKeyclear asid) s = .next t ∧ Table.get zeroKey t.trust.keys asid = zeroKey ∧ t.trust.tcmd = 0 ∧ t.trust.busy = none ∧
        (∀ a, a ≠ asid → Table.get zeroKey t.trust.keys a = Table.get zeroKey s.trust.keys a)) ∧
    (s.tcmdRuns 3 asid = true → s.keyCheck asid = 0 →
      ∃ t, exec (.tcmdKeyinstall asid) s = .next t ∧ t.trust.tcmd = 0 ∧ t.trust.busy = none ∧
        Table.get zeroKey t.trust.keys asid = shake256 (kemShared s.trust.mlkem
          (s.physReadBytes false s.trust.tokaddr.toNat 1568) ++ natBytes 1 asid) 32 ∧
        (∀ a, a ≠ asid → Table.get zeroKey t.trust.keys a = Table.get zeroKey s.trust.keys a) ∧ t.hbm = s.hbm) ∧
    (s.tcmdRuns 1 0 = false → exec .tcmdLcchange s = .next s) ∧ (s.tcmdRuns 2 0 = false → exec .tcmdQuote s = .next s) ∧
    (s.tcmdRuns 2 0 = true → s.trust.lcstate ≠ .provisioned → s.trust.lcstate ≠ .deployed → exec .tcmdQuote s = .next (s.tcmdResult 3)) ∧
    (s.tcmdRuns 2 0 = true → (s.trust.lcstate = .provisioned ∨ s.trust.lcstate = .deployed) → s.trust.aidx < 2 ^ 40 →
      ∃ t, exec .tcmdQuote s = .next t ∧ t.trust.aidx = s.trust.aidx + 1 ∧ t.trust.tcmd = 0 ∧ t.trust.busy = none) ∧
    (s.tcmdRuns 1 0 = true → s.trust.bodyOk (s.physReadBytes false s.trust.tokaddr.toNat 64) = false →
      ∃ t, exec .tcmdLcchange s = .next t ∧ t.trust.tcmd = 1 ∧ t.trust.lcstate = s.trust.lcstate ∧
        t.trust.nonce = BitVec.ofNat 64 (Config.entropy s.trust.draws)) ∧
    (∀ target, let body := s.physReadBytes false s.trust.tokaddr.toNat 64
      let sig := s.physReadBytes false (s.trust.tokaddr.toNat + 64) 2820
      let t : State := { s with trust := { s.trust with
        nonce := BitVec.ofNat 64 (Config.entropy s.trust.draws), draws := s.trust.draws + 1 } }
      s.tcmdRuns 1 0 = true → s.trust.bodyOk body = true → s.trust.lcstate.next (body.getD 8 0).toNat = some target →
      s.queues.any (fun x => x.2.state != .disabled) = false →
      exec .tcmdLcchange s = .next (if s.trust.verifies body sig = true
        then { t with trust := { t.trust.enter target with pendingWipe := true } }.powerOn else t.tcmdResult 1))

/-- Power and start-up: a power-on reset outside a stop by heat begins bring-up from the reset values; power loss and a stop by heat wipe
everything but what the fuses and the key store keep, a stop by heat leaving the bytes of retired frames; a restart waits for 85 degrees;
STARTUP, which ends once the fifth step of bring-up has ended, BIST and their ends (R385, R386, R389 to R391, R395). Completes
POWER_ON_RESET, POWER_LOSS, THERMAL_STOP, THERMAL_RESTART, SFCTL_STARTUP_END, SFCTL_BIST and BIST_DONE. Parts of it are the model's
choice: log 10, 65, 66 and 120. -/
def Obligations.PowerSteps : Prop :=
  ∀ (s : State),
    (s.mgmt.thermalHold = false → exec .powerOnReset s = .next s.powerOn) ∧
    (∃ t, exec .powerLoss s = .next t ∧ t.cores = [] ∧ t.hbm = [] ∧ t.queues = [] ∧ t.trust = s.trust.kept ∧ t.outside = s.outside ∧
      t.mgmt.powered = false) ∧
    (105 ≤ s.mgmt.temp % 256 → s.mgmt.thermalHold = false →
      ∃ t, exec .thermalStop s = .next t ∧ t.mgmt.thermalHold = true ∧ t.cores = [] ∧ t.trust = s.trust.kept ∧
        (∀ a, t.hbm.read a = if s.retiredFrames.contains (frameOf a) then s.hbm.read a else 0)) ∧
    (s.mgmt.thermalHold = true →
      let m := s.mgmt.readHeat s.clock
      exec .thermalRestart s = .next (if 85 < m.temp % 256 then { s with mgmt := m } else s.powerOn)) ∧
    (∃ t, exec .sfctlStartupEnd s = .next t ∧
      t.mgmt.sfctl.getLsbD 0 = (s.mgmt.sfctl.getLsbD 0 && decide (s.mgmt.bringUp ≠ 5)) ∧ t.mgmt.sfctl.getLsbD 1 = s.mgmt.sfctl.getLsbD 1 ∧
      t.cores = s.cores) ∧
    (s.anyEnabled = false → ∃ t, exec .sfctlBist s = .next t ∧ t.mgmt.sfctl.getLsbD 1 = true) ∧
    (∃ t, exec .bistDone s = .next t ∧ t.mgmt.sfctl.getLsbD 1 = false ∧ t.mgmt.sfctl.getLsbD 0 = s.mgmt.sfctl.getLsbD 0)

/-- The clock split: a CLKCFG write that alters no cluster is applied at once and one that does stays pending until no altered cluster
holds a tile (R21, R392); the power manager samples once a millisecond, throttles above the cap or at 95 degrees, and keeps the average
over ten milliseconds within the cap (R394); a sensor read answers the last sample (R396). Completes CLKCFG_WRITE, CLKCFG_PENDING_APPLY,
POWER_MANAGER_CHECK and PLDM_SENSOR_READ. CHRONOMETER_TICK: the Chronometer rises by 1 modulo 2^64 and nothing else changes but the cycle
from which a core's token deadlock is timed, when no core has work that its cycle must do first, no cluster's count is late, no port has
trained too long and no millisecond of the power manager is over (R22, R243, R245, R251, R257, R393, R394). Completes CHRONOMETER_TICK.
Parts of it are the model's choice: log 67 and 71. -/
def Obligations.PowerManagement : Prop :=
  (∀ (s : State),
     (∀ die v, die < 4 → 8 < fieldOf (BitVec.ofNat 64 v) 0 4 → exec (.clkcfgWrite die v) s = .next s) ∧
     (∀ die v, die < 4 → exec (.clkcfgWrite die v) s = .next (s.writeClkcfg die (BitVec.ofNat 64 v))) ∧
     (∀ die d k, die < 4 → (s.clockOf die).pending = some (d, k) →
       (∀ i, i < 128 → (s.core (128 * die + i)).tile = none) →
       exec (.clkcfgPendingApply die) s = .next (s.setClock die { d := d, k := k, pending := none })) ∧
     (s.mgmt.checkAt + ticksPerMillisecond ≤ s.tick → ∃ t, exec .powerManagerCheck s = .next t ∧
       t.mgmt.pwrnow = min (Config.sensor 0 s.clock % 4096) (10 * s.mgmt.pwrcap - s.mgmt.powers.sum) ∧
       t.mgmt.powers = (t.mgmt.pwrnow :: s.mgmt.powers).take 9 ∧ t.mgmt.temp = (s.mgmt.readHeat s.clock).temp ∧ t.mgmt.checkAt = s.tick ∧
       t.mgmt.throttled = (decide (s.mgmt.pwrcap < t.mgmt.pwrnow) || decide (95 ≤ t.mgmt.temp % 256) ||
         (s.mgmt.throttled && !(decide (t.mgmt.pwrnow * 100 ≤ 98 * s.mgmt.pwrcap) && decide (t.mgmt.temp % 256 ≤ 92)))) ∧
       t.cores = s.cores) ∧
     (∀ n, n < 7 → ∃ t, exec (.pldmSensorRead n) s = .next t ∧ t.mgmt.sensors = s.mgmt.sensors ++
       [if n = 0 then s.mgmt.pwrnow else if n = 5 then s.mgmt.temp / 2 ^ 8 % 256 else if n = 6 then s.mgmt.temp / 2 ^ 16
         else s.mgmt.junctions.getD (n - 1) 0])) ∧
  (∀ (s : State),
     (s.cores.any (fun x => s.coreHolds x.1) = false → s.deviceLate = false →
       exec .chronometerTick s = .next { s.timeDeadlocks with chron := s.chron + 1 }) ∧
     (s.cores.any (fun x => s.coreHolds x.1) = true ∨ s.deviceLate = true → exec .chronometerTick s = .next s))

/-! ### Reset, decoding and the step -/

/-- What reset leaves: the Chronometer, program counters, g-registers, shadow stacks and trap registers at zero; DOMAIN 0xF0; HELMCFG with
PACE 3, AGE 0x400 and INGR 0x2000; every queue disabled with QCFG 0x10000; CLKCFG 0x800 split 0; ports down with their PCFG; SFCTL with
STARTUP set; PWRCAP 3600; WPATROL 600; STKLIM 64 (R22, R44, R45, R47, R304, R336, R358, R366, R389). -/
def Obligations.ResetValues : Prop :=
  let s := State.reset
  s.chron = 0 ∧
  (∀ c q, ((s.core c).seq q).pc = 0 ∧ (∀ n, ((s.core c).seq q).getG n = 0) ∧ ((s.core c).seq q).shadow = [] ∧
    ((s.core c).seq q).tvec = 0 ∧ ((s.core c).seq q).epc = 0 ∧ ((s.core c).seq q).ecause = 0 ∧ ((s.core c).seq q).sg = 0) ∧
  (∀ c, (s.core c).domain = 0xF0#8 ∧ (s.core c).helmcfg.toNat = 3 * 2 ^ 36 + 0x400 * 2 ^ 20 + 0x2000 ∧ (s.core c).fflags = 0 ∧
    (s.core c).frm = 0 ∧ (s.core c).rrb = 0 ∧ (s.core c).tile = none ∧ (∀ a, (s.core c).spad.read a = 0)) ∧
  (∀ q, (s.queue q).state = .disabled ∧ (s.queue q).qcfg = 0x10000#40) ∧
  (∀ d, (s.clockOf d).d = 0 ∧ (s.clockOf d).k = 8) ∧
  (∀ p, (s.port p).state = .down ∧ (s.port p).pcfg = 0x0000200000030000#64) ∧
  s.mgmt.sfctl = 1 ∧ s.mgmt.pwrcap = 3600 ∧ s.shards.wpatrol = 600 ∧ s.faults.stklim = 64

/-- The worked words of the spec decode to the instructions that it says they are. -/
def Obligations.WorkedWordsDecode : Prop :=
  decodeTableWord 128 0x00000000000000000000718500000001 = some (.add .plain ⟨5, 6, 7, 0, 0⟩) ∧
  decodeTableWord 128 0x00000000FFFFFFFC0018920000000110 = some (.b .plain ⟨0, 8, 9, 6, 0xFFFFFFFC, 0⟩) ∧
  decodeTableWord 128 0x0000000100000008DB00C2CA00000081 = some (.amo .plain ⟨10, 11, 12, 0, 3, 3, 0, 3, 8, 1⟩)

/-- Decoding the encoding of a well-formed instruction gives it back, with no byte left over: no operand and no header field of any word
or record is dropped or read elsewhere (R73, R77, R83, R84, R87, R88, R90, R91). -/
def Obligations.DecodeOfEncode : Prop :=
  ∀ (i : Instr), i.parts.isSome = true → i.wf = true → decode (encode i) = .ok (i, [])

/-- A step runs the decoded instruction: when the next turn is a sequencer's, the sequencer may issue and has its turn of the cycle, and
the bytes of its fetch line at the program counter decode to i, the step is exec of i, the turn being taken from the agenda and counted
and the cursor standing on the sequencer; where something is due to be delivered at its word boundary, that is settled with the state that
exec gives (R73, R76, R248, R363, R364). Words at the program counter that decode to nothing, and record headers at an address that is not
a multiple of 64, trap in the decoder (R74, R86). Parts of it are the model's choice: log 1. -/
def Obligations.StepRunsDecoded : Prop :=
  (∀ (s : State) (core : Nat) (q : SeqId) (rest : List Turn) (l : FetchLine) (i : Instr) (more : List Byte),
     s.agenda = .seq core q :: rest → core < 512 → s.mgmt.powered = true → s.mgmt.thermalHold = false → s.mgmt.temp % 256 < 105 →
     let k := s.core core
     let slot := if k.round.st = .running ∧ k.round.owner = q then k.round.nextSlot else 0
     let u : State := { s with agenda := rest, clock := s.clock + 1, cur := ⟨core, q, slot⟩ }
     let v := u.mapMySeq (fun r => r.turn u.cycle)
     s.mayIssue core q = true → s.hasTurn core q = true →
     (k.seq q).held (k.seq q).pc.toNat = some l →
     decode (l.bytes.drop ((k.seq q).pc.toNat % 128)) = .ok (i, more) →
     (isRecordMaj ((l.bytes.drop ((k.seq q).pc.toNat % 128)).headD 0).toNat = true → (k.seq q).pc.toNat % 64 = 0) →
     (k.hasDue q = false → step s = exec i v) ∧ (∀ t, exec i v = .next t → step s = .next (v.settleDue core q t))) ∧
  (∀ (s : State) (core : Nat) (q : SeqId) (rest : List Turn) (l : FetchLine),
     s.agenda = .seq core q :: rest → core < 512 → s.mgmt.powered = true → s.mgmt.thermalHold = false → s.mgmt.temp % 256 < 105 →
     let k := s.core core
     let slot := if k.round.st = .running ∧ k.round.owner = q then k.round.nextSlot else 0
     let u : State := { s with agenda := rest, clock := s.clock + 1, cur := ⟨core, q, slot⟩ }
     let t := u.mapMySeq (fun r => r.turn u.cycle)
     let bytes := l.bytes.drop ((k.seq q).pc.toNat % 128)
     s.mayIssue core q = true → s.hasTurn core q = true → (k.seq q).held (k.seq q).pc.toNat = some l →
     (isRecordMaj (bytes.headD 0).toNat = true → (k.seq q).pc.toNat % 64 ≠ 0 →
       step s = .next (t.settleDue core q (t.takeTrap (.virt .alignment (k.seq q).pc.toNat 3)))) ∧
     (∀ e, isRecordMaj (bytes.headD 0).toNat = false → decode bytes = .error e →
       step s = .next (t.settleDue core q (t.takeTrap (.bare .illegal)))) ∧
     (k.hasDue q = false → ∀ x, t.settleDue core q x = x))

/-- No word and no record ever stops the machine: whatever the state, carrying it out answers a next state (a trap, a wait or its effect).
-/
def Obligations.WordsNeverStop : Prop :=
  ∀ (i : Instr) (s : State), i.parts.isSome = true → ∃ t, exec i s = .next t

/-- A step never refuses, and it stops only where a turn names a unit that the part does not have. Parts of it are the model's choice: log
1. -/
def Obligations.StepsNeverRefuse : Prop :=
  ∀ (s : State), (∃ t, step s = .next t) ∨ step s = .fault .noSuchUnit

/-- g0 reads zero in every state, for every sequencer and every slot, and a write of g0 changes nothing (R27, R94). -/
def Obligations.GZero : Prop :=
  ∀ (s : State) (v : Word), s.g 0 = 0 ∧ (s.setG 0 v).mySeq = s.mySeq ∧ (s.setG 0 v).hbm = s.hbm ∧
    (∀ c, (s.setG 0 v).core c = s.core c)

/-- The canonical form of HBM and of the outside's memory holds at reset. Parts of it are the model's choice: log 8. -/
def Obligations.ResetMemoriesWf : Prop :=
 memoriesWf State.reset

/-- Every step keeps the canonical form of HBM and of the outside's memory: equal memories are equal data. -/
def Obligations.StepKeepsMemoriesWf : Prop :=
  ∀ (s t : State), memoriesWf s → step s = .next t → memoriesWf t
end

