-- ==== Sys2Proof/Laws/PerInstr.lean ====
section
/-! SUPPORT. For each constructor of Instr: its entry of the opcode map (R87, R90) and the map's inverse agree. -/

namespace Sys2Proof.Laws

/-- The format of some operands. -/
def formatOfOperands : Operands → Format
  | .reg _ => .reg
  | .imm _ => .imm
  | .jmp _ => .jmp
  | .mem _ => .mem
  | .vec _ => .vec
  | .eng _ => .eng
  | .record _ => .record

namespace PartsBack

/-- The opcode map's entry of an instruction leads back to it: its MAJ names the format of its operands, is no continuation's MAJ,
and MAJ, FN and operands give the instruction; an instruction without an entry has no encoding. -/
def Statement (i : Instr) : Prop :=
  match i.parts with
  | some (maj, fn, h, o) => maj < 256 ∧ fn < 256 ∧ maj ≠ 0xDF ∧ formatOf maj = some (formatOfOperands o) ∧ ofParts maj fn h o = some i
  | none => i.encoded = false

theorem add (h : Header) (o : RegOps) : Statement (.add h o) := ⟨by decide, by decide, by decide, rfl, rfl⟩
theorem sub (h : Header) (o : RegOps) : Statement (.sub h o) := ⟨by decide, by decide, by decide, rfl, rfl⟩
theorem mul (h : Header) (o : RegOps) : Statement (.mul h o) := ⟨by decide, by decide, by decide, rfl, rfl⟩
theorem mulh (h : Header) (o : RegOps) : Statement (.mulh h o) := ⟨by decide, by decide, by decide, rfl, rfl⟩
theorem mulhn (h : Header) (o : RegOps) : Statement (.mulhn h o) := ⟨by decide, by decide, by decide, rfl, rfl⟩
theorem div (h : Header) (o : RegOps) : Statement (.div h o) := ⟨by decide, by decide, by decide, rfl, rfl⟩
theorem divn (h : Header) (o : RegOps) : Statement (.divn h o) := ⟨by decide, by decide, by decide, rfl, rfl⟩
theorem rem (h : Header) (o : RegOps) : Statement (.rem h o) := ⟨by decide, by decide, by decide, rfl, rfl⟩
theorem remn (h : Header) (o : RegOps) : Statement (.remn h o) := ⟨by decide, by decide, by decide, rfl, rfl⟩
theorem neg (h : Header) (o : RegOps) : Statement (.neg h o) := ⟨by decide, by decide, by decide, rfl, rfl⟩
theorem min (h : Header) (o : RegOps) : Statement (.min h o) := ⟨by decide, by decide, by decide, rfl, rfl⟩
theorem max (h : Header) (o : RegOps) : Statement (.max h o) := ⟨by decide, by decide, by decide, rfl, rfl⟩
theorem minn (h : Header) (o : RegOps) : Statement (.minn h o) := ⟨by decide, by decide, by decide, rfl, rfl⟩
theorem maxn (h : Header) (o : RegOps) : Statement (.maxn h o) := ⟨by decide, by decide, by decide, rfl, rfl⟩
theorem and (h : Header) (o : RegOps) : Statement (.and h o) := ⟨by decide, by decide, by decide, rfl, rfl⟩
theorem or (h : Header) (o : RegOps) : Statement (.or h o) := ⟨by decide, by decide, by decide, rfl, rfl⟩
theorem xor (h : Header) (o : RegOps) : Statement (.xor h o) := ⟨by decide, by decide, by decide, rfl, rfl⟩
theorem andn (h : Header) (o : RegOps) : Statement (.andn h o) := ⟨by decide, by decide, by decide, rfl, rfl⟩
theorem not (h : Header) (o : RegOps) : Statement (.not h o) := ⟨by decide, by decide, by decide, rfl, rfl⟩
theorem shl (h : Header) (o : RegOps) : Statement (.shl h o) := ⟨by decide, by decide, by decide, rfl, rfl⟩
theorem shr (h : Header) (o : RegOps) : Statement (.shr h o) := ⟨by decide, by decide, by decide, rfl, rfl⟩
theorem sra (h : Header) (o : RegOps) : Statement (.sra h o) := ⟨by decide, by decide, by decide, rfl, rfl⟩
theorem rol (h : Header) (o : RegOps) : Statement (.rol h o) := ⟨by decide, by decide, by decide, rfl, rfl⟩
theorem clz (h : Header) (o : RegOps) : Statement (.clz h o) := ⟨by decide, by decide, by decide, rfl, rfl⟩
theorem ctz (h : Header) (o : RegOps) : Statement (.ctz h o) := ⟨by decide, by decide, by decide, rfl, rfl⟩
theorem popc (h : Header) (o : RegOps) : Statement (.popc h o) := ⟨by decide, by decide, by decide, rfl, rfl⟩
theorem sext (h : Header) (o : RegOps) : Statement (.sext h o) := ⟨by decide, by decide, by decide, rfl, rfl⟩
theorem zext (h : Header) (o : RegOps) : Statement (.zext h o) := ⟨by decide, by decide, by decide, rfl, rfl⟩
theorem andImm (h : Header) (o : ImmOps) : Statement (.andImm h o) := ⟨by decide, by decide, by decide, rfl, rfl⟩
theorem orImm (h : Header) (o : ImmOps) : Statement (.orImm h o) := ⟨by decide, by decide, by decide, rfl, rfl⟩
theorem xorImm (h : Header) (o : ImmOps) : Statement (.xorImm h o) := ⟨by decide, by decide, by decide, rfl, rfl⟩
theorem andnImm (h : Header) (o : ImmOps) : Statement (.andnImm h o) := ⟨by decide, by decide, by decide, rfl, rfl⟩
theorem shlImm (h : Header) (o : ImmOps) : Statement (.shlImm h o) := ⟨by decide, by decide, by decide, rfl, rfl⟩
theorem shrImm (h : Header) (o : ImmOps) : Statement (.shrImm h o) := ⟨by decide, by decide, by decide, rfl, rfl⟩
theorem sraImm (h : Header) (o : ImmOps) : Statement (.sraImm h o) := ⟨by decide, by decide, by decide, rfl, rfl⟩
theorem rolImm (h : Header) (o : ImmOps) : Statement (.rolImm h o) := ⟨by decide, by decide, by decide, rfl, rfl⟩
theorem sextImm (h : Header) (o : ImmOps) : Statement (.sextImm h o) := ⟨by decide, by decide, by decide, rfl, rfl⟩
theorem zextImm (h : Header) (o : ImmOps) : Statement (.zextImm h o) := ⟨by decide, by decide, by decide, rfl, rfl⟩
theorem addi (h : Header) (o : ImmOps) : Statement (.addi h o) := ⟨by decide, by decide, by decide, rfl, rfl⟩
theorem li (h : Header) (o : ImmOps) : Statement (.li h o) := ⟨by decide, by decide, by decide, rfl, rfl⟩
theorem lea (h : Header) (o : ImmOps) : Statement (.lea h o) := ⟨by decide, by decide, by decide, rfl, rfl⟩
theorem cset (h : Header) (o : RegOps) : Statement (.cset h o) := ⟨by decide, by decide, by decide, rfl, rfl⟩
theorem sel (h : Header) (o : RegOps) : Statement (.sel h o) := ⟨by decide, by decide, by decide, rfl, rfl⟩
theorem j (h : Header) (o : JmpOps) : Statement (.j h o) := ⟨by decide, by decide, by decide, rfl, rfl⟩
theorem b (h : Header) (o : JmpOps) : Statement (.b h o) := ⟨by decide, by decide, by decide, rfl, rfl⟩
theorem brq (h : Header) (o : JmpOps) : Statement (.brq h o) := ⟨by decide, by decide, by decide, rfl, rfl⟩
theorem call (h : Header) (o : JmpOps) : Statement (.call h o) := ⟨by decide, by decide, by decide, rfl, rfl⟩
theorem loop (h : Header) (o : JmpOps) : Statement (.loop h o) := ⟨by decide, by decide, by decide, rfl, rfl⟩
theorem jr (h : Header) (o : JmpOps) : Statement (.jr h o) := ⟨by decide, by decide, by decide, rfl, rfl⟩
theorem callr (h : Header) (o : JmpOps) : Statement (.callr h o) := ⟨by decide, by decide, by decide, rfl, rfl⟩
theorem ret (h : Header) (o : JmpOps) : Statement (.ret h o) := ⟨by decide, by decide, by decide, rfl, rfl⟩
theorem msave (h : Header) (o : RegOps) : Statement (.msave h o) := ⟨by decide, by decide, by decide, rfl, rfl⟩
theorem mrest (h : Header) (o : RegOps) : Statement (.mrest h o) := ⟨by decide, by decide, by decide, rfl, rfl⟩
theorem mand (h : Header) (o : RegOps) : Statement (.mand h o) := ⟨by decide, by decide, by decide, rfl, rfl⟩
theorem mor (h : Header) (o : RegOps) : Statement (.mor h o) := ⟨by decide, by decide, by decide, rfl, rfl⟩
theorem mxor (h : Header) (o : RegOps) : Statement (.mxor h o) := ⟨by decide, by decide, by decide, rfl, rfl⟩
theorem mnot (h : Header) (o : RegOps) : Statement (.mnot h o) := ⟨by decide, by decide, by decide, rfl, rfl⟩
theorem mset (h : Header) (o : RegOps) : Statement (.mset h o) := ⟨by decide, by decide, by decide, rfl, rfl⟩
theorem mcnt (h : Header) (o : RegOps) : Statement (.mcnt h o) := ⟨by decide, by decide, by decide, rfl, rfl⟩
theorem vadd (h : Header) (o : VecOps) : Statement (.vadd h o) := ⟨by decide, by decide, by decide, rfl, rfl⟩
theorem vsub (h : Header) (o : VecOps) : Statement (.vsub h o) := ⟨by decide, by decide, by decide, rfl, rfl⟩
theorem vmul (h : Header) (o : VecOps) : Statement (.vmul h o) := ⟨by decide, by decide, by decide, rfl, rfl⟩
theorem vfma (h : Header) (o : VecOps) : Statement (.vfma h o) := ⟨by decide, by decide, by decide, rfl, rfl⟩
theorem vfms (h : Header) (o : VecOps) : Statement (.vfms h o) := ⟨by decide, by decide, by decide, rfl, rfl⟩
theorem vmin (h : Header) (o : VecOps) : Statement (.vmin h o) := ⟨by decide, by decide, by decide, rfl, rfl⟩
theorem vmax (h : Header) (o : VecOps) : Statement (.vmax h o) := ⟨by decide, by decide, by decide, rfl, rfl⟩
theorem vabs (h : Header) (o : VecOps) : Statement (.vabs h o) := ⟨by decide, by decide, by decide, rfl, rfl⟩
theorem vneg (h : Header) (o : VecOps) : Statement (.vneg h o) := ⟨by decide, by decide, by decide, rfl, rfl⟩
theorem vand (h : Header) (o : VecOps) : Statement (.vand h o) := ⟨by decide, by decide, by decide, rfl, rfl⟩
theorem vor (h : Header) (o : VecOps) : Statement (.vor h o) := ⟨by decide, by decide, by decide, rfl, rfl⟩
theorem vxor (h : Header) (o : VecOps) : Statement (.vxor h o) := ⟨by decide, by decide, by decide, rfl, rfl⟩
theorem vnot (h : Header) (o : VecOps) : Statement (.vnot h o) := ⟨by decide, by decide, by decide, rfl, rfl⟩
theorem vshl (h : Header) (o : VecOps) : Statement (.vshl h o) := ⟨by decide, by decide, by decide, rfl, rfl⟩
theorem vshr (h : Header) (o : VecOps) : Statement (.vshr h o) := ⟨by decide, by decide, by decide, rfl, rfl⟩
theorem vsra (h : Header) (o : VecOps) : Statement (.vsra h o) := ⟨by decide, by decide, by decide, rfl, rfl⟩
theorem vcmp (h : Header) (o : VecOps) : Statement (.vcmp h o) := ⟨by decide, by decide, by decide, rfl, rfl⟩
theorem vsel (h : Header) (o : VecOps) : Statement (.vsel h o) := ⟨by decide, by decide, by decide, rfl, rfl⟩
theorem vcvt (h : Header) (o : VecOps) : Statement (.vcvt h o) := ⟨by decide, by decide, by decide, rfl, rfl⟩
theorem vwiden (h : Header) (o : VecOps) : Statement (.vwiden h o) := ⟨by decide, by decide, by decide, rfl, rfl⟩
theorem vnarrow (h : Header) (o : VecOps) : Statement (.vnarrow h o) := ⟨by decide, by decide, by decide, rfl, rfl⟩
theorem vsat (h : Header) (o : VecOps) : Statement (.vsat h o) := ⟨by decide, by decide, by decide, rfl, rfl⟩
theorem vclamp (h : Header) (o : VecOps) : Statement (.vclamp h o) := ⟨by decide, by decide, by decide, rfl, rfl⟩
theorem vdot4 (h : Header) (o : VecOps) : Statement (.vdot4 h o) := ⟨by decide, by decide, by decide, rfl, rfl⟩
theorem vred (h : Header) (o : VecOps) : Statement (.vred h o) := ⟨by decide, by decide, by decide, rfl, rfl⟩
theorem vscan (h : Header) (o : VecOps) : Statement (.vscan h o) := ⟨by decide, by decide, by decide, rfl, rfl⟩
theorem vperm (h : Header) (o : VecOps) : Statement (.vperm h o) := ⟨by decide, by decide, by decide, rfl, rfl⟩
theorem vshuf (h : Header) (o : VecOps) : Statement (.vshuf h o) := ⟨by decide, by decide, by decide, rfl, rfl⟩
theorem vbcast (h : Header) (o : VecOps) : Statement (.vbcast h o) := ⟨by decide, by decide, by decide, rfl, rfl⟩
theorem vslide (h : Header) (o : VecOps) : Statement (.vslide h o) := ⟨by decide, by decide, by decide, rfl, rfl⟩
theorem viota (h : Header) (o : VecOps) : Statement (.viota h o) := ⟨by decide, by decide, by decide, rfl, rfl⟩
theorem vcomp (h : Header) (o : VecOps) : Statement (.vcomp h o) := ⟨by decide, by decide, by decide, rfl, rfl⟩
theorem vexpd (h : Header) (o : VecOps) : Statement (.vexpd h o) := ⟨by decide, by decide, by decide, rfl, rfl⟩
theorem vld (h : Header) (o : VecOps) : Statement (.vld h o) := ⟨by decide, by decide, by decide, rfl, rfl⟩
theorem vst (h : Header) (o : VecOps) : Statement (.vst h o) := ⟨by decide, by decide, by decide, rfl, rfl⟩
theorem vldx (h : Header) (o : VecOps) : Statement (.vldx h o) := ⟨by decide, by decide, by decide, rfl, rfl⟩
theorem vstx (h : Header) (o : VecOps) : Statement (.vstx h o) := ⟨by decide, by decide, by decide, rfl, rfl⟩
theorem vgath (h : Header) (o : VecOps) : Statement (.vgath h o) := ⟨by decide, by decide, by decide, rfl, rfl⟩
theorem vscat (h : Header) (o : VecOps) : Statement (.vscat h o) := ⟨by decide, by decide, by decide, rfl, rfl⟩
theorem vqpop (h : Header) (o : VecOps) : Statement (.vqpop h o) := ⟨by decide, by decide, by decide, rfl, rfl⟩
theorem vqpush (h : Header) (o : VecOps) : Statement (.vqpush h o) := ⟨by decide, by decide, by decide, rfl, rfl⟩
theorem vexp2 (h : Header) (o : VecOps) : Statement (.vexp2 h o) := ⟨by decide, by decide, by decide, rfl, rfl⟩
theorem vlog2 (h : Header) (o : VecOps) : Statement (.vlog2 h o) := ⟨by decide, by decide, by decide, rfl, rfl⟩
theorem vrcp (h : Header) (o : VecOps) : Statement (.vrcp h o) := ⟨by decide, by decide, by decide, rfl, rfl⟩
theorem vrsq (h : Header) (o : VecOps) : Statement (.vrsq h o) := ⟨by decide, by decide, by decide, rfl, rfl⟩
theorem vtanh (h : Header) (o : VecOps) : Statement (.vtanh h o) := ⟨by decide, by decide, by decide, rfl, rfl⟩
theorem vsigm (h : Header) (o : VecOps) : Statement (.vsigm h o) := ⟨by decide, by decide, by decide, rfl, rfl⟩
theorem vmerge3 (h : Header) (o : VecOps) : Statement (.vmerge3 h o) := ⟨by decide, by decide, by decide, rfl, rfl⟩
theorem vdefer (h : Header) (o : VecOps) : Statement (.vdefer h o) := ⟨by decide, by decide, by decide, rfl, rfl⟩
theorem vdrain (h : Header) (o : VecOps) : Statement (.vdrain h o) := ⟨by decide, by decide, by decide, rfl, rfl⟩
theorem vdqcnt (h : Header) (o : VecOps) : Statement (.vdqcnt h o) := ⟨by decide, by decide, by decide, rfl, rfl⟩
theorem loopp (h : Header) (o : JmpOps) : Statement (.loopp h o) := ⟨by decide, by decide, by decide, rfl, rfl⟩
theorem brp (h : Header) (o : JmpOps) : Statement (.brp h o) := ⟨by decide, by decide, by decide, rfl, rfl⟩
theorem vmov (h : Header) (o : VecOps) : Statement (.vmov h o) := ⟨by decide, by decide, by decide, rfl, rfl⟩
theorem vzero (h : Header) (o : VecOps) : Statement (.vzero h o) := ⟨by decide, by decide, by decide, rfl, rfl⟩
theorem ld (h : Header) (o : MemOps) : Statement (.ld h o) := ⟨by decide, by decide, by decide, rfl, rfl⟩
theorem st (h : Header) (o : MemOps) : Statement (.st h o) := ⟨by decide, by decide, by decide, rfl, rfl⟩
theorem ldx (h : Header) (o : MemOps) : Statement (.ldx h o) := ⟨by decide, by decide, by decide, rfl, rfl⟩
theorem stx (h : Header) (o : MemOps) : Statement (.stx h o) := ⟨by decide, by decide, by decide, rfl, rfl⟩
theorem lda (h : Header) (o : MemOps) : Statement (.lda h o) := ⟨by decide, by decide, by decide, rfl, rfl⟩
theorem stl (h : Header) (o : MemOps) : Statement (.stl h o) := ⟨by decide, by decide, by decide, rfl, rfl⟩
theorem amo (h : Header) (o : MemOps) : Statement (.amo h o) := ⟨by decide, by decide, by decide, rfl, rfl⟩
theorem cas (h : Header) (o : MemOps) : Statement (.cas h o) := ⟨by decide, by decide, by decide, rfl, rfl⟩
theorem fence (h : Header) (o : MemOps) : Statement (.fence h o) := ⟨by decide, by decide, by decide, rfl, rfl⟩
theorem mark (h : Header) (o : MemOps) : Statement (.mark h o) := ⟨by decide, by decide, by decide, rfl, rfl⟩
theorem tksig (h : Header) (o : MemOps) : Statement (.tksig h o) := ⟨by decide, by decide, by decide, rfl, rfl⟩
theorem tkwait (h : Header) (o : MemOps) : Statement (.tkwait h o) := ⟨by decide, by decide, by decide, rfl, rfl⟩
theorem boqpush (h : Header) (o : MemOps) : Statement (.boqpush h o) := ⟨by decide, by decide, by decide, rfl, rfl⟩
theorem barv (h : Header) (o : MemOps) : Statement (.barv h o) := ⟨by decide, by decide, by decide, rfl, rfl⟩
theorem bwait (h : Header) (o : MemOps) : Statement (.bwait h o) := ⟨by decide, by decide, by decide, rfl, rfl⟩
theorem tbinit (h : Header) (o : MemOps) : Statement (.tbinit h o) := ⟨by decide, by decide, by decide, rfl, rfl⟩
theorem tbarv (h : Header) (o : MemOps) : Statement (.tbarv h o) := ⟨by decide, by decide, by decide, rfl, rfl⟩
theorem tbwait (h : Header) (o : MemOps) : Statement (.tbwait h o) := ⟨by decide, by decide, by decide, rfl, rfl⟩
theorem leeway (h : Header) (o : MemOps) : Statement (.leeway h o) := ⟨by decide, by decide, by decide, rfl, rfl⟩
theorem remq (h : Header) (o : MemOps) : Statement (.remq h o) := ⟨by decide, by decide, by decide, rfl, rfl⟩
theorem notify (h : Header) (o : MemOps) : Statement (.notify h o) := ⟨by decide, by decide, by decide, rfl, rfl⟩
theorem waitev (h : Header) (o : MemOps) : Statement (.waitev h o) := ⟨by decide, by decide, by decide, rfl, rfl⟩
theorem mma (h : Header) (o : EngOps) : Statement (.mma h o) := ⟨by decide, by decide, by decide, rfl, rfl⟩
theorem mmac (h : Header) (o : EngOps) : Statement (.mmac h o) := ⟨by decide, by decide, by decide, rfl, rfl⟩
theorem cmerge (h : Header) (o : EngOps) : Statement (.cmerge h o) := ⟨by decide, by decide, by decide, rfl, rfl⟩
theorem cspill (h : Header) (o : EngOps) : Statement (.cspill h o) := ⟨by decide, by decide, by decide, rfl, rfl⟩
theorem cdrain (h : Header) (o : EngOps) : Statement (.cdrain h o) := ⟨by decide, by decide, by decide, rfl, rfl⟩
theorem acfg (h : Header) (o : EngOps) : Statement (.acfg h o) := ⟨by decide, by decide, by decide, rfl, rfl⟩
theorem azero (h : Header) (o : EngOps) : Statement (.azero h o) := ⟨by decide, by decide, by decide, rfl, rfl⟩
theorem aload (h : Header) (o : EngOps) : Statement (.aload h o) := ⟨by decide, by decide, by decide, rfl, rfl⟩
theorem adrain (h : Header) (o : EngOps) : Statement (.adrain h o) := ⟨by decide, by decide, by decide, rfl, rfl⟩
theorem adrainp (h : Header) (o : EngOps) : Statement (.adrainp h o) := ⟨by decide, by decide, by decide, rfl, rfl⟩
theorem aarm (h : Header) (o : EngOps) : Statement (.aarm h o) := ⟨by decide, by decide, by decide, rfl, rfl⟩
theorem fmtset (h : Header) (o : EngOps) : Statement (.fmtset h o) := ⟨by decide, by decide, by decide, rfl, rfl⟩
theorem fmtld (h : Header) (o : EngOps) : Statement (.fmtld h o) := ⟨by decide, by decide, by decide, rfl, rfl⟩
theorem mvec (h : Header) (o : EngOps) : Statement (.mvec h o) := ⟨by decide, by decide, by decide, rfl, rfl⟩
theorem mxt (h : Header) (o : EngOps) : Statement (.mxt h o) := ⟨by decide, by decide, by decide, rfl, rfl⟩
theorem xcopy (h : Header) (o : EngOps) : Statement (.xcopy h o) := ⟨by decide, by decide, by decide, rfl, rfl⟩
theorem xgath (h : Header) (o : EngOps) : Statement (.xgath h o) := ⟨by decide, by decide, by decide, rfl, rfl⟩
theorem xscat (h : Header) (o : EngOps) : Statement (.xscat h o) := ⟨by decide, by decide, by decide, rfl, rfl⟩
theorem xfill (h : Header) (o : EngOps) : Statement (.xfill h o) := ⟨by decide, by decide, by decide, rfl, rfl⟩
theorem xpop (h : Header) (o : EngOps) : Statement (.xpop h o) := ⟨by decide, by decide, by decide, rfl, rfl⟩
theorem xstat (h : Header) (o : EngOps) : Statement (.xstat h o) := ⟨by decide, by decide, by decide, rfl, rfl⟩
theorem publish (h : Header) (o : EngOps) : Statement (.publish h o) := ⟨by decide, by decide, by decide, rfl, rfl⟩
theorem ntake (h : Header) (o : EngOps) : Statement (.ntake h o) := ⟨by decide, by decide, by decide, rfl, rfl⟩
theorem ndecl (h : Header) (o : EngOps) : Statement (.ndecl h o) := ⟨by decide, by decide, by decide, rfl, rfl⟩
theorem nwait (h : Header) (o : EngOps) : Statement (.nwait h o) := ⟨by decide, by decide, by decide, rfl, rfl⟩
theorem reclaim (h : Header) (o : EngOps) : Statement (.reclaim h o) := ⟨by decide, by decide, by decide, rfl, rfl⟩
theorem rextend (h : Header) (o : EngOps) : Statement (.rextend h o) := ⟨by decide, by decide, by decide, rfl, rfl⟩
theorem helmset (h : Header) (o : EngOps) : Statement (.helmset h o) := ⟨by decide, by decide, by decide, rfl, rfl⟩
theorem pwin (h : Header) (o : EngOps) : Statement (.pwin h o) := ⟨by decide, by decide, by decide, rfl, rfl⟩
theorem coll (h : Header) (o : EngOps) : Statement (.coll h o) := ⟨by decide, by decide, by decide, rfl, rfl⟩
theorem accw (h : Header) (o : EngOps) : Statement (.accw h o) := ⟨by decide, by decide, by decide, rfl, rfl⟩
theorem rdywait (h : Header) (o : EngOps) : Statement (.rdywait h o) := ⟨by decide, by decide, by decide, rfl, rfl⟩
theorem sortk (h : Header) (o : EngOps) : Statement (.sortk h o) := ⟨by decide, by decide, by decide, rfl, rfl⟩
theorem echoose (h : Header) (o : EngOps) : Statement (.echoose h o) := ⟨by decide, by decide, by decide, rfl, rfl⟩
theorem rcsnap (h : Header) (o : EngOps) : Statement (.rcsnap h o) := ⟨by decide, by decide, by decide, rfl, rfl⟩
theorem lattn (h : Header) (o : EngOps) : Statement (.lattn h o) := ⟨by decide, by decide, by decide, rfl, rfl⟩
theorem chnew (h : Header) (o : EngOps) : Statement (.chnew h o) := ⟨by decide, by decide, by decide, rfl, rfl⟩
theorem chfork (h : Header) (o : EngOps) : Statement (.chfork h o) := ⟨by decide, by decide, by decide, rfl, rfl⟩
theorem chflat (h : Header) (o : EngOps) : Statement (.chflat h o) := ⟨by decide, by decide, by decide, rfl, rfl⟩
theorem chappend (h : Header) (o : EngOps) : Statement (.chappend h o) := ⟨by decide, by decide, by decide, rfl, rfl⟩
theorem chlook (h : Header) (o : EngOps) : Statement (.chlook h o) := ⟨by decide, by decide, by decide, rfl, rfl⟩
theorem chtrunc (h : Header) (o : EngOps) : Statement (.chtrunc h o) := ⟨by decide, by decide, by decide, rfl, rfl⟩
theorem chseal (h : Header) (o : EngOps) : Statement (.chseal h o) := ⟨by decide, by decide, by decide, rfl, rfl⟩
theorem chfree (h : Header) (o : EngOps) : Statement (.chfree h o) := ⟨by decide, by decide, by decide, rfl, rfl⟩
theorem chgive (h : Header) (o : EngOps) : Statement (.chgive h o) := ⟨by decide, by decide, by decide, rfl, rfl⟩
theorem bmset (h : Header) (o : EngOps) : Statement (.bmset h o) := ⟨by decide, by decide, by decide, rfl, rfl⟩
theorem bmperm (h : Header) (o : EngOps) : Statement (.bmperm h o) := ⟨by decide, by decide, by decide, rfl, rfl⟩
theorem bmlook (h : Header) (o : EngOps) : Statement (.bmlook h o) := ⟨by decide, by decide, by decide, rfl, rfl⟩
theorem rkbegin (h : Header) (o : EngOps) : Statement (.rkbegin h o) := ⟨by decide, by decide, by decide, rfl, rfl⟩
theorem acmp (h : Header) (o : EngOps) : Statement (.acmp h o) := ⟨by decide, by decide, by decide, rfl, rfl⟩
theorem rkcommit (h : Header) (o : EngOps) : Statement (.rkcommit h o) := ⟨by decide, by decide, by decide, rfl, rfl⟩
theorem rkend (h : Header) (o : EngOps) : Statement (.rkend h o) := ⟨by decide, by decide, by decide, rfl, rfl⟩
theorem rkstat (h : Header) (o : EngOps) : Statement (.rkstat h o) := ⟨by decide, by decide, by decide, rfl, rfl⟩
theorem csrr (h : Header) (o : ImmOps) : Statement (.csrr h o) := ⟨by decide, by decide, by decide, rfl, rfl⟩
theorem csrw (h : Header) (o : ImmOps) : Statement (.csrw h o) := ⟨by decide, by decide, by decide, rfl, rfl⟩
theorem csrx (h : Header) (o : ImmOps) : Statement (.csrx h o) := ⟨by decide, by decide, by decide, rfl, rfl⟩
theorem trap (h : Header) (o : ImmOps) : Statement (.trap h o) := ⟨by decide, by decide, by decide, rfl, rfl⟩
theorem eret (h : Header) (o : ImmOps) : Statement (.eret h o) := ⟨by decide, by decide, by decide, rfl, rfl⟩
theorem halt (h : Header) (o : ImmOps) : Statement (.halt h o) := ⟨by decide, by decide, by decide, rfl, rfl⟩
theorem nop (h : Header) (o : ImmOps) : Statement (.nop h o) := ⟨by decide, by decide, by decide, rfl, rfl⟩
theorem yield (h : Header) (o : ImmOps) : Statement (.yield h o) := ⟨by decide, by decide, by decide, rfl, rfl⟩
theorem mmaRecord (h : Header) (r : RecOps) : Statement (.mmaRecord h r) := ⟨by decide, by decide, by decide, rfl, rfl⟩
theorem mmacRecord (h : Header) (r : RecOps) : Statement (.mmacRecord h r) := ⟨by decide, by decide, by decide, rfl, rfl⟩
theorem xcopyRecord (h : Header) (r : RecOps) : Statement (.xcopyRecord h r) := ⟨by decide, by decide, by decide, rfl, rfl⟩
theorem xgathRecord (h : Header) (r : RecOps) : Statement (.xgathRecord h r) := ⟨by decide, by decide, by decide, rfl, rfl⟩
theorem xscatRecord (h : Header) (r : RecOps) : Statement (.xscatRecord h r) := ⟨by decide, by decide, by decide, rfl, rfl⟩
theorem xfillRecord (h : Header) (r : RecOps) : Statement (.xfillRecord h r) := ⟨by decide, by decide, by decide, rfl, rfl⟩
theorem publishRecord (h : Header) (r : RecOps) : Statement (.publishRecord h r) := ⟨by decide, by decide, by decide, rfl, rfl⟩
theorem collRecord (h : Header) (r : RecOps) : Statement (.collRecord h r) := ⟨by decide, by decide, by decide, rfl, rfl⟩
theorem sortkRecord (h : Header) (r : RecOps) : Statement (.sortkRecord h r) := ⟨by decide, by decide, by decide, rfl, rfl⟩
theorem lattnRecord (h : Header) (r : RecOps) : Statement (.lattnRecord h r) := ⟨by decide, by decide, by decide, rfl, rfl⟩
theorem vectorArithRecord (fn : BitVec 8) (h : Header) (r : RecOps) : Statement (.vectorArithRecord fn h r) := ⟨by decide, fn.isLt, by decide, rfl, by simp [ofParts, recordFunctions]⟩
theorem vectorLogicRecord (fn : BitVec 8) (h : Header) (r : RecOps) : Statement (.vectorLogicRecord fn h r) := ⟨by decide, fn.isLt, by decide, rfl, by simp [ofParts, recordFunctions]⟩
theorem vectorConvertRecord (fn : BitVec 8) (h : Header) (r : RecOps) : Statement (.vectorConvertRecord fn h r) := ⟨by decide, fn.isLt, by decide, rfl, by simp [ofParts, recordFunctions]⟩
theorem vectorDotRecord (fn : BitVec 8) (h : Header) (r : RecOps) : Statement (.vectorDotRecord fn h r) := ⟨by decide, fn.isLt, by decide, rfl, by simp [ofParts, recordFunctions]⟩
theorem vectorMemoryRecord (fn : BitVec 8) (h : Header) (r : RecOps) : Statement (.vectorMemoryRecord fn h r) := ⟨by decide, fn.isLt, by decide, rfl, by simp [ofParts, recordFunctions]⟩
theorem vectorSpecialRecord (fn : BitVec 8) (h : Header) (r : RecOps) : Statement (.vectorSpecialRecord fn h r) := ⟨by decide, fn.isLt, by decide, rfl, by simp [ofParts, recordFunctions]⟩
theorem vmerge3Record (h : Header) (r : RecOps) : Statement (.vmerge3Record h r) := ⟨by decide, by decide, by decide, rfl, rfl⟩
theorem recordIssue (core : Nat) (port : Nat) : Statement (.recordIssue core port) := rfl
theorem engineCommandStart (core : Nat) (port : Nat) : Statement (.engineCommandStart core port) := rfl
theorem triggeredCommandStart (core : Nat) (port : Nat) : Statement (.triggeredCommandStart core port) := rfl
theorem commandComplete (core : Nat) (port : Nat) : Statement (.commandComplete core port) := rfl
theorem notifyRetire (core : Nat) (port : Nat) : Statement (.notifyRetire core port) := rfl
theorem loadAnswer (core : Nat) (id : Nat) : Statement (.loadAnswer core id) := rfl
theorem l1Eviction (core : Nat) (line : Nat) : Statement (.l1Eviction core line) := rfl
theorem pageWalkComplete (walk : Nat) : Statement (.pageWalkComplete walk) := rfl
theorem leewayCountUpdate (cluster : Nat) : Statement (.leewayCountUpdate cluster) := rfl
theorem tokenDeadlock (core : Nat) : Statement (.tokenDeadlock core) := rfl
theorem reportedFaultDelivery (core : Nat) (seq : Nat) : Statement (.reportedFaultDelivery core seq) := rfl
theorem blockExpiry (core : Nat) (slot : Nat) : Statement (.blockExpiry core slot) := rfl
theorem reclaimTrapDelivery (core : Nat) : Statement (.reclaimTrapDelivery core) := rfl
theorem noticeArrival (msg : Nat) : Statement (.noticeArrival msg) := rfl
theorem heldNoticeEntry (core : Nat) : Statement (.heldNoticeEntry core) := rfl
theorem noticeRipe (core : Nat) (entry : Nat) : Statement (.noticeRipe core entry) := rfl
theorem helmPullStart (core : Nat) : Statement (.helmPullStart core) := rfl
theorem segmentRequest (core : Nat) : Statement (.segmentRequest core) := rfl
theorem segmentRead (msg : Nat) : Statement (.segmentRead msg) := rfl
theorem segmentLand (core : Nat) : Statement (.segmentLand core) := rfl
theorem pullCompletionArrival (msg : Nat) : Statement (.pullCompletionArrival msg) := rfl
theorem declineArrival (msg : Nat) : Statement (.declineArrival msg) := rfl
theorem withdrawalArrival (msg : Nat) : Statement (.withdrawalArrival msg) := rfl
theorem collSegmentApply (core : Nat) : Statement (.collSegmentApply core) := rfl
theorem remoteBlockServe (core : Nat) : Statement (.remoteBlockServe core) := rfl
theorem tileEnd (core : Nat) : Statement (.tileEnd core) := rfl
theorem tileEndByFault (core : Nat) : Statement (.tileEndByFault core) := rfl
theorem packetRead (queue : Nat) : Statement (.packetRead queue) := rfl
theorem coreOffer (core : Nat) : Statement (.coreOffer core) := rfl
theorem launchComplete (queue : Nat) (lseq : Nat) : Statement (.launchComplete queue lseq) := rfl
theorem preemptTrigger (queue : Nat) : Statement (.preemptTrigger queue) := rfl
theorem contextSave (core : Nat) : Statement (.contextSave core) := rfl
theorem tileResume (core : Nat) : Statement (.tileResume core) := rfl
theorem queueDrainDone (queue : Nat) : Statement (.queueDrainDone queue) := rfl
theorem queueAbortDone (queue : Nat) : Statement (.queueAbortDone queue) := rfl
theorem qctlEnable (queue : Nat) : Statement (.qctlEnable queue) := rfl
theorem qctlDrain (queue : Nat) : Statement (.qctlDrain queue) := rfl
theorem qctlAbort (queue : Nat) : Statement (.qctlAbort queue) := rfl
theorem qwrDoorbell (queue : Nat) (value : Nat) : Statement (.qwrDoorbell queue value) := rfl
theorem tigoInvalidate (bytes : Nat) : Statement (.tigoInvalidate bytes) := rfl
theorem tlbInvalidateComplete : Statement (.tlbInvalidateComplete) := rfl
theorem wcmdIngress (entry : Nat) : Statement (.wcmdIngress entry) := rfl
theorem wcmdLocal (entry : Nat) : Statement (.wcmdLocal entry) := rfl
theorem wcmdRelease (entry : Nat) : Statement (.wcmdRelease entry) := rfl
theorem shardBlockWrite (addr : Nat) (data : List Byte) : Statement (.shardBlockWrite addr data) := rfl
theorem shardLocalCheckDone (entry : Nat) : Statement (.shardLocalCheckDone entry) := rfl
theorem shardPatrolPass : Statement (.shardPatrolPass) := rfl
theorem wfenceClear (index : Nat) (value : Nat) : Statement (.wfenceClear index value) := rfl
theorem fllostClear (value : Nat) : Statement (.fllostClear value) := rfl
theorem errorCountClear (cluster : Bool) (index : Nat) (value : Nat) : Statement (.errorCountClear cluster index value) := rfl
theorem unfenceCore (index : Nat) (value : Nat) : Statement (.unfenceCore index value) := rfl
theorem unfenceCluster (value : Nat) : Statement (.unfenceCluster value) := rfl
theorem unfenceStack (value : Nat) : Statement (.unfenceStack value) := rfl
theorem unfenceUnit (index : Nat) (value : Nat) : Statement (.unfenceUnit index value) := rfl
theorem eccCorrected (site : EccSite) : Statement (.eccCorrected site) := rfl
theorem eccUncorrectable (site : EccSite) : Statement (.eccUncorrectable site) := rfl
theorem patrolScrub : Statement (.patrolScrub) := rfl
theorem ckctlSave : Statement (.ckctlSave) := rfl
theorem ckctlRestore : Statement (.ckctlRestore) := rfl
theorem checkpointQuiesced : Statement (.checkpointQuiesced) := rfl
theorem checkpointCopyDone : Statement (.checkpointCopyDone) := rfl
theorem checkpointError : Statement (.checkpointError) := rfl
theorem checkpointRestoreDone : Statement (.checkpointRestoreDone) := rfl
theorem tcmdLcchange : Statement (.tcmdLcchange) := rfl
theorem tcmdQuote : Statement (.tcmdQuote) := rfl
theorem tcmdKeyinstall (asid : Nat) : Statement (.tcmdKeyinstall asid) := rfl
theorem tcmdKeyclear (asid : Nat) : Statement (.tcmdKeyclear asid) := rfl
theorem powerOnReset : Statement (.powerOnReset) := rfl
theorem sfctlStartupEnd : Statement (.sfctlStartupEnd) := rfl
theorem sfctlBist : Statement (.sfctlBist) := rfl
theorem bistDone : Statement (.bistDone) := rfl
theorem clkcfgWrite (die : Nat) (value : Nat) : Statement (.clkcfgWrite die value) := rfl
theorem clkcfgPendingApply (die : Nat) : Statement (.clkcfgPendingApply die) := rfl
theorem pcfgWrite (port : Nat) (value : Nat) : Statement (.pcfgWrite port value) := rfl
theorem portTrained (port : Nat) (peer : Nat) : Statement (.portTrained port peer) := rfl
theorem portTrainingTimeout (port : Nat) : Statement (.portTrainingTimeout port) := rfl
theorem portFence (port : Nat) : Statement (.portFence port) := rfl
theorem flitForward (msg : Nat) : Statement (.flitForward msg) := rfl
theorem flitReplay (port : Nat) : Statement (.flitReplay port) := rfl
theorem undeliverableReturn (msg : Nat) : Statement (.undeliverableReturn msg) := rfl
theorem writeOfferArrival (port : Nat) (offer : WriteOffer) : Statement (.writeOfferArrival port offer) := rfl
theorem writeOfferPull (port : Nat) : Statement (.writeOfferPull port) := rfl
theorem remoteWritePerform (port : Nat) : Statement (.remoteWritePerform port) := rfl
theorem remoteWriteAck (core : Nat) (entry : Nat) (answer : HomeAnswer) : Statement (.remoteWriteAck core entry answer) := rfl
theorem remoteReadRequest (port : Nat) (addr : Nat) (bytes : Nat) : Statement (.remoteReadRequest port addr bytes) := rfl
theorem hostRegisterAccess (port : Nat) (access : HostAccess) : Statement (.hostRegisterAccess port access) := rfl
theorem registerWrite (off : Nat) (value : Nat) : Statement (.registerWrite off value) := rfl
theorem powerManagerCheck : Statement (.powerManagerCheck) := rfl
theorem thermalStop : Statement (.thermalStop) := rfl
theorem thermalRestart : Statement (.thermalRestart) := rfl
theorem chronometerTick : Statement (.chronometerTick) := rfl
theorem pldmSensorRead (sensor : Nat) : Statement (.pldmSensorRead sensor) := rfl
theorem storePerformed (core : Nat) (id : Nat) : Statement (.storePerformed core id) := rfl
theorem shardIngressCheckDone (entry : Nat) : Statement (.shardIngressCheckDone entry) := rfl
theorem stackLosesTraining (stack : Nat) : Statement (.stackLosesTraining stack) := rfl
theorem baseDieError (stack : Nat) : Statement (.baseDieError stack) := rfl
theorem powerLoss : Statement (.powerLoss) := rfl

end PartsBack
end Sys2Proof.Laws
end

