-- ==== Sys2Proof/Laws/Encoding.lean ====
section
/-! SUPPORT. Packing fields and unpacking them again, bytes and numbers, and the operand formats one by one. -/

namespace Sys2Proof

/-- Unpacking packed fields gives each of them back, cut to its width. -/
theorem unpack_pack : ∀ l : List (Nat × Nat), unpack (l.map Prod.fst) (pack l) = l.map (fun f => f.2 % 2 ^ f.1)
  | [] => rfl
  | (w, v) :: r => by
    have hp : 0 < 2 ^ w := Nat.two_pow_pos w
    have h1 : (v % 2 ^ w + 2 ^ w * pack r) % 2 ^ w = v % 2 ^ w := by
      rw [Nat.add_mul_mod_self_left, Nat.mod_mod]
    have h2 : (v % 2 ^ w + 2 ^ w * pack r) / 2 ^ w = pack r := by
      rw [Nat.add_mul_div_left _ _ hp, Nat.div_eq_of_lt (Nat.mod_lt _ hp), Nat.zero_add]
    simp only [List.map_cons, pack, unpack, h1, h2, unpack_pack r]

/-- Packed fields fit their widths together. -/
theorem pack_lt : ∀ l : List (Nat × Nat), pack l < 2 ^ (l.map Prod.fst).sum
  | [] => by simp [pack]
  | (w, v) :: r => by
    have ih := pack_lt r
    have h1 : v % 2 ^ w < 2 ^ w := Nat.mod_lt _ (Nat.two_pow_pos w)
    simp only [pack, List.map_cons, List.sum_cons, Nat.pow_add]
    calc v % 2 ^ w + 2 ^ w * pack r < 2 ^ w + 2 ^ w * pack r := by omega
      _ = 2 ^ w * (pack r + 1) := by ring
      _ ≤ 2 ^ w * 2 ^ (r.map Prod.fst).sum := Nat.mul_le_mul_left _ ih

theorem natBytes_length : ∀ n v, (natBytes n v).length = n
  | 0, _ => rfl
  | n + 1, v => by simp [natBytes, natBytes_length n]

/-- The number of a number's n bytes is the number modulo 256 ^ n. -/
theorem bytesNat_natBytes : ∀ n v, bytesNat (natBytes n v) = v % 256 ^ n
  | 0, v => by simp [natBytes, bytesNat, Nat.mod_one]
  | n + 1, v => by
    have h : v % 256 ^ (n + 1) = v % 256 + 256 * (v / 256 % 256 ^ n) := by
      rw [Nat.pow_succ, Nat.mul_comm, Nat.mod_mul]
    rw [h]
    simp [natBytes, bytesNat, bytesNat_natBytes n]

/-- A field's value cut to its own width is the field. -/
theorem ofNat_back {w : Nat} (x : BitVec w) : BitVec.ofNat w (x.toNat % 2 ^ w) = x := by
  rw [Nat.mod_eq_of_lt x.isLt, BitVec.ofNat_toNat, BitVec.setWidth_eq]

/-- A packed header reads back, with its MAJ and FN and reserved bits of zero. -/
theorem Header.unpack_pack (maj fn : Nat) (h : Header) (hm : maj < 256) (hf : fn < 256) :
    Header.unpack (h.pack maj fn) = (maj, fn, h, 0) := by
  have := Sys2Proof.unpack_pack [(8, maj), (8, fn), (1, h.m.toNat), (3, h.tkp.toNat), (3, h.tks.toNat), (2, h.msrc.toNat), (4, h.spi.toNat),
    (1, h.rot.toNat), (2, 0)]
  simp only [List.map_cons, List.map_nil] at this
  unfold Header.unpack Header.pack headerWidths
  rw [this]
  have h1 : maj % 2 ^ 8 = maj := Nat.mod_eq_of_lt hm
  have h2 : fn % 2 ^ 8 = fn := Nat.mod_eq_of_lt hf
  simp only [ofNat_back, h1, h2, Nat.zero_mod]

theorem Header.pack_lt (maj fn : Nat) (h : Header) : h.pack maj fn < 2 ^ 32 :=
  Sys2Proof.pack_lt [(8, maj), (8, fn), (1, h.m.toNat), (3, h.tkp.toNat), (3, h.tks.toNat), (2, h.msrc.toNat), (4, h.spi.toNat),
    (1, h.rot.toNat), (2, 0)]

@[simp] theorem RegOps.unpack_pack (o : RegOps) : RegOps.unpack o.pack = some o := by
  have := Sys2Proof.unpack_pack [(6, o.dg.toNat), (6, o.ag.toNat), (6, o.bg.toNat), (6, o.cg.toNat), (4, o.cond.toNat), (68, 0)]
  simp only [List.map_cons, List.map_nil] at this
  unfold RegOps.unpack RegOps.pack
  rw [this]
  simp only [ofNat_back, Nat.zero_mod, if_true]

@[simp] theorem ImmOps.unpack_pack (o : ImmOps) : ImmOps.unpack o.pack = some o := by
  have := Sys2Proof.unpack_pack [(6, o.dg.toNat), (6, o.ag.toNat), (20, 0), (64, o.imm.toNat)]
  simp only [List.map_cons, List.map_nil] at this
  unfold ImmOps.unpack ImmOps.pack
  rw [this]
  simp only [ofNat_back, Nat.zero_mod, if_true]

@[simp] theorem JmpOps.unpack_pack (o : JmpOps) : JmpOps.unpack o.pack = some o := by
  have := Sys2Proof.unpack_pack [(6, o.dg.toNat), (6, o.ag.toNat), (6, o.bg.toNat), (4, o.cond.toNat), (10, 0), (32, o.disp.toNat),
    (32, o.imm.toNat)]
  simp only [List.map_cons, List.map_nil] at this
  unfold JmpOps.unpack JmpOps.pack
  rw [this]
  simp only [ofNat_back, Nat.zero_mod, if_true]

@[simp] theorem MemOps.unpack_pack (o : MemOps) : MemOps.unpack o.pack = some o := by
  have := Sys2Proof.unpack_pack [(6, o.dg.toNat), (6, o.ag.toNat), (6, o.bg.toNat), (6, o.cg.toNat), (3, o.sco.toNat), (2, o.sz.toNat),
    (1, o.sgn.toNat), (2, o.ord.toNat), (32, o.off.toNat), (8, o.aop.toNat), (24, 0)]
  simp only [List.map_cons, List.map_nil] at this
  unfold MemOps.unpack MemOps.pack
  rw [this]
  simp only [ofNat_back, Nat.zero_mod, if_true]

@[simp] theorem VecOps.unpack_pack (o : VecOps) : VecOps.unpack o.pack = some o := by
  have := Sys2Proof.unpack_pack [(10, o.vd.toNat), (10, o.va.toNat), (10, o.vb.toNat), (10, o.vc.toNat), (4, o.et.toNat), (4, o.et2.toNat),
    (3, o.rmo.toNat), (1, o.sat.toNat), (1, o.sgn.toNat), (6, o.ga.toNat), (5, 0), (32, o.imm.toNat)]
  simp only [List.map_cons, List.map_nil] at this
  unfold VecOps.unpack VecOps.pack
  rw [this]
  simp only [ofNat_back, Nat.zero_mod, if_true]

@[simp] theorem EngOps.unpack_pack (o : EngOps) : EngOps.unpack o.pack = some o := by
  have := Sys2Proof.unpack_pack [(10, o.va.toNat), (10, o.vb.toNat), (10, o.vc.toNat), (6, o.ga.toNat), (6, o.gb.toNat), (6, o.gc.toNat),
    (4, o.ta.toNat), (4, o.tb.toNat), (4, o.tc.toNat), (1, o.sga.toNat), (1, o.sgb.toNat), (2, o.bka.toNat), (2, o.bkb.toNat),
    (4, o.tile.toNat), (3, o.sco.toNat), (7, 0), (16, o.imm.toNat)]
  simp only [List.map_cons, List.map_nil] at this
  unfold EngOps.unpack EngOps.pack
  rw [this]
  simp only [ofNat_back, Nat.zero_mod, if_true]

@[simp] theorem Descriptor.unpack_pack (d : Descriptor) : Descriptor.unpack d.pack = d := by
  have := Sys2Proof.unpack_pack [(6, d.base.toNat), (22, d.off.toNat), (4, d.ulog.toNat), (12, d.s0.toNat), (12, d.s1.toNat),
    (12, d.s2.toNat), (12, d.s3.toNat)]
  simp only [List.map_cons, List.map_nil] at this
  unfold Descriptor.unpack Descriptor.pack
  rw [this]
  simp only [ofNat_back]

theorem Descriptor.pack_lt (d : Descriptor) : d.pack < 2 ^ 80 :=
  Sys2Proof.pack_lt [(6, d.base.toNat), (22, d.off.toNat), (4, d.ulog.toNat), (12, d.s0.toNat), (12, d.s1.toNat),
    (12, d.s2.toNat), (12, d.s3.toNat)]

end Sys2Proof
end

