-- ==== Sys2Proof/Laws/Sparse.lean ====
section
/-! SUPPORT. Sparse tables and memory: reading after writing, and the canonical form, which every operation keeps. -/

namespace Sys2Proof.Machine

variable {α : Type}

theorem Table.get_put_same (d : α) (t : Table α) (n : Nat) (x : α) : Table.get d (Table.put t n x) n = x := by
  induction t with
  | nil => simp [Table.put, Table.get]
  | cons e r ih =>
    obtain ⟨k, v⟩ := e
    unfold Table.put
    split
    · simp [Table.get]
    · split
      · simp [Table.get]
      · rename_i h1 h2
        simp [Table.get, h1, ih]

theorem Table.get_put_other (d : α) (t : Table α) (n m : Nat) (x : α) (h : m ≠ n) :
    Table.get d (Table.put t n x) m = Table.get d t m := by
  induction t with
  | nil => simp [Table.put, Table.get, h]
  | cons e r ih =>
    obtain ⟨k, v⟩ := e
    unfold Table.put
    split
    · rename_i h1
      subst h1
      simp [Table.get, h]
    · split
      · simp [Table.get, h]
      · simp [Table.get, ih]

theorem Table.get_erase_same (d : α) (n : Nat) (t : Table α) : Table.get d (Table.erase t n) n = d := by
  induction t with
  | nil => rfl
  | cons e r ih =>
    obtain ⟨k, v⟩ := e
    unfold Table.erase
    split
    · exact ih
    · rename_i h
      simp [Table.get, h, ih]

theorem Table.get_erase_other (d : α) (n m : Nat) (h : m ≠ n) (t : Table α) : Table.get d (Table.erase t n) m = Table.get d t m := by
  induction t with
  | nil => rfl
  | cons e r ih =>
    obtain ⟨k, v⟩ := e
    unfold Table.erase
    split
    · rename_i h1
      subst h1
      simp [Table.get, h, ih]
    · simp [Table.get, ih]

variable [DecidableEq α]

/-- The value written at a key is read there. -/
theorem Table.get_set_same (d : α) (t : Table α) (n : Nat) (x : α) : Table.get d (Table.set d t n x) n = x := by
  unfold Table.set
  split
  · rename_i h
    rw [h]
    exact Table.get_erase_same d n t
  · exact Table.get_put_same d t n x

/-- Every other key keeps its value. -/
theorem Table.get_set_other (d : α) (t : Table α) (n m : Nat) (x : α) (h : m ≠ n) :
    Table.get d (Table.set d t n x) m = Table.get d t m := by
  unfold Table.set
  split
  · exact Table.get_erase_other d n m h t
  · exact Table.get_put_other d t n m x h

theorem Table.wfFrom_mono (d : α) {lo lo' : Nat} (h : lo ≤ lo') : ∀ {t : Table α}, Table.wfFrom d lo' t = true → Table.wfFrom d lo t = true
  | [], _ => rfl
  | (k, v) :: r, w => by
    simp only [Table.wfFrom, Bool.and_eq_true, decide_eq_true_eq] at w ⊢
    exact ⟨⟨Nat.le_trans h w.1.1, w.1.2⟩, w.2⟩

theorem Table.wfFrom_erase (d : α) (n : Nat) : ∀ {lo : Nat} {t : Table α}, Table.wfFrom d lo t = true →
    Table.wfFrom d lo (Table.erase t n) = true
  | _, [], _ => rfl
  | lo, (k, v) :: r, w => by
    simp only [Table.wfFrom, Bool.and_eq_true, decide_eq_true_eq] at w
    unfold Table.erase
    split
    · exact Table.wfFrom_mono d (Nat.le_succ_of_le w.1.1) (Table.wfFrom_erase d n w.2)
    · simp only [Table.wfFrom, Bool.and_eq_true, decide_eq_true_eq]
      exact ⟨w.1, Table.wfFrom_erase d n w.2⟩

theorem Table.wfFrom_put (d : α) (n : Nat) (x : α) (hx : x ≠ d) : ∀ {lo : Nat} {t : Table α}, lo ≤ n → Table.wfFrom d lo t = true →
    Table.wfFrom d lo (Table.put t n x) = true
  | lo, [], hn, _ => by simp [Table.put, Table.wfFrom, hn, hx]
  | lo, (k, v) :: r, hn, w => by
    have w0 := w
    simp only [Table.wfFrom, Bool.and_eq_true, decide_eq_true_eq] at w
    unfold Table.put
    split
    · rename_i h
      subst h
      simp only [Table.wfFrom, Bool.and_eq_true, decide_eq_true_eq]
      exact ⟨⟨hn, hx⟩, w.2⟩
    · split
      · rename_i h1 h2
        simp only [Table.wfFrom, Bool.and_eq_true, decide_eq_true_eq]
        exact ⟨⟨hn, hx⟩, ⟨h2, w.1.2⟩, w.2⟩
      · rename_i h1 h2
        simp only [Table.wfFrom, Bool.and_eq_true, decide_eq_true_eq]
        exact ⟨w.1, Table.wfFrom_put d n x hx (by omega) w.2⟩

/-- A write keeps the canonical form. -/
theorem Table.wf_set (d : α) (t : Table α) (n : Nat) (x : α) (w : Table.wf d t = true) : Table.wf d (Table.set d t n x) = true := by
  unfold Table.set
  split
  · exact Table.wfFrom_erase d n w
  · rename_i h
    exact Table.wfFrom_put d n x h (Nat.zero_le n) w

/-- Dropping entries keeps the canonical form. -/
theorem Table.wfFrom_filter (d : α) (f : Nat × α → Bool) : ∀ {lo : Nat} {t : Table α}, Table.wfFrom d lo t = true →
    Table.wfFrom d lo (t.filter f) = true
  | _, [], _ => rfl
  | lo, (k, v) :: r, w => by
    simp only [Table.wfFrom, Bool.and_eq_true, decide_eq_true_eq] at w
    by_cases h : f (k, v) = true
    · rw [List.filter_cons_of_pos h]
      simp only [Table.wfFrom, Bool.and_eq_true, decide_eq_true_eq]
      exact ⟨w.1, Table.wfFrom_filter d f w.2⟩
    · rw [List.filter_cons_of_neg h]
      exact Table.wfFrom_mono d (Nat.le_succ_of_le w.1.1) (Table.wfFrom_filter d f w.2)

/-! ### Memory -/

@[simp] theorem Memory.wf_nil : Memory.wf [] = true := rfl
@[simp] theorem Memory.read_nil (a : Nat) : Memory.read [] a = 0 := rfl

theorem Memory.read_write_same (m : Memory) (a : Nat) (b : Byte) : (m.write a b).read a = b :=
  Table.get_set_same 0 m a b

theorem Memory.read_write_other (m : Memory) (a x : Nat) (b : Byte) (h : x ≠ a) :
    (m.write a b).read x = m.read x :=
  Table.get_set_other 0 m a x b h

theorem Memory.wf_write (m : Memory) (a : Nat) (b : Byte) (w : m.wf = true) : (m.write a b).wf = true :=
  Table.wf_set 0 m a b w

theorem Memory.wf_writeBytes : ∀ (bs : List Byte) (m : Memory) (a : Nat), m.wf = true → (m.writeBytes a bs).wf = true
  | [], _, _, w => w
  | b :: r, m, a, w => Memory.wf_writeBytes r (m.write a b) (a + 1) (Memory.wf_write m a b w)

theorem Memory.wf_clear (m : Memory) (lo len : Nat) (w : m.wf = true) : (m.clear lo len).wf = true :=
  Table.wfFrom_filter 0 _ w

/-- A write of bytes leaves every address outside them alone. -/
theorem Memory.read_writeBytes_other : ∀ (bs : List Byte) (m : Memory) (a x : Nat), (x < a ∨ a + bs.length ≤ x) →
    (m.writeBytes a bs).read x = m.read x
  | [], _, _, _, _ => rfl
  | b :: r, m, a, x, h => by
    simp only [List.length_cons] at h
    have h1 : x ≠ a := by omega
    simp only [Memory.writeBytes]
    rw [Memory.read_writeBytes_other r (m.write a b) (a + 1) x (by omega),
      Memory.read_write_other m a x b h1]

end Sys2Proof.Machine
end

