-- ==== Sys2Proof/Laws/State.lean ====
section
/-! SUPPORT. What each field of the state is after each of the shared updates: one lemma per field per update. -/

namespace Sys2Proof.Machine

/-! ### Replacing a core: every other field of the state stays -/

@[simp] theorem State.setCore_chron (s : State) (c : Nat) (k : Core) : (s.setCore c k).chron = s.chron := rfl
@[simp] theorem State.mapCore_chron (s : State) (c : Nat) (f : Core → Core) : (s.mapCore c f).chron = s.chron := rfl
@[simp] theorem State.setMe_chron (s : State) (k : Core) : (s.setMe k).chron = s.chron := rfl
@[simp] theorem State.mapMe_chron (s : State) (f : Core → Core) : (s.mapMe f).chron = s.chron := rfl
@[simp] theorem State.mapMySeq_chron (s : State) (f : Sequencer → Sequencer) : (s.mapMySeq f).chron = s.chron := rfl
@[simp] theorem State.setCore_groups (s : State) (c : Nat) (k : Core) : (s.setCore c k).groups = s.groups := rfl
@[simp] theorem State.mapCore_groups (s : State) (c : Nat) (f : Core → Core) : (s.mapCore c f).groups = s.groups := rfl
@[simp] theorem State.setMe_groups (s : State) (k : Core) : (s.setMe k).groups = s.groups := rfl
@[simp] theorem State.mapMe_groups (s : State) (f : Core → Core) : (s.mapMe f).groups = s.groups := rfl
@[simp] theorem State.mapMySeq_groups (s : State) (f : Sequencer → Sequencer) : (s.mapMySeq f).groups = s.groups := rfl
@[simp] theorem State.setCore_leeway (s : State) (c : Nat) (k : Core) : (s.setCore c k).leeway = s.leeway := rfl
@[simp] theorem State.mapCore_leeway (s : State) (c : Nat) (f : Core → Core) : (s.mapCore c f).leeway = s.leeway := rfl
@[simp] theorem State.setMe_leeway (s : State) (k : Core) : (s.setMe k).leeway = s.leeway := rfl
@[simp] theorem State.mapMe_leeway (s : State) (f : Core → Core) : (s.mapMe f).leeway = s.leeway := rfl
@[simp] theorem State.mapMySeq_leeway (s : State) (f : Sequencer → Sequencer) : (s.mapMySeq f).leeway = s.leeway := rfl
@[simp] theorem State.setCore_leewayDue (s : State) (c : Nat) (k : Core) : (s.setCore c k).leewayDue = s.leewayDue := rfl
@[simp] theorem State.mapCore_leewayDue (s : State) (c : Nat) (f : Core → Core) : (s.mapCore c f).leewayDue = s.leewayDue := rfl
@[simp] theorem State.setMe_leewayDue (s : State) (k : Core) : (s.setMe k).leewayDue = s.leewayDue := rfl
@[simp] theorem State.mapMe_leewayDue (s : State) (f : Core → Core) : (s.mapMe f).leewayDue = s.leewayDue := rfl
@[simp] theorem State.mapMySeq_leewayDue (s : State) (f : Sequencer → Sequencer) : (s.mapMySeq f).leewayDue = s.leewayDue := rfl
@[simp] theorem State.setCore_clusterTlb (s : State) (c : Nat) (k : Core) : (s.setCore c k).clusterTlb = s.clusterTlb := rfl
@[simp] theorem State.mapCore_clusterTlb (s : State) (c : Nat) (f : Core → Core) : (s.mapCore c f).clusterTlb = s.clusterTlb := rfl
@[simp] theorem State.setMe_clusterTlb (s : State) (k : Core) : (s.setMe k).clusterTlb = s.clusterTlb := rfl
@[simp] theorem State.mapMe_clusterTlb (s : State) (f : Core → Core) : (s.mapMe f).clusterTlb = s.clusterTlb := rfl
@[simp] theorem State.mapMySeq_clusterTlb (s : State) (f : Sequencer → Sequencer) : (s.mapMySeq f).clusterTlb = s.clusterTlb := rfl
@[simp] theorem State.setCore_dieTlb (s : State) (c : Nat) (k : Core) : (s.setCore c k).dieTlb = s.dieTlb := rfl
@[simp] theorem State.mapCore_dieTlb (s : State) (c : Nat) (f : Core → Core) : (s.mapCore c f).dieTlb = s.dieTlb := rfl
@[simp] theorem State.setMe_dieTlb (s : State) (k : Core) : (s.setMe k).dieTlb = s.dieTlb := rfl
@[simp] theorem State.mapMe_dieTlb (s : State) (f : Core → Core) : (s.mapMe f).dieTlb = s.dieTlb := rfl
@[simp] theorem State.mapMySeq_dieTlb (s : State) (f : Sequencer → Sequencer) : (s.mapMySeq f).dieTlb = s.dieTlb := rfl
@[simp] theorem State.setCore_walks (s : State) (c : Nat) (k : Core) : (s.setCore c k).walks = s.walks := rfl
@[simp] theorem State.mapCore_walks (s : State) (c : Nat) (f : Core → Core) : (s.mapCore c f).walks = s.walks := rfl
@[simp] theorem State.setMe_walks (s : State) (k : Core) : (s.setMe k).walks = s.walks := rfl
@[simp] theorem State.mapMe_walks (s : State) (f : Core → Core) : (s.mapMe f).walks = s.walks := rfl
@[simp] theorem State.mapMySeq_walks (s : State) (f : Sequencer → Sequencer) : (s.mapMySeq f).walks = s.walks := rfl
@[simp] theorem State.setCore_hbm (s : State) (c : Nat) (k : Core) : (s.setCore c k).hbm = s.hbm := rfl
@[simp] theorem State.mapCore_hbm (s : State) (c : Nat) (f : Core → Core) : (s.mapCore c f).hbm = s.hbm := rfl
@[simp] theorem State.setMe_hbm (s : State) (k : Core) : (s.setMe k).hbm = s.hbm := rfl
@[simp] theorem State.mapMe_hbm (s : State) (f : Core → Core) : (s.mapMe f).hbm = s.hbm := rfl
@[simp] theorem State.mapMySeq_hbm (s : State) (f : Sequencer → Sequencer) : (s.mapMySeq f).hbm = s.hbm := rfl
@[simp] theorem State.setCore_l2 (s : State) (c : Nat) (k : Core) : (s.setCore c k).l2 = s.l2 := rfl
@[simp] theorem State.mapCore_l2 (s : State) (c : Nat) (f : Core → Core) : (s.mapCore c f).l2 = s.l2 := rfl
@[simp] theorem State.setMe_l2 (s : State) (k : Core) : (s.setMe k).l2 = s.l2 := rfl
@[simp] theorem State.mapMe_l2 (s : State) (f : Core → Core) : (s.mapMe f).l2 = s.l2 := rfl
@[simp] theorem State.mapMySeq_l2 (s : State) (f : Sequencer → Sequencer) : (s.mapMySeq f).l2 = s.l2 := rfl
@[simp] theorem State.setCore_areas (s : State) (c : Nat) (k : Core) : (s.setCore c k).areas = s.areas := rfl
@[simp] theorem State.mapCore_areas (s : State) (c : Nat) (f : Core → Core) : (s.mapCore c f).areas = s.areas := rfl
@[simp] theorem State.setMe_areas (s : State) (k : Core) : (s.setMe k).areas = s.areas := rfl
@[simp] theorem State.mapMe_areas (s : State) (f : Core → Core) : (s.mapMe f).areas = s.areas := rfl
@[simp] theorem State.mapMySeq_areas (s : State) (f : Sequencer → Sequencer) : (s.mapMySeq f).areas = s.areas := rfl
@[simp] theorem State.setCore_retiredWays (s : State) (c : Nat) (k : Core) : (s.setCore c k).retiredWays = s.retiredWays := rfl
@[simp] theorem State.mapCore_retiredWays (s : State) (c : Nat) (f : Core → Core) : (s.mapCore c f).retiredWays = s.retiredWays := rfl
@[simp] theorem State.setMe_retiredWays (s : State) (k : Core) : (s.setMe k).retiredWays = s.retiredWays := rfl
@[simp] theorem State.mapMe_retiredWays (s : State) (f : Core → Core) : (s.mapMe f).retiredWays = s.retiredWays := rfl
@[simp] theorem State.mapMySeq_retiredWays (s : State) (f : Sequencer → Sequencer) : (s.mapMySeq f).retiredWays = s.retiredWays := rfl
@[simp] theorem State.setCore_retiredFrames (s : State) (c : Nat) (k : Core) : (s.setCore c k).retiredFrames = s.retiredFrames := rfl
@[simp] theorem State.mapCore_retiredFrames (s : State) (c : Nat) (f : Core → Core) : (s.mapCore c f).retiredFrames = s.retiredFrames := rfl
@[simp] theorem State.setMe_retiredFrames (s : State) (k : Core) : (s.setMe k).retiredFrames = s.retiredFrames := rfl
@[simp] theorem State.mapMe_retiredFrames (s : State) (f : Core → Core) : (s.mapMe f).retiredFrames = s.retiredFrames := rfl
@[simp] theorem State.mapMySeq_retiredFrames (s : State) (f : Sequencer → Sequencer) : (s.mapMySeq f).retiredFrames = s.retiredFrames := rfl
@[simp] theorem State.setCore_poisoned (s : State) (c : Nat) (k : Core) : (s.setCore c k).poisoned = s.poisoned := rfl
@[simp] theorem State.mapCore_poisoned (s : State) (c : Nat) (f : Core → Core) : (s.mapCore c f).poisoned = s.poisoned := rfl
@[simp] theorem State.setMe_poisoned (s : State) (k : Core) : (s.setMe k).poisoned = s.poisoned := rfl
@[simp] theorem State.mapMe_poisoned (s : State) (f : Core → Core) : (s.mapMe f).poisoned = s.poisoned := rfl
@[simp] theorem State.mapMySeq_poisoned (s : State) (f : Sequencer → Sequencer) : (s.mapMySeq f).poisoned = s.poisoned := rfl
@[simp] theorem State.setCore_unitErrors (s : State) (c : Nat) (k : Core) : (s.setCore c k).unitErrors = s.unitErrors := rfl
@[simp] theorem State.mapCore_unitErrors (s : State) (c : Nat) (f : Core → Core) : (s.mapCore c f).unitErrors = s.unitErrors := rfl
@[simp] theorem State.setMe_unitErrors (s : State) (k : Core) : (s.setMe k).unitErrors = s.unitErrors := rfl
@[simp] theorem State.mapMe_unitErrors (s : State) (f : Core → Core) : (s.mapMe f).unitErrors = s.unitErrors := rfl
@[simp] theorem State.mapMySeq_unitErrors (s : State) (f : Sequencer → Sequencer) : (s.mapMySeq f).unitErrors = s.unitErrors := rfl
@[simp] theorem State.setCore_outside (s : State) (c : Nat) (k : Core) : (s.setCore c k).outside = s.outside := rfl
@[simp] theorem State.mapCore_outside (s : State) (c : Nat) (f : Core → Core) : (s.mapCore c f).outside = s.outside := rfl
@[simp] theorem State.setMe_outside (s : State) (k : Core) : (s.setMe k).outside = s.outside := rfl
@[simp] theorem State.mapMe_outside (s : State) (f : Core → Core) : (s.mapMe f).outside = s.outside := rfl
@[simp] theorem State.mapMySeq_outside (s : State) (f : Sequencer → Sequencer) : (s.mapMySeq f).outside = s.outside := rfl
@[simp] theorem State.setCore_queues (s : State) (c : Nat) (k : Core) : (s.setCore c k).queues = s.queues := rfl
@[simp] theorem State.mapCore_queues (s : State) (c : Nat) (f : Core → Core) : (s.mapCore c f).queues = s.queues := rfl
@[simp] theorem State.setMe_queues (s : State) (k : Core) : (s.setMe k).queues = s.queues := rfl
@[simp] theorem State.mapMe_queues (s : State) (f : Core → Core) : (s.mapMe f).queues = s.queues := rfl
@[simp] theorem State.mapMySeq_queues (s : State) (f : Sequencer → Sequencer) : (s.mapMySeq f).queues = s.queues := rfl
@[simp] theorem State.setCore_launches (s : State) (c : Nat) (k : Core) : (s.setCore c k).launches = s.launches := rfl
@[simp] theorem State.mapCore_launches (s : State) (c : Nat) (f : Core → Core) : (s.mapCore c f).launches = s.launches := rfl
@[simp] theorem State.setMe_launches (s : State) (k : Core) : (s.setMe k).launches = s.launches := rfl
@[simp] theorem State.mapMe_launches (s : State) (f : Core → Core) : (s.mapMe f).launches = s.launches := rfl
@[simp] theorem State.mapMySeq_launches (s : State) (f : Sequencer → Sequencer) : (s.mapMySeq f).launches = s.launches := rfl
@[simp] theorem State.setCore_pointers (s : State) (c : Nat) (k : Core) : (s.setCore c k).pointers = s.pointers := rfl
@[simp] theorem State.mapCore_pointers (s : State) (c : Nat) (f : Core → Core) : (s.mapCore c f).pointers = s.pointers := rfl
@[simp] theorem State.setMe_pointers (s : State) (k : Core) : (s.setMe k).pointers = s.pointers := rfl
@[simp] theorem State.mapMe_pointers (s : State) (f : Core → Core) : (s.mapMe f).pointers = s.pointers := rfl
@[simp] theorem State.mapMySeq_pointers (s : State) (f : Sequencer → Sequencer) : (s.mapMySeq f).pointers = s.pointers := rfl
@[simp] theorem State.setCore_decisions (s : State) (c : Nat) (k : Core) : (s.setCore c k).decisions = s.decisions := rfl
@[simp] theorem State.mapCore_decisions (s : State) (c : Nat) (f : Core → Core) : (s.mapCore c f).decisions = s.decisions := rfl
@[simp] theorem State.setMe_decisions (s : State) (k : Core) : (s.setMe k).decisions = s.decisions := rfl
@[simp] theorem State.mapMe_decisions (s : State) (f : Core → Core) : (s.mapMe f).decisions = s.decisions := rfl
@[simp] theorem State.mapMySeq_decisions (s : State) (f : Sequencer → Sequencer) : (s.mapMySeq f).decisions = s.decisions := rfl
@[simp] theorem State.setCore_contexts (s : State) (c : Nat) (k : Core) : (s.setCore c k).contexts = s.contexts := rfl
@[simp] theorem State.mapCore_contexts (s : State) (c : Nat) (f : Core → Core) : (s.mapCore c f).contexts = s.contexts := rfl
@[simp] theorem State.setMe_contexts (s : State) (k : Core) : (s.setMe k).contexts = s.contexts := rfl
@[simp] theorem State.mapMe_contexts (s : State) (f : Core → Core) : (s.mapMe f).contexts = s.contexts := rfl
@[simp] theorem State.mapMySeq_contexts (s : State) (f : Sequencer → Sequencer) : (s.mapMySeq f).contexts = s.contexts := rfl
@[simp] theorem State.setCore_records (s : State) (c : Nat) (k : Core) : (s.setCore c k).records = s.records := rfl
@[simp] theorem State.mapCore_records (s : State) (c : Nat) (f : Core → Core) : (s.mapCore c f).records = s.records := rfl
@[simp] theorem State.setMe_records (s : State) (k : Core) : (s.setMe k).records = s.records := rfl
@[simp] theorem State.mapMe_records (s : State) (f : Core → Core) : (s.mapMe f).records = s.records := rfl
@[simp] theorem State.mapMySeq_records (s : State) (f : Sequencer → Sequencer) : (s.mapMySeq f).records = s.records := rfl
@[simp] theorem State.setCore_tiasid (s : State) (c : Nat) (k : Core) : (s.setCore c k).tiasid = s.tiasid := rfl
@[simp] theorem State.mapCore_tiasid (s : State) (c : Nat) (f : Core → Core) : (s.mapCore c f).tiasid = s.tiasid := rfl
@[simp] theorem State.setMe_tiasid (s : State) (k : Core) : (s.setMe k).tiasid = s.tiasid := rfl
@[simp] theorem State.mapMe_tiasid (s : State) (f : Core → Core) : (s.mapMe f).tiasid = s.tiasid := rfl
@[simp] theorem State.mapMySeq_tiasid (s : State) (f : Sequencer → Sequencer) : (s.mapMySeq f).tiasid = s.tiasid := rfl
@[simp] theorem State.setCore_tiva (s : State) (c : Nat) (k : Core) : (s.setCore c k).tiva = s.tiva := rfl
@[simp] theorem State.mapCore_tiva (s : State) (c : Nat) (f : Core → Core) : (s.mapCore c f).tiva = s.tiva := rfl
@[simp] theorem State.setMe_tiva (s : State) (k : Core) : (s.setMe k).tiva = s.tiva := rfl
@[simp] theorem State.mapMe_tiva (s : State) (f : Core → Core) : (s.mapMe f).tiva = s.tiva := rfl
@[simp] theorem State.mapMySeq_tiva (s : State) (f : Sequencer → Sequencer) : (s.mapMySeq f).tiva = s.tiva := rfl
@[simp] theorem State.setCore_tigo (s : State) (c : Nat) (k : Core) : (s.setCore c k).tigo = s.tigo := rfl
@[simp] theorem State.mapCore_tigo (s : State) (c : Nat) (f : Core → Core) : (s.mapCore c f).tigo = s.tigo := rfl
@[simp] theorem State.setMe_tigo (s : State) (k : Core) : (s.setMe k).tigo = s.tigo := rfl
@[simp] theorem State.mapMe_tigo (s : State) (f : Core → Core) : (s.mapMe f).tigo = s.tigo := rfl
@[simp] theorem State.mapMySeq_tigo (s : State) (f : Sequencer → Sequencer) : (s.mapMySeq f).tigo = s.tigo := rfl
@[simp] theorem State.setCore_posts (s : State) (c : Nat) (k : Core) : (s.setCore c k).posts = s.posts := rfl
@[simp] theorem State.mapCore_posts (s : State) (c : Nat) (f : Core → Core) : (s.mapCore c f).posts = s.posts := rfl
@[simp] theorem State.setMe_posts (s : State) (k : Core) : (s.setMe k).posts = s.posts := rfl
@[simp] theorem State.mapMe_posts (s : State) (f : Core → Core) : (s.mapMe f).posts = s.posts := rfl
@[simp] theorem State.mapMySeq_posts (s : State) (f : Sequencer → Sequencer) : (s.mapMySeq f).posts = s.posts := rfl
@[simp] theorem State.setCore_shards (s : State) (c : Nat) (k : Core) : (s.setCore c k).shards = s.shards := rfl
@[simp] theorem State.mapCore_shards (s : State) (c : Nat) (f : Core → Core) : (s.mapCore c f).shards = s.shards := rfl
@[simp] theorem State.setMe_shards (s : State) (k : Core) : (s.setMe k).shards = s.shards := rfl
@[simp] theorem State.mapMe_shards (s : State) (f : Core → Core) : (s.mapMe f).shards = s.shards := rfl
@[simp] theorem State.mapMySeq_shards (s : State) (f : Sequencer → Sequencer) : (s.mapMySeq f).shards = s.shards := rfl
@[simp] theorem State.setCore_devnum (s : State) (c : Nat) (k : Core) : (s.setCore c k).devnum = s.devnum := rfl
@[simp] theorem State.mapCore_devnum (s : State) (c : Nat) (f : Core → Core) : (s.mapCore c f).devnum = s.devnum := rfl
@[simp] theorem State.setMe_devnum (s : State) (k : Core) : (s.setMe k).devnum = s.devnum := rfl
@[simp] theorem State.mapMe_devnum (s : State) (f : Core → Core) : (s.mapMe f).devnum = s.devnum := rfl
@[simp] theorem State.mapMySeq_devnum (s : State) (f : Sequencer → Sequencer) : (s.mapMySeq f).devnum = s.devnum := rfl
@[simp] theorem State.setCore_hostdev (s : State) (c : Nat) (k : Core) : (s.setCore c k).hostdev = s.hostdev := rfl
@[simp] theorem State.mapCore_hostdev (s : State) (c : Nat) (f : Core → Core) : (s.mapCore c f).hostdev = s.hostdev := rfl
@[simp] theorem State.setMe_hostdev (s : State) (k : Core) : (s.setMe k).hostdev = s.hostdev := rfl
@[simp] theorem State.mapMe_hostdev (s : State) (f : Core → Core) : (s.mapMe f).hostdev = s.hostdev := rfl
@[simp] theorem State.mapMySeq_hostdev (s : State) (f : Sequencer → Sequencer) : (s.mapMySeq f).hostdev = s.hostdev := rfl
@[simp] theorem State.setCore_routes (s : State) (c : Nat) (k : Core) : (s.setCore c k).routes = s.routes := rfl
@[simp] theorem State.mapCore_routes (s : State) (c : Nat) (f : Core → Core) : (s.mapCore c f).routes = s.routes := rfl
@[simp] theorem State.setMe_routes (s : State) (k : Core) : (s.setMe k).routes = s.routes := rfl
@[simp] theorem State.mapMe_routes (s : State) (f : Core → Core) : (s.mapMe f).routes = s.routes := rfl
@[simp] theorem State.mapMySeq_routes (s : State) (f : Sequencer → Sequencer) : (s.mapMySeq f).routes = s.routes := rfl
@[simp] theorem State.setCore_ports (s : State) (c : Nat) (k : Core) : (s.setCore c k).ports = s.ports := rfl
@[simp] theorem State.mapCore_ports (s : State) (c : Nat) (f : Core → Core) : (s.mapCore c f).ports = s.ports := rfl
@[simp] theorem State.setMe_ports (s : State) (k : Core) : (s.setMe k).ports = s.ports := rfl
@[simp] theorem State.mapMe_ports (s : State) (f : Core → Core) : (s.mapMe f).ports = s.ports := rfl
@[simp] theorem State.mapMySeq_ports (s : State) (f : Sequencer → Sequencer) : (s.mapMySeq f).ports = s.ports := rfl
@[simp] theorem State.setCore_faults (s : State) (c : Nat) (k : Core) : (s.setCore c k).faults = s.faults := rfl
@[simp] theorem State.mapCore_faults (s : State) (c : Nat) (f : Core → Core) : (s.mapCore c f).faults = s.faults := rfl
@[simp] theorem State.setMe_faults (s : State) (k : Core) : (s.setMe k).faults = s.faults := rfl
@[simp] theorem State.mapMe_faults (s : State) (f : Core → Core) : (s.mapMe f).faults = s.faults := rfl
@[simp] theorem State.mapMySeq_faults (s : State) (f : Sequencer → Sequencer) : (s.mapMySeq f).faults = s.faults := rfl
@[simp] theorem State.setCore_checkpoint (s : State) (c : Nat) (k : Core) : (s.setCore c k).checkpoint = s.checkpoint := rfl
@[simp] theorem State.mapCore_checkpoint (s : State) (c : Nat) (f : Core → Core) : (s.mapCore c f).checkpoint = s.checkpoint := rfl
@[simp] theorem State.setMe_checkpoint (s : State) (k : Core) : (s.setMe k).checkpoint = s.checkpoint := rfl
@[simp] theorem State.mapMe_checkpoint (s : State) (f : Core → Core) : (s.mapMe f).checkpoint = s.checkpoint := rfl
@[simp] theorem State.mapMySeq_checkpoint (s : State) (f : Sequencer → Sequencer) : (s.mapMySeq f).checkpoint = s.checkpoint := rfl
@[simp] theorem State.setCore_trust (s : State) (c : Nat) (k : Core) : (s.setCore c k).trust = s.trust := rfl
@[simp] theorem State.mapCore_trust (s : State) (c : Nat) (f : Core → Core) : (s.mapCore c f).trust = s.trust := rfl
@[simp] theorem State.setMe_trust (s : State) (k : Core) : (s.setMe k).trust = s.trust := rfl
@[simp] theorem State.mapMe_trust (s : State) (f : Core → Core) : (s.mapMe f).trust = s.trust := rfl
@[simp] theorem State.mapMySeq_trust (s : State) (f : Sequencer → Sequencer) : (s.mapMySeq f).trust = s.trust := rfl
@[simp] theorem State.setCore_mgmt (s : State) (c : Nat) (k : Core) : (s.setCore c k).mgmt = s.mgmt := rfl
@[simp] theorem State.mapCore_mgmt (s : State) (c : Nat) (f : Core → Core) : (s.mapCore c f).mgmt = s.mgmt := rfl
@[simp] theorem State.setMe_mgmt (s : State) (k : Core) : (s.setMe k).mgmt = s.mgmt := rfl
@[simp] theorem State.mapMe_mgmt (s : State) (f : Core → Core) : (s.mapMe f).mgmt = s.mgmt := rfl
@[simp] theorem State.mapMySeq_mgmt (s : State) (f : Sequencer → Sequencer) : (s.mapMySeq f).mgmt = s.mgmt := rfl
@[simp] theorem State.setCore_agenda (s : State) (c : Nat) (k : Core) : (s.setCore c k).agenda = s.agenda := rfl
@[simp] theorem State.mapCore_agenda (s : State) (c : Nat) (f : Core → Core) : (s.mapCore c f).agenda = s.agenda := rfl
@[simp] theorem State.setMe_agenda (s : State) (k : Core) : (s.setMe k).agenda = s.agenda := rfl
@[simp] theorem State.mapMe_agenda (s : State) (f : Core → Core) : (s.mapMe f).agenda = s.agenda := rfl
@[simp] theorem State.mapMySeq_agenda (s : State) (f : Sequencer → Sequencer) : (s.mapMySeq f).agenda = s.agenda := rfl
@[simp] theorem State.setCore_cur (s : State) (c : Nat) (k : Core) : (s.setCore c k).cur = s.cur := rfl
@[simp] theorem State.mapCore_cur (s : State) (c : Nat) (f : Core → Core) : (s.mapCore c f).cur = s.cur := rfl
@[simp] theorem State.setMe_cur (s : State) (k : Core) : (s.setMe k).cur = s.cur := rfl
@[simp] theorem State.mapMe_cur (s : State) (f : Core → Core) : (s.mapMe f).cur = s.cur := rfl
@[simp] theorem State.mapMySeq_cur (s : State) (f : Sequencer → Sequencer) : (s.mapMySeq f).cur = s.cur := rfl
@[simp] theorem State.setCore_clock (s : State) (c : Nat) (k : Core) : (s.setCore c k).clock = s.clock := rfl
@[simp] theorem State.mapCore_clock (s : State) (c : Nat) (f : Core → Core) : (s.mapCore c f).clock = s.clock := rfl
@[simp] theorem State.setMe_clock (s : State) (k : Core) : (s.setMe k).clock = s.clock := rfl
@[simp] theorem State.mapMe_clock (s : State) (f : Core → Core) : (s.mapMe f).clock = s.clock := rfl
@[simp] theorem State.mapMySeq_clock (s : State) (f : Sequencer → Sequencer) : (s.mapMySeq f).clock = s.clock := rfl
@[simp] theorem State.setCore_freeCtr (s : State) (c : Nat) (k : Core) : (s.setCore c k).freeCtr = s.freeCtr := rfl
@[simp] theorem State.mapCore_freeCtr (s : State) (c : Nat) (f : Core → Core) : (s.mapCore c f).freeCtr = s.freeCtr := rfl
@[simp] theorem State.setMe_freeCtr (s : State) (k : Core) : (s.setMe k).freeCtr = s.freeCtr := rfl
@[simp] theorem State.mapMe_freeCtr (s : State) (f : Core → Core) : (s.mapMe f).freeCtr = s.freeCtr := rfl
@[simp] theorem State.mapMySeq_freeCtr (s : State) (f : Sequencer → Sequencer) : (s.mapMySeq f).freeCtr = s.freeCtr := rfl
@[simp] theorem State.setCore_nextId (s : State) (c : Nat) (k : Core) : (s.setCore c k).nextId = s.nextId := rfl
@[simp] theorem State.mapCore_nextId (s : State) (c : Nat) (f : Core → Core) : (s.mapCore c f).nextId = s.nextId := rfl
@[simp] theorem State.setMe_nextId (s : State) (k : Core) : (s.setMe k).nextId = s.nextId := rfl
@[simp] theorem State.mapMe_nextId (s : State) (f : Core → Core) : (s.mapMe f).nextId = s.nextId := rfl
@[simp] theorem State.mapMySeq_nextId (s : State) (f : Sequencer → Sequencer) : (s.mapMySeq f).nextId = s.nextId := rfl
@[simp] theorem State.setCore_noted (s : State) (c : Nat) (k : Core) : (s.setCore c k).noted = s.noted := rfl
@[simp] theorem State.mapCore_noted (s : State) (c : Nat) (f : Core → Core) : (s.mapCore c f).noted = s.noted := rfl
@[simp] theorem State.setMe_noted (s : State) (k : Core) : (s.setMe k).noted = s.noted := rfl
@[simp] theorem State.mapMe_noted (s : State) (f : Core → Core) : (s.mapMe f).noted = s.noted := rfl
@[simp] theorem State.mapMySeq_noted (s : State) (f : Sequencer → Sequencer) : (s.mapMySeq f).noted = s.noted := rfl

/-! ### Replacing a sequencer: every other field of the core stays -/

@[simp] theorem Core.setSeq_v (k : Core) (q : SeqId) (r : Sequencer) : (k.setSeq q r).v = k.v := by cases q <;> rfl
@[simp] theorem Core.mapSeq_v (k : Core) (q : SeqId) (f : Sequencer → Sequencer) : (k.mapSeq q f).v = k.v := by cases q <;> rfl
@[simp] theorem Core.setSlot_v (k : Core) (j : Nat) (t : Slot) : (k.setSlot j t).v = k.v := rfl
@[simp] theorem Core.setSeq_em (k : Core) (q : SeqId) (r : Sequencer) : (k.setSeq q r).em = k.em := by cases q <;> rfl
@[simp] theorem Core.mapSeq_em (k : Core) (q : SeqId) (f : Sequencer → Sequencer) : (k.mapSeq q f).em = k.em := by cases q <;> rfl
@[simp] theorem Core.setSlot_em (k : Core) (j : Nat) (t : Slot) : (k.setSlot j t).em = k.em := rfl
@[simp] theorem Core.setSeq_cm (k : Core) (q : SeqId) (r : Sequencer) : (k.setSeq q r).cm = k.cm := by cases q <;> rfl
@[simp] theorem Core.mapSeq_cm (k : Core) (q : SeqId) (f : Sequencer → Sequencer) : (k.mapSeq q f).cm = k.cm := by cases q <;> rfl
@[simp] theorem Core.setSlot_cm (k : Core) (j : Nat) (t : Slot) : (k.setSlot j t).cm = k.cm := rfl
@[simp] theorem Core.setSeq_k (k : Core) (q : SeqId) (r : Sequencer) : (k.setSeq q r).k = k.k := by cases q <;> rfl
@[simp] theorem Core.mapSeq_k (k : Core) (q : SeqId) (f : Sequencer → Sequencer) : (k.mapSeq q f).k = k.k := by cases q <;> rfl
@[simp] theorem Core.setSlot_k (k : Core) (j : Nat) (t : Slot) : (k.setSlot j t).k = k.k := rfl
@[simp] theorem Core.setSeq_rrb (k : Core) (q : SeqId) (r : Sequencer) : (k.setSeq q r).rrb = k.rrb := by cases q <;> rfl
@[simp] theorem Core.mapSeq_rrb (k : Core) (q : SeqId) (f : Sequencer → Sequencer) : (k.mapSeq q f).rrb = k.rrb := by cases q <;> rfl
@[simp] theorem Core.setSlot_rrb (k : Core) (j : Nat) (t : Slot) : (k.setSlot j t).rrb = k.rrb := rfl
@[simp] theorem Core.setSeq_fflags (k : Core) (q : SeqId) (r : Sequencer) : (k.setSeq q r).fflags = k.fflags := by cases q <;> rfl
@[simp] theorem Core.mapSeq_fflags (k : Core) (q : SeqId) (f : Sequencer → Sequencer) : (k.mapSeq q f).fflags = k.fflags := by cases q <;> rfl
@[simp] theorem Core.setSlot_fflags (k : Core) (j : Nat) (t : Slot) : (k.setSlot j t).fflags = k.fflags := rfl
@[simp] theorem Core.setSeq_frm (k : Core) (q : SeqId) (r : Sequencer) : (k.setSeq q r).frm = k.frm := by cases q <;> rfl
@[simp] theorem Core.mapSeq_frm (k : Core) (q : SeqId) (f : Sequencer → Sequencer) : (k.mapSeq q f).frm = k.frm := by cases q <;> rfl
@[simp] theorem Core.setSlot_frm (k : Core) (j : Nat) (t : Slot) : (k.setSlot j t).frm = k.frm := rfl
@[simp] theorem Core.setSeq_aovf (k : Core) (q : SeqId) (r : Sequencer) : (k.setSeq q r).aovf = k.aovf := by cases q <;> rfl
@[simp] theorem Core.mapSeq_aovf (k : Core) (q : SeqId) (f : Sequencer → Sequencer) : (k.mapSeq q f).aovf = k.aovf := by cases q <;> rfl
@[simp] theorem Core.setSlot_aovf (k : Core) (j : Nat) (t : Slot) : (k.setSlot j t).aovf = k.aovf := rfl
@[simp] theorem Core.setSeq_domain (k : Core) (q : SeqId) (r : Sequencer) : (k.setSeq q r).domain = k.domain := by cases q <;> rfl
@[simp] theorem Core.mapSeq_domain (k : Core) (q : SeqId) (f : Sequencer → Sequencer) : (k.mapSeq q f).domain = k.domain := by cases q <;> rfl
@[simp] theorem Core.setSlot_domain (k : Core) (j : Nat) (t : Slot) : (k.setSlot j t).domain = k.domain := rfl
@[simp] theorem Core.setSeq_helmcfg (k : Core) (q : SeqId) (r : Sequencer) : (k.setSeq q r).helmcfg = k.helmcfg := by cases q <;> rfl
@[simp] theorem Core.mapSeq_helmcfg (k : Core) (q : SeqId) (f : Sequencer → Sequencer) : (k.mapSeq q f).helmcfg = k.helmcfg := by cases q <;> rfl
@[simp] theorem Core.setSlot_helmcfg (k : Core) (j : Nat) (t : Slot) : (k.setSlot j t).helmcfg = k.helmcfg := rfl
@[simp] theorem Core.setSeq_pwincfg (k : Core) (q : SeqId) (r : Sequencer) : (k.setSeq q r).pwincfg = k.pwincfg := by cases q <;> rfl
@[simp] theorem Core.mapSeq_pwincfg (k : Core) (q : SeqId) (f : Sequencer → Sequencer) : (k.mapSeq q f).pwincfg = k.pwincfg := by cases q <;> rfl
@[simp] theorem Core.setSlot_pwincfg (k : Core) (j : Nat) (t : Slot) : (k.setSlot j t).pwincfg = k.pwincfg := rfl
@[simp] theorem Core.setSeq_conf (k : Core) (q : SeqId) (r : Sequencer) : (k.setSeq q r).conf = k.conf := by cases q <;> rfl
@[simp] theorem Core.mapSeq_conf (k : Core) (q : SeqId) (f : Sequencer → Sequencer) : (k.mapSeq q f).conf = k.conf := by cases q <;> rfl
@[simp] theorem Core.setSlot_conf (k : Core) (j : Nat) (t : Slot) : (k.setSlot j t).conf = k.conf := rfl
@[simp] theorem Core.setSeq_eb (k : Core) (q : SeqId) (r : Sequencer) : (k.setSeq q r).eb = k.eb := by cases q <;> rfl
@[simp] theorem Core.mapSeq_eb (k : Core) (q : SeqId) (f : Sequencer → Sequencer) : (k.mapSeq q f).eb = k.eb := by cases q <;> rfl
@[simp] theorem Core.setSlot_eb (k : Core) (j : Nat) (t : Slot) : (k.setSlot j t).eb = k.eb := rfl
@[simp] theorem Core.setSeq_acc (k : Core) (q : SeqId) (r : Sequencer) : (k.setSeq q r).acc = k.acc := by cases q <;> rfl
@[simp] theorem Core.mapSeq_acc (k : Core) (q : SeqId) (f : Sequencer → Sequencer) : (k.mapSeq q f).acc = k.acc := by cases q <;> rfl
@[simp] theorem Core.setSlot_acc (k : Core) (j : Nat) (t : Slot) : (k.setSlot j t).acc = k.acc := rfl
@[simp] theorem Core.setSeq_counters (k : Core) (q : SeqId) (r : Sequencer) : (k.setSeq q r).counters = k.counters := by cases q <;> rfl
@[simp] theorem Core.mapSeq_counters (k : Core) (q : SeqId) (f : Sequencer → Sequencer) : (k.mapSeq q f).counters = k.counters := by cases q <;> rfl
@[simp] theorem Core.setSlot_counters (k : Core) (j : Nat) (t : Slot) : (k.setSlot j t).counters = k.counters := rfl
@[simp] theorem Core.setSeq_combination (k : Core) (q : SeqId) (r : Sequencer) : (k.setSeq q r).combination = k.combination := by cases q <;> rfl
@[simp] theorem Core.mapSeq_combination (k : Core) (q : SeqId) (f : Sequencer → Sequencer) : (k.mapSeq q f).combination = k.combination := by cases q <;> rfl
@[simp] theorem Core.setSlot_combination (k : Core) (j : Nat) (t : Slot) : (k.setSlot j t).combination = k.combination := rfl
@[simp] theorem Core.setSeq_live (k : Core) (q : SeqId) (r : Sequencer) : (k.setSeq q r).live = k.live := by cases q <;> rfl
@[simp] theorem Core.mapSeq_live (k : Core) (q : SeqId) (f : Sequencer → Sequencer) : (k.mapSeq q f).live = k.live := by cases q <;> rfl
@[simp] theorem Core.setSlot_live (k : Core) (j : Nat) (t : Slot) : (k.setSlot j t).live = k.live := rfl
@[simp] theorem Core.setSeq_armed (k : Core) (q : SeqId) (r : Sequencer) : (k.setSeq q r).armed = k.armed := by cases q <;> rfl
@[simp] theorem Core.mapSeq_armed (k : Core) (q : SeqId) (f : Sequencer → Sequencer) : (k.mapSeq q f).armed = k.armed := by cases q <;> rfl
@[simp] theorem Core.setSlot_armed (k : Core) (j : Nat) (t : Slot) : (k.setSlot j t).armed = k.armed := rfl
@[simp] theorem Core.setSeq_mmaRun (k : Core) (q : SeqId) (r : Sequencer) : (k.setSeq q r).mmaRun = k.mmaRun := by cases q <;> rfl
@[simp] theorem Core.mapSeq_mmaRun (k : Core) (q : SeqId) (f : Sequencer → Sequencer) : (k.mapSeq q f).mmaRun = k.mmaRun := by cases q <;> rfl
@[simp] theorem Core.setSlot_mmaRun (k : Core) (j : Nat) (t : Slot) : (k.setSlot j t).mmaRun = k.mmaRun := rfl
@[simp] theorem Core.setSeq_tready (k : Core) (q : SeqId) (r : Sequencer) : (k.setSeq q r).tready = k.tready := by cases q <;> rfl
@[simp] theorem Core.mapSeq_tready (k : Core) (q : SeqId) (f : Sequencer → Sequencer) : (k.mapSeq q f).tready = k.tready := by cases q <;> rfl
@[simp] theorem Core.setSlot_tready (k : Core) (j : Nat) (t : Slot) : (k.setSlot j t).tready = k.tready := rfl
@[simp] theorem Core.setSeq_mbanks (k : Core) (q : SeqId) (r : Sequencer) : (k.setSeq q r).mbanks = k.mbanks := by cases q <;> rfl
@[simp] theorem Core.mapSeq_mbanks (k : Core) (q : SeqId) (f : Sequencer → Sequencer) : (k.mapSeq q f).mbanks = k.mbanks := by cases q <;> rfl
@[simp] theorem Core.setSlot_mbanks (k : Core) (j : Nat) (t : Slot) : (k.setSlot j t).mbanks = k.mbanks := rfl
@[simp] theorem Core.setSeq_vbanks (k : Core) (q : SeqId) (r : Sequencer) : (k.setSeq q r).vbanks = k.vbanks := by cases q <;> rfl
@[simp] theorem Core.mapSeq_vbanks (k : Core) (q : SeqId) (f : Sequencer → Sequencer) : (k.mapSeq q f).vbanks = k.vbanks := by cases q <;> rfl
@[simp] theorem Core.setSlot_vbanks (k : Core) (j : Nat) (t : Slot) : (k.setSlot j t).vbanks = k.vbanks := rfl
@[simp] theorem Core.setSeq_arrivals (k : Core) (q : SeqId) (r : Sequencer) : (k.setSeq q r).arrivals = k.arrivals := by cases q <;> rfl
@[simp] theorem Core.mapSeq_arrivals (k : Core) (q : SeqId) (f : Sequencer → Sequencer) : (k.mapSeq q f).arrivals = k.arrivals := by cases q <;> rfl
@[simp] theorem Core.setSlot_arrivals (k : Core) (j : Nat) (t : Slot) : (k.setSlot j t).arrivals = k.arrivals := rfl
@[simp] theorem Core.setSeq_cwb (k : Core) (q : SeqId) (r : Sequencer) : (k.setSeq q r).cwb = k.cwb := by cases q <;> rfl
@[simp] theorem Core.mapSeq_cwb (k : Core) (q : SeqId) (f : Sequencer → Sequencer) : (k.mapSeq q f).cwb = k.cwb := by cases q <;> rfl
@[simp] theorem Core.setSlot_cwb (k : Core) (j : Nat) (t : Slot) : (k.setSlot j t).cwb = k.cwb := rfl
@[simp] theorem Core.setSeq_cbound (k : Core) (q : SeqId) (r : Sequencer) : (k.setSeq q r).cbound = k.cbound := by cases q <;> rfl
@[simp] theorem Core.mapSeq_cbound (k : Core) (q : SeqId) (f : Sequencer → Sequencer) : (k.mapSeq q f).cbound = k.cbound := by cases q <;> rfl
@[simp] theorem Core.setSlot_cbound (k : Core) (j : Nat) (t : Slot) : (k.setSlot j t).cbound = k.cbound := rfl
@[simp] theorem Core.setSeq_cdrains (k : Core) (q : SeqId) (r : Sequencer) : (k.setSeq q r).cdrains = k.cdrains := by cases q <;> rfl
@[simp] theorem Core.mapSeq_cdrains (k : Core) (q : SeqId) (f : Sequencer → Sequencer) : (k.mapSeq q f).cdrains = k.cdrains := by cases q <;> rfl
@[simp] theorem Core.setSlot_cdrains (k : Core) (j : Nat) (t : Slot) : (k.setSlot j t).cdrains = k.cdrains := rfl
@[simp] theorem Core.setSeq_fmt (k : Core) (q : SeqId) (r : Sequencer) : (k.setSeq q r).fmt = k.fmt := by cases q <;> rfl
@[simp] theorem Core.mapSeq_fmt (k : Core) (q : SeqId) (f : Sequencer → Sequencer) : (k.mapSeq q f).fmt = k.fmt := by cases q <;> rfl
@[simp] theorem Core.setSlot_fmt (k : Core) (j : Nat) (t : Slot) : (k.setSlot j t).fmt = k.fmt := rfl
@[simp] theorem Core.setSeq_granules (k : Core) (q : SeqId) (r : Sequencer) : (k.setSeq q r).granules = k.granules := by cases q <;> rfl
@[simp] theorem Core.mapSeq_granules (k : Core) (q : SeqId) (f : Sequencer → Sequencer) : (k.mapSeq q f).granules = k.granules := by cases q <;> rfl
@[simp] theorem Core.setSlot_granules (k : Core) (j : Nat) (t : Slot) : (k.setSlot j t).granules = k.granules := rfl
@[simp] theorem Core.setSeq_spad (k : Core) (q : SeqId) (r : Sequencer) : (k.setSeq q r).spad = k.spad := by cases q <;> rfl
@[simp] theorem Core.mapSeq_spad (k : Core) (q : SeqId) (f : Sequencer → Sequencer) : (k.mapSeq q f).spad = k.spad := by cases q <;> rfl
@[simp] theorem Core.setSlot_spad (k : Core) (j : Nat) (t : Slot) : (k.setSlot j t).spad = k.spad := rfl
@[simp] theorem Core.setSeq_l1 (k : Core) (q : SeqId) (r : Sequencer) : (k.setSeq q r).l1 = k.l1 := by cases q <;> rfl
@[simp] theorem Core.mapSeq_l1 (k : Core) (q : SeqId) (f : Sequencer → Sequencer) : (k.mapSeq q f).l1 = k.l1 := by cases q <;> rfl
@[simp] theorem Core.setSlot_l1 (k : Core) (j : Nat) (t : Slot) : (k.setSlot j t).l1 = k.l1 := rfl
@[simp] theorem Core.setSeq_l1Clock (k : Core) (q : SeqId) (r : Sequencer) : (k.setSeq q r).l1Clock = k.l1Clock := by cases q <;> rfl
@[simp] theorem Core.mapSeq_l1Clock (k : Core) (q : SeqId) (f : Sequencer → Sequencer) : (k.mapSeq q f).l1Clock = k.l1Clock := by cases q <;> rfl
@[simp] theorem Core.setSlot_l1Clock (k : Core) (j : Nat) (t : Slot) : (k.setSlot j t).l1Clock = k.l1Clock := rfl
@[simp] theorem Core.setSeq_tokens (k : Core) (q : SeqId) (r : Sequencer) : (k.setSeq q r).tokens = k.tokens := by cases q <;> rfl
@[simp] theorem Core.mapSeq_tokens (k : Core) (q : SeqId) (f : Sequencer → Sequencer) : (k.mapSeq q f).tokens = k.tokens := by cases q <;> rfl
@[simp] theorem Core.setSlot_tokens (k : Core) (j : Nat) (t : Slot) : (k.setSlot j t).tokens = k.tokens := rfl
@[simp] theorem Core.setSeq_reserved (k : Core) (q : SeqId) (r : Sequencer) : (k.setSeq q r).reserved = k.reserved := by cases q <;> rfl
@[simp] theorem Core.mapSeq_reserved (k : Core) (q : SeqId) (f : Sequencer → Sequencer) : (k.mapSeq q f).reserved = k.reserved := by cases q <;> rfl
@[simp] theorem Core.setSlot_reserved (k : Core) (j : Nat) (t : Slot) : (k.setSlot j t).reserved = k.reserved := rfl
@[simp] theorem Core.setSeq_dataLX (k : Core) (q : SeqId) (r : Sequencer) : (k.setSeq q r).dataLX = k.dataLX := by cases q <;> rfl
@[simp] theorem Core.mapSeq_dataLX (k : Core) (q : SeqId) (f : Sequencer → Sequencer) : (k.mapSeq q f).dataLX = k.dataLX := by cases q <;> rfl
@[simp] theorem Core.setSlot_dataLX (k : Core) (j : Nat) (t : Slot) : (k.setSlot j t).dataLX = k.dataLX := rfl
@[simp] theorem Core.setSeq_dataXS (k : Core) (q : SeqId) (r : Sequencer) : (k.setSeq q r).dataXS = k.dataXS := by cases q <;> rfl
@[simp] theorem Core.mapSeq_dataXS (k : Core) (q : SeqId) (f : Sequencer → Sequencer) : (k.mapSeq q f).dataXS = k.dataXS := by cases q <;> rfl
@[simp] theorem Core.setSlot_dataXS (k : Core) (j : Nat) (t : Slot) : (k.setSlot j t).dataXS = k.dataXS := rfl
@[simp] theorem Core.setSeq_outcomes (k : Core) (q : SeqId) (r : Sequencer) : (k.setSeq q r).outcomes = k.outcomes := by cases q <;> rfl
@[simp] theorem Core.mapSeq_outcomes (k : Core) (q : SeqId) (f : Sequencer → Sequencer) : (k.mapSeq q f).outcomes = k.outcomes := by cases q <;> rfl
@[simp] theorem Core.setSlot_outcomes (k : Core) (j : Nat) (t : Slot) : (k.setSlot j t).outcomes = k.outcomes := rfl
@[simp] theorem Core.setSeq_fifos (k : Core) (q : SeqId) (r : Sequencer) : (k.setSeq q r).fifos = k.fifos := by cases q <;> rfl
@[simp] theorem Core.mapSeq_fifos (k : Core) (q : SeqId) (f : Sequencer → Sequencer) : (k.mapSeq q f).fifos = k.fifos := by cases q <;> rfl
@[simp] theorem Core.setSlot_fifos (k : Core) (j : Nat) (t : Slot) : (k.setSlot j t).fifos = k.fifos := rfl
@[simp] theorem Core.setSeq_results (k : Core) (q : SeqId) (r : Sequencer) : (k.setSeq q r).results = k.results := by cases q <;> rfl
@[simp] theorem Core.mapSeq_results (k : Core) (q : SeqId) (f : Sequencer → Sequencer) : (k.mapSeq q f).results = k.results := by cases q <;> rfl
@[simp] theorem Core.setSlot_results (k : Core) (j : Nat) (t : Slot) : (k.setSlot j t).results = k.results := rfl
@[simp] theorem Core.setSeq_resultOf (k : Core) (q : SeqId) (r : Sequencer) : (k.setSeq q r).resultOf = k.resultOf := by cases q <;> rfl
@[simp] theorem Core.mapSeq_resultOf (k : Core) (q : SeqId) (f : Sequencer → Sequencer) : (k.mapSeq q f).resultOf = k.resultOf := by cases q <;> rfl
@[simp] theorem Core.setSlot_resultOf (k : Core) (j : Nat) (t : Slot) : (k.setSlot j t).resultOf = k.resultOf := rfl
@[simp] theorem Core.setSeq_stopped (k : Core) (q : SeqId) (r : Sequencer) : (k.setSeq q r).stopped = k.stopped := by cases q <;> rfl
@[simp] theorem Core.mapSeq_stopped (k : Core) (q : SeqId) (f : Sequencer → Sequencer) : (k.mapSeq q f).stopped = k.stopped := by cases q <;> rfl
@[simp] theorem Core.setSlot_stopped (k : Core) (j : Nat) (t : Slot) : (k.setSlot j t).stopped = k.stopped := rfl
@[simp] theorem Core.setSeq_portFree (k : Core) (q : SeqId) (r : Sequencer) : (k.setSeq q r).portFree = k.portFree := by cases q <;> rfl
@[simp] theorem Core.mapSeq_portFree (k : Core) (q : SeqId) (f : Sequencer → Sequencer) : (k.mapSeq q f).portFree = k.portFree := by cases q <;> rfl
@[simp] theorem Core.setSlot_portFree (k : Core) (j : Nat) (t : Slot) : (k.setSlot j t).portFree = k.portFree := rfl
@[simp] theorem Core.setSeq_vready (k : Core) (q : SeqId) (r : Sequencer) : (k.setSeq q r).vready = k.vready := by cases q <;> rfl
@[simp] theorem Core.mapSeq_vready (k : Core) (q : SeqId) (f : Sequencer → Sequencer) : (k.mapSeq q f).vready = k.vready := by cases q <;> rfl
@[simp] theorem Core.setSlot_vready (k : Core) (j : Nat) (t : Slot) : (k.setSlot j t).vready = k.vready := rfl
@[simp] theorem Core.setSeq_vlog (k : Core) (q : SeqId) (r : Sequencer) : (k.setSeq q r).vlog = k.vlog := by cases q <;> rfl
@[simp] theorem Core.mapSeq_vlog (k : Core) (q : SeqId) (f : Sequencer → Sequencer) : (k.mapSeq q f).vlog = k.vlog := by cases q <;> rfl
@[simp] theorem Core.setSlot_vlog (k : Core) (j : Nat) (t : Slot) : (k.setSlot j t).vlog = k.vlog := rfl
@[simp] theorem Core.setSeq_raisedAt (k : Core) (q : SeqId) (r : Sequencer) : (k.setSeq q r).raisedAt = k.raisedAt := by cases q <;> rfl
@[simp] theorem Core.mapSeq_raisedAt (k : Core) (q : SeqId) (f : Sequencer → Sequencer) : (k.mapSeq q f).raisedAt = k.raisedAt := by cases q <;> rfl
@[simp] theorem Core.setSlot_raisedAt (k : Core) (j : Nat) (t : Slot) : (k.setSlot j t).raisedAt = k.raisedAt := rfl
@[simp] theorem Core.setSeq_raisedFlags (k : Core) (q : SeqId) (r : Sequencer) : (k.setSeq q r).raisedFlags = k.raisedFlags := by cases q <;> rfl
@[simp] theorem Core.mapSeq_raisedFlags (k : Core) (q : SeqId) (f : Sequencer → Sequencer) : (k.mapSeq q f).raisedFlags = k.raisedFlags := by cases q <;> rfl
@[simp] theorem Core.setSlot_raisedFlags (k : Core) (j : Nat) (t : Slot) : (k.setSlot j t).raisedFlags = k.raisedFlags := rfl
@[simp] theorem Core.setSeq_raisedAovf (k : Core) (q : SeqId) (r : Sequencer) : (k.setSeq q r).raisedAovf = k.raisedAovf := by cases q <;> rfl
@[simp] theorem Core.mapSeq_raisedAovf (k : Core) (q : SeqId) (f : Sequencer → Sequencer) : (k.mapSeq q f).raisedAovf = k.raisedAovf := by cases q <;> rfl
@[simp] theorem Core.setSlot_raisedAovf (k : Core) (j : Nat) (t : Slot) : (k.setSlot j t).raisedAovf = k.raisedAovf := rfl
@[simp] theorem Core.setSeq_raisedDrains (k : Core) (q : SeqId) (r : Sequencer) : (k.setSeq q r).raisedDrains = k.raisedDrains := by cases q <;> rfl
@[simp] theorem Core.mapSeq_raisedDrains (k : Core) (q : SeqId) (f : Sequencer → Sequencer) : (k.mapSeq q f).raisedDrains = k.raisedDrains := by cases q <;> rfl
@[simp] theorem Core.setSlot_raisedDrains (k : Core) (j : Nat) (t : Slot) : (k.setSlot j t).raisedDrains = k.raisedDrains := rfl
@[simp] theorem Core.setSeq_domainBefore (k : Core) (q : SeqId) (r : Sequencer) : (k.setSeq q r).domainBefore = k.domainBefore := by cases q <;> rfl
@[simp] theorem Core.mapSeq_domainBefore (k : Core) (q : SeqId) (f : Sequencer → Sequencer) : (k.mapSeq q f).domainBefore = k.domainBefore := by cases q <;> rfl
@[simp] theorem Core.setSlot_domainBefore (k : Core) (j : Nat) (t : Slot) : (k.setSlot j t).domainBefore = k.domainBefore := rfl
@[simp] theorem Core.setSeq_portAt (k : Core) (q : SeqId) (r : Sequencer) : (k.setSeq q r).portAt = k.portAt := by cases q <;> rfl
@[simp] theorem Core.mapSeq_portAt (k : Core) (q : SeqId) (f : Sequencer → Sequencer) : (k.mapSeq q f).portAt = k.portAt := by cases q <;> rfl
@[simp] theorem Core.setSlot_portAt (k : Core) (j : Nat) (t : Slot) : (k.setSlot j t).portAt = k.portAt := rfl
@[simp] theorem Core.setSeq_stuckSince (k : Core) (q : SeqId) (r : Sequencer) : (k.setSeq q r).stuckSince = k.stuckSince := by cases q <;> rfl
@[simp] theorem Core.mapSeq_stuckSince (k : Core) (q : SeqId) (f : Sequencer → Sequencer) : (k.mapSeq q f).stuckSince = k.stuckSince := by cases q <;> rfl
@[simp] theorem Core.setSlot_stuckSince (k : Core) (j : Nat) (t : Slot) : (k.setSlot j t).stuckSince = k.stuckSince := rfl
@[simp] theorem Core.setSeq_deferral (k : Core) (q : SeqId) (r : Sequencer) : (k.setSeq q r).deferral = k.deferral := by cases q <;> rfl
@[simp] theorem Core.mapSeq_deferral (k : Core) (q : SeqId) (f : Sequencer → Sequencer) : (k.mapSeq q f).deferral = k.deferral := by cases q <;> rfl
@[simp] theorem Core.setSlot_deferral (k : Core) (j : Nat) (t : Slot) : (k.setSlot j t).deferral = k.deferral := rfl
@[simp] theorem Core.setSeq_inbox (k : Core) (q : SeqId) (r : Sequencer) : (k.setSeq q r).inbox = k.inbox := by cases q <;> rfl
@[simp] theorem Core.mapSeq_inbox (k : Core) (q : SeqId) (f : Sequencer → Sequencer) : (k.mapSeq q f).inbox = k.inbox := by cases q <;> rfl
@[simp] theorem Core.setSlot_inbox (k : Core) (j : Nat) (t : Slot) : (k.setSlot j t).inbox = k.inbox := rfl
@[simp] theorem Core.setSeq_notices (k : Core) (q : SeqId) (r : Sequencer) : (k.setSeq q r).notices = k.notices := by cases q <;> rfl
@[simp] theorem Core.mapSeq_notices (k : Core) (q : SeqId) (f : Sequencer → Sequencer) : (k.mapSeq q f).notices = k.notices := by cases q <;> rfl
@[simp] theorem Core.setSlot_notices (k : Core) (j : Nat) (t : Slot) : (k.setSlot j t).notices = k.notices := rfl
@[simp] theorem Core.setSeq_helm (k : Core) (q : SeqId) (r : Sequencer) : (k.setSeq q r).helm = k.helm := by cases q <;> rfl
@[simp] theorem Core.mapSeq_helm (k : Core) (q : SeqId) (f : Sequencer → Sequencer) : (k.mapSeq q f).helm = k.helm := by cases q <;> rfl
@[simp] theorem Core.setSlot_helm (k : Core) (j : Nat) (t : Slot) : (k.setSlot j t).helm = k.helm := rfl
@[simp] theorem Core.setSeq_participating (k : Core) (q : SeqId) (r : Sequencer) : (k.setSeq q r).participating = k.participating := by cases q <;> rfl
@[simp] theorem Core.mapSeq_participating (k : Core) (q : SeqId) (f : Sequencer → Sequencer) : (k.mapSeq q f).participating = k.participating := by cases q <;> rfl
@[simp] theorem Core.setSlot_participating (k : Core) (j : Nat) (t : Slot) : (k.setSlot j t).participating = k.participating := rfl
@[simp] theorem Core.setSeq_reached (k : Core) (q : SeqId) (r : Sequencer) : (k.setSeq q r).reached = k.reached := by cases q <;> rfl
@[simp] theorem Core.mapSeq_reached (k : Core) (q : SeqId) (f : Sequencer → Sequencer) : (k.mapSeq q f).reached = k.reached := by cases q <;> rfl
@[simp] theorem Core.setSlot_reached (k : Core) (j : Nat) (t : Slot) : (k.setSlot j t).reached = k.reached := rfl
@[simp] theorem Core.setSeq_notified (k : Core) (q : SeqId) (r : Sequencer) : (k.setSeq q r).notified = k.notified := by cases q <;> rfl
@[simp] theorem Core.mapSeq_notified (k : Core) (q : SeqId) (f : Sequencer → Sequencer) : (k.mapSeq q f).notified = k.notified := by cases q <;> rfl
@[simp] theorem Core.setSlot_notified (k : Core) (j : Nat) (t : Slot) : (k.setSlot j t).notified = k.notified := rfl
@[simp] theorem Core.setSeq_later (k : Core) (q : SeqId) (r : Sequencer) : (k.setSeq q r).later = k.later := by cases q <;> rfl
@[simp] theorem Core.mapSeq_later (k : Core) (q : SeqId) (f : Sequencer → Sequencer) : (k.mapSeq q f).later = k.later := by cases q <;> rfl
@[simp] theorem Core.setSlot_later (k : Core) (j : Nat) (t : Slot) : (k.setSlot j t).later = k.later := rfl
@[simp] theorem Core.setSeq_events (k : Core) (q : SeqId) (r : Sequencer) : (k.setSeq q r).events = k.events := by cases q <;> rfl
@[simp] theorem Core.mapSeq_events (k : Core) (q : SeqId) (f : Sequencer → Sequencer) : (k.mapSeq q f).events = k.events := by cases q <;> rfl
@[simp] theorem Core.setSlot_events (k : Core) (j : Nat) (t : Slot) : (k.setSlot j t).events = k.events := rfl
@[simp] theorem Core.setSeq_blocks (k : Core) (q : SeqId) (r : Sequencer) : (k.setSeq q r).blocks = k.blocks := by cases q <;> rfl
@[simp] theorem Core.mapSeq_blocks (k : Core) (q : SeqId) (f : Sequencer → Sequencer) : (k.mapSeq q f).blocks = k.blocks := by cases q <;> rfl
@[simp] theorem Core.setSlot_blocks (k : Core) (j : Nat) (t : Slot) : (k.setSlot j t).blocks = k.blocks := rfl
@[simp] theorem Core.setSeq_ranges (k : Core) (q : SeqId) (r : Sequencer) : (k.setSeq q r).ranges = k.ranges := by cases q <;> rfl
@[simp] theorem Core.mapSeq_ranges (k : Core) (q : SeqId) (f : Sequencer → Sequencer) : (k.mapSeq q f).ranges = k.ranges := by cases q <;> rfl
@[simp] theorem Core.setSlot_ranges (k : Core) (j : Nat) (t : Slot) : (k.setSlot j t).ranges = k.ranges := rfl
@[simp] theorem Core.setSeq_posted (k : Core) (q : SeqId) (r : Sequencer) : (k.setSeq q r).posted = k.posted := by cases q <;> rfl
@[simp] theorem Core.mapSeq_posted (k : Core) (q : SeqId) (f : Sequencer → Sequencer) : (k.mapSeq q f).posted = k.posted := by cases q <;> rfl
@[simp] theorem Core.setSlot_posted (k : Core) (j : Nat) (t : Slot) : (k.setSlot j t).posted = k.posted := rfl
@[simp] theorem Core.setSeq_reads (k : Core) (q : SeqId) (r : Sequencer) : (k.setSeq q r).reads = k.reads := by cases q <;> rfl
@[simp] theorem Core.mapSeq_reads (k : Core) (q : SeqId) (f : Sequencer → Sequencer) : (k.mapSeq q f).reads = k.reads := by cases q <;> rfl
@[simp] theorem Core.setSlot_reads (k : Core) (j : Nat) (t : Slot) : (k.setSlot j t).reads = k.reads := rfl
@[simp] theorem Core.setSeq_loads (k : Core) (q : SeqId) (r : Sequencer) : (k.setSeq q r).loads = k.loads := by cases q <;> rfl
@[simp] theorem Core.mapSeq_loads (k : Core) (q : SeqId) (f : Sequencer → Sequencer) : (k.mapSeq q f).loads = k.loads := by cases q <;> rfl
@[simp] theorem Core.setSlot_loads (k : Core) (j : Nat) (t : Slot) : (k.setSlot j t).loads = k.loads := rfl
@[simp] theorem Core.setSeq_stores (k : Core) (q : SeqId) (r : Sequencer) : (k.setSeq q r).stores = k.stores := by cases q <;> rfl
@[simp] theorem Core.mapSeq_stores (k : Core) (q : SeqId) (f : Sequencer → Sequencer) : (k.mapSeq q f).stores = k.stores := by cases q <;> rfl
@[simp] theorem Core.setSlot_stores (k : Core) (j : Nat) (t : Slot) : (k.setSlot j t).stores = k.stores := rfl
@[simp] theorem Core.setSeq_counters32 (k : Core) (q : SeqId) (r : Sequencer) : (k.setSeq q r).counters32 = k.counters32 := by cases q <;> rfl
@[simp] theorem Core.mapSeq_counters32 (k : Core) (q : SeqId) (f : Sequencer → Sequencer) : (k.mapSeq q f).counters32 = k.counters32 := by cases q <;> rfl
@[simp] theorem Core.setSlot_counters32 (k : Core) (j : Nat) (t : Slot) : (k.setSlot j t).counters32 = k.counters32 := rfl
@[simp] theorem Core.setSeq_routing (k : Core) (q : SeqId) (r : Sequencer) : (k.setSeq q r).routing = k.routing := by cases q <;> rfl
@[simp] theorem Core.mapSeq_routing (k : Core) (q : SeqId) (f : Sequencer → Sequencer) : (k.mapSeq q f).routing = k.routing := by cases q <;> rfl
@[simp] theorem Core.setSlot_routing (k : Core) (j : Nat) (t : Slot) : (k.setSlot j t).routing = k.routing := rfl
@[simp] theorem Core.setSeq_phase (k : Core) (q : SeqId) (r : Sequencer) : (k.setSeq q r).phase = k.phase := by cases q <;> rfl
@[simp] theorem Core.mapSeq_phase (k : Core) (q : SeqId) (f : Sequencer → Sequencer) : (k.mapSeq q f).phase = k.phase := by cases q <;> rfl
@[simp] theorem Core.setSlot_phase (k : Core) (j : Nat) (t : Slot) : (k.setSlot j t).phase = k.phase := rfl
@[simp] theorem Core.setSeq_leewayWait (k : Core) (q : SeqId) (r : Sequencer) : (k.setSeq q r).leewayWait = k.leewayWait := by cases q <;> rfl
@[simp] theorem Core.mapSeq_leewayWait (k : Core) (q : SeqId) (f : Sequencer → Sequencer) : (k.mapSeq q f).leewayWait = k.leewayWait := by cases q <;> rfl
@[simp] theorem Core.setSlot_leewayWait (k : Core) (j : Nat) (t : Slot) : (k.setSlot j t).leewayWait = k.leewayWait := rfl
@[simp] theorem Core.setSeq_round (k : Core) (q : SeqId) (r : Sequencer) : (k.setSeq q r).round = k.round := by cases q <;> rfl
@[simp] theorem Core.mapSeq_round (k : Core) (q : SeqId) (f : Sequencer → Sequencer) : (k.mapSeq q f).round = k.round := by cases q <;> rfl
@[simp] theorem Core.setSeq_tile (k : Core) (q : SeqId) (r : Sequencer) : (k.setSeq q r).tile = k.tile := by cases q <;> rfl
@[simp] theorem Core.mapSeq_tile (k : Core) (q : SeqId) (f : Sequencer → Sequencer) : (k.mapSeq q f).tile = k.tile := by cases q <;> rfl
@[simp] theorem Core.setSlot_tile (k : Core) (j : Nat) (t : Slot) : (k.setSlot j t).tile = k.tile := rfl
@[simp] theorem Core.setSeq_lastLaunch (k : Core) (q : SeqId) (r : Sequencer) : (k.setSeq q r).lastLaunch = k.lastLaunch := by cases q <;> rfl
@[simp] theorem Core.mapSeq_lastLaunch (k : Core) (q : SeqId) (f : Sequencer → Sequencer) : (k.mapSeq q f).lastLaunch = k.lastLaunch := by cases q <;> rfl
@[simp] theorem Core.setSlot_lastLaunch (k : Core) (j : Nat) (t : Slot) : (k.setSlot j t).lastLaunch = k.lastLaunch := rfl
@[simp] theorem Core.setSeq_tlb (k : Core) (q : SeqId) (r : Sequencer) : (k.setSeq q r).tlb = k.tlb := by cases q <;> rfl
@[simp] theorem Core.mapSeq_tlb (k : Core) (q : SeqId) (f : Sequencer → Sequencer) : (k.mapSeq q f).tlb = k.tlb := by cases q <;> rfl
@[simp] theorem Core.setSlot_tlb (k : Core) (j : Nat) (t : Slot) : (k.setSlot j t).tlb = k.tlb := rfl
@[simp] theorem Core.setSeq_walkFaults (k : Core) (q : SeqId) (r : Sequencer) : (k.setSeq q r).walkFaults = k.walkFaults := by cases q <;> rfl
@[simp] theorem Core.mapSeq_walkFaults (k : Core) (q : SeqId) (f : Sequencer → Sequencer) : (k.mapSeq q f).walkFaults = k.walkFaults := by cases q <;> rfl
@[simp] theorem Core.setSlot_walkFaults (k : Core) (j : Nat) (t : Slot) : (k.setSlot j t).walkFaults = k.walkFaults := rfl

/-! ### Writing a g-register: every other field of the sequencer stays -/

@[simp] theorem Sequencer.setG_pc (r : Sequencer) (n : Nat) (v : Word) : (r.setG n v).pc = r.pc := by unfold Sequencer.setG; split <;> rfl
@[simp] theorem Sequencer.setG_shadow (r : Sequencer) (n : Nat) (v : Word) : (r.setG n v).shadow = r.shadow := by unfold Sequencer.setG; split <;> rfl
@[simp] theorem Sequencer.setG_sg (r : Sequencer) (n : Nat) (v : Word) : (r.setG n v).sg = r.sg := by unfold Sequencer.setG; split <;> rfl
@[simp] theorem Sequencer.setG_tvec (r : Sequencer) (n : Nat) (v : Word) : (r.setG n v).tvec = r.tvec := by unfold Sequencer.setG; split <;> rfl
@[simp] theorem Sequencer.setG_epc (r : Sequencer) (n : Nat) (v : Word) : (r.setG n v).epc = r.epc := by unfold Sequencer.setG; split <;> rfl
@[simp] theorem Sequencer.setG_ecause (r : Sequencer) (n : Nat) (v : Word) : (r.setG n v).ecause = r.ecause := by unfold Sequencer.setG; split <;> rfl
@[simp] theorem Sequencer.setG_halted (r : Sequencer) (n : Nat) (v : Word) : (r.setG n v).halted = r.halted := by unfold Sequencer.setG; split <;> rfl
@[simp] theorem Sequencer.setG_inHandler (r : Sequencer) (n : Nat) (v : Word) : (r.setG n v).inHandler = r.inHandler := by unfold Sequencer.setG; split <;> rfl
@[simp] theorem Sequencer.setG_recovery (r : Sequencer) (n : Nat) (v : Word) : (r.setG n v).recovery = r.recovery := by unfold Sequencer.setG; split <;> rfl
@[simp] theorem Sequencer.setG_resumes (r : Sequencer) (n : Nat) (v : Word) : (r.setG n v).resumes = r.resumes := by unfold Sequencer.setG; split <;> rfl
@[simp] theorem Sequencer.setG_ready (r : Sequencer) (n : Nat) (v : Word) : (r.setG n v).ready = r.ready := by unfold Sequencer.setG; split <;> rfl
@[simp] theorem Sequencer.setG_outstanding (r : Sequencer) (n : Nat) (v : Word) : (r.setG n v).outstanding = r.outstanding := by unfold Sequencer.setG; split <;> rfl
@[simp] theorem Sequencer.setG_lastIssue (r : Sequencer) (n : Nat) (v : Word) : (r.setG n v).lastIssue = r.lastIssue := by unfold Sequencer.setG; split <;> rfl
@[simp] theorem Sequencer.setG_lastM (r : Sequencer) (n : Nat) (v : Word) : (r.setG n v).lastM = r.lastM := by unfold Sequencer.setG; split <;> rfl
@[simp] theorem Sequencer.setG_segment (r : Sequencer) (n : Nat) (v : Word) : (r.setG n v).segment = r.segment := by unfold Sequencer.setG; split <;> rfl
@[simp] theorem Sequencer.setG_poppedAt (r : Sequencer) (n : Nat) (v : Word) : (r.setG n v).poppedAt = r.poppedAt := by unfold Sequencer.setG; split <;> rfl
@[simp] theorem Sequencer.setG_scattered (r : Sequencer) (n : Nat) (v : Word) : (r.setG n v).scattered = r.scattered := by unfold Sequencer.setG; split <;> rfl
@[simp] theorem Sequencer.setG_drain (r : Sequencer) (n : Nat) (v : Word) : (r.setG n v).drain = r.drain := by unfold Sequencer.setG; split <;> rfl
@[simp] theorem Sequencer.setG_waitSince (r : Sequencer) (n : Nat) (v : Word) : (r.setG n v).waitSince = r.waitSince := by unfold Sequencer.setG; split <;> rfl
@[simp] theorem Sequencer.setG_waitOn (r : Sequencer) (n : Nat) (v : Word) : (r.setG n v).waitOn = r.waitOn := by unfold Sequencer.setG; split <;> rfl
@[simp] theorem Sequencer.setG_turnAt (r : Sequencer) (n : Nat) (v : Word) : (r.setG n v).turnAt = r.turnAt := by unfold Sequencer.setG; split <;> rfl
@[simp] theorem Sequencer.setG_turns (r : Sequencer) (n : Nat) (v : Word) : (r.setG n v).turns = r.turns := by unfold Sequencer.setG; split <;> rfl
@[simp] theorem Sequencer.setG_inherits (r : Sequencer) (n : Nat) (v : Word) : (r.setG n v).inherits = r.inherits := by unfold Sequencer.setG; split <;> rfl
@[simp] theorem Sequencer.setG_marks (r : Sequencer) (n : Nat) (v : Word) : (r.setG n v).marks = r.marks := by unfold Sequencer.setG; split <;> rfl
@[simp] theorem Sequencer.setG_loadAfter (r : Sequencer) (n : Nat) (v : Word) : (r.setG n v).loadAfter = r.loadAfter := by unfold Sequencer.setG; split <;> rfl
@[simp] theorem Sequencer.setG_storeAfter (r : Sequencer) (n : Nat) (v : Word) : (r.setG n v).storeAfter = r.storeAfter := by unfold Sequencer.setG; split <;> rfl
@[simp] theorem Sequencer.setG_lines (r : Sequencer) (n : Nat) (v : Word) : (r.setG n v).lines = r.lines := by unfold Sequencer.setG; split <;> rfl
@[simp] theorem Sequencer.setG_pending (r : Sequencer) (n : Nat) (v : Word) : (r.setG n v).pending = r.pending := by unfold Sequencer.setG; split <;> rfl

/-! ### Reading back -/

@[simp] theorem Core.seq_setSeq_same (k : Core) (q : SeqId) (r : Sequencer) : (k.setSeq q r).seq q = r := by cases q <;> rfl

theorem Core.seq_setSeq_other (k : Core) (q p : SeqId) (r : Sequencer) (h : p ≠ q) : (k.setSeq q r).seq p = k.seq p := by
  cases q <;> cases p <;> first | rfl | exact absurd rfl h

@[simp] theorem Core.seq_mapSeq_same (k : Core) (q : SeqId) (f : Sequencer → Sequencer) : (k.mapSeq q f).seq q = f (k.seq q) := by
  simp [Core.mapSeq]

theorem Core.seq_mapSeq_other (k : Core) (q p : SeqId) (f : Sequencer → Sequencer) (h : p ≠ q) : (k.mapSeq q f).seq p = k.seq p :=
  Core.seq_setSeq_other k q p _ h

/-- A core written is read there. -/
@[simp] theorem State.core_setCore_same (s : State) (c : Nat) (k : Core) : (s.setCore c k).core c = k :=
  Table.get_set_same Core.reset s.cores c k

/-- Every other core stays. -/
theorem State.core_setCore_other (s : State) (c d : Nat) (k : Core) (h : d ≠ c) :
    (s.setCore c k).core d = s.core d :=
  Table.get_set_other Core.reset s.cores c d k h

@[simp] theorem State.core_mapCore_same (s : State) (c : Nat) (f : Core → Core) :
    (s.mapCore c f).core c = f (s.core c) := State.core_setCore_same s c _

theorem State.core_mapCore_other (s : State) (c d : Nat) (f : Core → Core) (h : d ≠ c) :
    (s.mapCore c f).core d = s.core d := State.core_setCore_other s c d _ h

@[simp] theorem State.me_mapMe (s : State) (f : Core → Core) : (s.mapMe f).me = f s.me :=
  State.core_setCore_same s _ _

@[simp] theorem State.mySeq_mapMySeq (s : State) (f : Sequencer → Sequencer) :
    (s.mapMySeq f).mySeq = f s.mySeq := by
  unfold State.mapMySeq State.mySeq
  rw [State.me_mapMe s _]
  exact Core.seq_mapSeq_same _ _ _

/-- Updating a core keeps the table of cores canonical. -/
theorem State.wf_setCore (s : State) (c : Nat) (k : Core) (w : Table.wf Core.reset s.cores = true) :
    Table.wf Core.reset (s.setCore c k).cores = true := Table.wf_set Core.reset s.cores c k w

/-- g0 reads zero (R27). -/
@[simp] theorem Sequencer.getG_zero (r : Sequencer) : r.getG 0 = 0 := rfl
/-- Writes to g0 are discarded (R27). -/
@[simp] theorem Sequencer.setG_zero (r : Sequencer) (v : Word) : r.setG 0 v = r := rfl

theorem Sequencer.getG_setG_same (r : Sequencer) (n : Nat) (v : Word) (h : n ≠ 0) : (r.setG n v).getG n = v := by
  simp only [Sequencer.getG, Sequencer.setG, h, if_false]
  exact Table.get_set_same 0 r.g n v

theorem Sequencer.getG_setG_other (r : Sequencer) (n m : Nat) (v : Word) (h : m ≠ n) :
    (r.setG n v).getG m = r.getG m := by
  by_cases h0 : n = 0
  · subst h0; rfl
  · by_cases h1 : m = 0
    · subst h1; rfl
    · simp only [Sequencer.getG, Sequencer.setG, h0, h1, if_false]
      exact Table.get_set_other 0 r.g n m v h

/-! ### Memory operations keep the canonical form -/

/-- The memories of the part and of the outside are in their canonical form. -/
def State.MemWf (s : State) : Prop := s.hbm.wf = true ∧ s.outside.wf = true

theorem State.wf_hbmWrite (s : State) (a : Nat) (b : Byte) (w : s.MemWf) : (s.hbmWrite a b).MemWf := by
  unfold State.hbmWrite
  split
  · exact w
  · exact ⟨Memory.wf_write s.hbm a b w.1, w.2⟩

theorem State.wf_passByte (s : State) (a : Nat) (w : s.MemWf) : (s.passByte a).MemWf := by
  unfold State.passByte
  split
  · exact State.wf_hbmWrite s _ _ w
  · exact w

/-- A fold over a list keeps the canonical form where each of its steps does. -/
theorem State.wf_foldl {α : Type} (f : State → α → State) (h : ∀ t x, t.MemWf → (f t x).MemWf) :
    ∀ (l : List α) (s : State), s.MemWf → (l.foldl f s).MemWf
  | [], _, w => w
  | x :: r, s, w => State.wf_foldl f h r (f s x) (h s x w)

theorem State.wf_makeRoom (s : State) (a : Nat) (w : s.MemWf) : (s.makeRoom a).MemWf := by
  unfold State.makeRoom
  split
  · exact w
  · dsimp only
    split
    · exact w
    · split
      · exact w
      · exact State.wf_foldl _ (fun t x h => State.wf_passByte t _ h) _ s w

theorem State.wf_l2Write (s : State) (a : Nat) (b : Byte) (w : s.MemWf) : (s.l2Write a b).MemWf := State.wf_makeRoom s a w

theorem State.wf_l2Flush (s : State) (w : s.MemWf) : s.l2Flush.MemWf :=
  State.wf_foldl _ (fun t c h => State.wf_hbmWrite t c.1 c.2 h) s.l2 s w

theorem State.wf_physWrite (s : State) (system : Bool) (pa : Nat) (b : Byte) (w : s.MemWf) : (s.physWrite system pa b).MemWf := by
  unfold State.physWrite
  split
  · split
    · exact State.wf_hbmWrite s _ b w
    · exact State.wf_l2Write s _ b w
  · exact w
  · exact w
  · exact ⟨w.1, Memory.wf_write s.outside pa b w.2⟩
  · exact ⟨w.1, Memory.wf_write s.outside pa b w.2⟩

theorem State.wf_physWriteBytes : ∀ (bs : List Byte) (s : State) (system : Bool) (pa : Nat), s.MemWf →
    (s.physWriteBytes system pa bs).MemWf
  | [], _, _, _, w => w
  | b :: r, s, system, pa, w => State.wf_physWriteBytes r (s.physWrite system pa b) system (pa + 1) (State.wf_physWrite s system pa b w)

end Sys2Proof.Machine
end

