-- ==== Sys2Proof/Laws/Issue.lean ====
section
/-! SUPPORT. What issuing a word can come to, once for all words: a word always answers a next state, and which one follows from
the checks before its effect and from how its body ends. -/

namespace Sys2Proof.Machine

/-- A word never stops the machine. -/
theorem issueWord_next (p : Issue) (h : Header) (body : State → Eff) (s : State) : ∃ t, issueWord p h body s = .next t := by
  unfold issueWord
  split
  · exact ⟨_, rfl⟩
  · exact ⟨_, rfl⟩
  · exact ⟨_, rfl⟩
  · exact ⟨_, rfl⟩
  · exact ⟨_, rfl⟩
  · exact ⟨_, rfl⟩
  · split
    · exact ⟨_, rfl⟩
    · split
      · exact ⟨_, rfl⟩
      · exact ⟨_, rfl⟩
      · exact ⟨_, rfl⟩
      · exact ⟨_, rfl⟩
      · split
        · split <;> exact ⟨_, rfl⟩
        · exact ⟨_, rfl⟩

/-- A word that passes the checks and whose effect is done retires. -/
theorem issueWord_done (p : Issue) (h : Header) (body : State → Eff) (s t : State) (n : Word) (g : gate p h s = .go)
    (hs : ¬(s.cur.slot ≠ 0 ∧ p.noSpec = true)) (hb : body s = .done t n) : issueWord p h body s = .next (t.retire p h n false) := by
  simp only [issueWord, g, hs, if_false, hb]

/-- A word that passes the checks and transfers control retires at its target. -/
theorem issueWord_jump (p : Issue) (h : Header) (body : State → Eff) (s t : State) (n : Word) (g : gate p h s = .go)
    (hs : ¬(s.cur.slot ≠ 0 ∧ p.noSpec = true)) (hb : body s = .jump t n) : issueWord p h body s = .next (t.retire p h n true) := by
  simp only [issueWord, g, hs, if_false, hb]

/-- A word that passes the checks and meets a precise cause takes its trap. -/
theorem issueWord_trap (p : Issue) (h : Header) (body : State → Eff) (s : State) (i : FaultInfo) (g : gate p h s = .go)
    (hs : ¬(s.cur.slot ≠ 0 ∧ p.noSpec = true)) (hb : body s = .trap i) : issueWord p h body s = .next (s.trapCopy p h i) := by
  simp only [issueWord, g, hs, if_false, hb]

/-- A word that fails the checks of decoding's rows 5 and 6 takes their trap (R86). -/
theorem issueWord_barred (p : Issue) (h : Header) (body : State → Eff) (s : State) (i : FaultInfo) (g : gate p h s = .trap i)
    (hs : s.cur.slot = 0) : issueWord p h body s = .next (s.takeTrap i) := by
  simp only [issueWord, g, hs, if_true]

/-- A word whose predicate is 0 has no effect of its own. -/
theorem issueWord_skip (p : Issue) (h : Header) (body : State → Eff) (s : State) (g : gate p h s = .skip) :
    issueWord p h body s = .next ((s.account { p with pushes := [], pops := [], dsts := [], engine := none }
      { h with tkp := 0, tks := 0 }).mapMySeq (fun r => r.goTo (r.pc + BitVec.ofNat 64 p.size) false)) := by
  simp only [issueWord, g]

/-- A word issued past the cycle of its place in a FIXED segment misses its schedule. -/
theorem issueWord_miss (p : Issue) (h : Header) (body : State → Eff) (s : State) (g : gate p h s = .miss) :
    issueWord p h body s = .next (s.missWord p h) := by
  simp only [issueWord, g]

/-- A sequencer not named by a word's description may not issue it. -/
theorem gate_trap_of_not_who (p : Issue) (h : Header) (s : State) (w : p.who.contains s.cur.seq = false) :
    gate p h s = .trap (.bare .illegal) := by
  simp [gate, show s.cur.seq ∉ p.who by simpa using w]

/-- The end of the copy of slot 0 outside a round. -/
theorem retire_plain (p : Issue) (h : Header) (s : State) (n : Word) (taken : Bool) (hs : s.cur.slot = 0)
    (hr0 : s.inRound p.once = false) : s.retire p h n taken = (s.account p h).goOn n taken := by
  simp [State.retire, hs, hr0]

/-- Moving fetch on changes the program counter and the fetch lines only. -/
@[simp] theorem Sequencer.goTo_pc (r : Sequencer) (n : Word) (b : Bool) : (r.goTo n b).pc = n := rfl
@[simp] theorem Sequencer.goTo_g (r : Sequencer) (n : Word) (b : Bool) : (r.goTo n b).g = r.g := rfl
@[simp] theorem Sequencer.goTo_tvec (r : Sequencer) (n : Word) (b : Bool) : (r.goTo n b).tvec = r.tvec := rfl
@[simp] theorem Sequencer.goTo_epc (r : Sequencer) (n : Word) (b : Bool) : (r.goTo n b).epc = r.epc := rfl
@[simp] theorem Sequencer.goTo_ecause (r : Sequencer) (n : Word) (b : Bool) : (r.goTo n b).ecause = r.ecause := rfl

/-- The bookkeeping of an issue changes the present core only. -/
@[simp] theorem State.account_hbm (s : State) (p : Issue) (h : Header) : (s.account p h).hbm = s.hbm := rfl
@[simp] theorem State.account_l2 (s : State) (p : Issue) (h : Header) : (s.account p h).l2 = s.l2 := rfl
@[simp] theorem State.account_outside (s : State) (p : Issue) (h : Header) : (s.account p h).outside = s.outside := rfl
@[simp] theorem State.account_chron (s : State) (p : Issue) (h : Header) : (s.account p h).chron = s.chron := rfl
@[simp] theorem State.goOn_hbm (s : State) (n : Word) (b : Bool) : (s.goOn n b).hbm = s.hbm := rfl
@[simp] theorem State.goOn_l2 (s : State) (n : Word) (b : Bool) : (s.goOn n b).l2 = s.l2 := rfl
@[simp] theorem State.goOn_outside (s : State) (n : Word) (b : Bool) : (s.goOn n b).outside = s.outside := rfl
@[simp] theorem State.goOn_chron (s : State) (n : Word) (b : Bool) : (s.goOn n b).chron = s.chron := rfl
@[simp] theorem State.account_cur (s : State) (p : Issue) (h : Header) : (s.account p h).cur = s.cur := rfl

end Sys2Proof.Machine
end

