-- ==== Sys2Proof/Laws/Entering.lean ====
section
/-! SUPPORT. What entering an engine's FIFO comes to, once for all words and records that do so: with room, the command stands at its
FIFO's end with its ranges and the sequencer goes on. -/

namespace Sys2Proof.Machine
open Sys2Proof Sys2Proof.Safety

/-- A word of slot 0 that passes the checks and whose effect is done goes on at the next word. -/
theorem issueWord_went (p : Issue) (h : Header) (body : State → Eff) (s t : State) (n : Word) (g : gate p h s = .go)
    (hs : s.cur.slot = 0) (hb : body s = .done t n) : issueWord p h body s = went p h t n :=
  issueWord_done p h body s t n g (by simp [hs]) hb

/-- A word of slot 0 that passes the checks and transfers control goes on at its target. -/
theorem issueWord_jumped (p : Issue) (h : Header) (body : State → Eff) (s t : State) (n : Word) (g : gate p h s = .go)
    (hs : s.cur.slot = 0) (hb : body s = .jump t n) : issueWord p h body s = jumped p h t n :=
  issueWord_jump p h body s t n g (by simp [hs]) hb

/-- A word with an absent operand traps in decoding (R86 row 6). -/
theorem gate_absent (p : Issue) (h : Header) (s : State) (i : FaultInfo) (w : p.who.contains s.cur.seq = true)
    (r : ¬(h.rot = 1 ∧ s.cur.seq ≠ .x)) (m : p.lanes = true ∨ (h.msrc ≠ 1 ∧ h.msrc ≠ 2)) (a : p.absent = some i) :
    gate p h s = .trap i := by
  have h1 : (h.rot == 1 && s.cur.seq != .x) = false := by simpa using r
  have h2 : ((h.msrc == 1 || h.msrc == 2) && !p.lanes) = false := by
    rcases m with m | ⟨m1, m2⟩
    · simp [m]
    · rw [beq_false_of_ne m1, beq_false_of_ne m2]
      rfl
  simp only [gate, w, h1, h2, a, Bool.not_true, Bool.or_self, Bool.false_eq_true, if_false]

/-- A command enters a FIFO that has room for it. -/
theorem State.enter_done (s : State) (port : Nat) (c : Command) (size : Nat) (h1 : s.me.fifoRoom port = true)
    (h2 : s.me.older s.cur.seq port s.cycle = false) (h3 : s.me.beginsAtOnce port c = true) :
    s.enter port c size = .done { s.mapMe (fun k => k.accept port c) with nextId := s.nextId + 1 } (s.pc + BitVec.ofNat 64 size) := by
  have h2' : s.me.olderThan port (s.mySeq.waitSince.getD s.cycle) s.cur.seq.num = false := h2
  simp [State.enter, State.enterAs, h1, h2', h3]

/-- A command enters a FIFO with its ranges where there is room for both. -/
theorem State.enterWith_done (s : State) (port : Nat) (c : Command) (size : Nat) (spans : List Span) (r : room s port c spans) :
    s.enterWith port c size spans = .done ({ s.mapMe (fun k => k.accept port c) with nextId := s.nextId + 1 }.mapMe (fun k =>
      (spans.filter (fun (x : Span) => x.len != 0)).foldl (fun (k : Core) (x : Span) =>
        k.addRange ⟨.command c.id, x.space, x.lo, x.len, x.loads, s.cycle, none⟩) k)) (s.pc + BitVec.ofNat 64 size) := by
  obtain ⟨h1, h2, h3, h4⟩ := r
  simp only [State.enterWith, State.withSpans, State.enter_done s port c size h1 h2 h3, Nat.not_lt.mpr h4, if_false]

/-- A word of the engines that passes the checks, in slot 0, enters its FIFO: its command and ranges are those of the present state. -/
theorem engineWord_entered (i : Instr) (port : Nat) (who : List SeqId) (ns ds : Bool) (h : Header) (o : EngOps) (cmd : State → Command)
    (spans : State → Command → List Span) (s : State) (c : Command) (l : List Span) (hs : s.cur.slot = 0) (hc : cmd s = c) (hl : spans s c = l)
    (g : gate (engineIssue i port who ns o) h s = .go) (r : room s port c l) :
    engineWord i port who ns ds h o cmd spans s = entered (engineIssue i port who ns o) h s port c l := by
  subst hc
  subst hl
  refine issueWord_went _ _ _ _ _ _ g hs ?_
  simp only [hs, ne_eq, not_true_eq_false, false_and, if_false]
  exact State.enterWith_done s port (cmd s) 16 (spans s (cmd s)) r

/-- A record of these engines that passes the checks, in slot 0, enters its FIFO. -/
theorem engineRecord_entered (i : Instr) (port : Nat) (who : List SeqId) (h : Header) (x : RecOps) (spans : State → Command → List Span)
    (s : State) (l : List Span) (hs : s.cur.slot = 0) (hl : spans s (s.headerCommand i h x) = l)
    (g : gate (recordIssue i port who false x) h s = .go) (r : room s port (s.headerCommand i h x) l) :
    engineRecord i port who h x spans s = entered (recordIssue i port who false x) h s port (s.headerCommand i h x) l := by
  subst hl
  exact issueWord_went _ _ _ _ _ _ g hs (State.enterWith_done s port _ 64 _ r)

/-- A word of the matrix engine that passes the checks, in slot 0, enters its FIFO. -/
theorem matrixWord_entered (i : Instr) (h : Header) (o : EngOps) (ns : Bool) (absent : State → Bool) (spans : State → List Span) (s : State)
    (a : Bool) (l : List Span) (hs : s.cur.slot = 0) (ha : absent s = a) (hl : spans s = l)
    (g : gate { engineIssue i 3 [.x] ns o with absent := if a then some (.bare .accConfig) else none } h s = .go)
    (r : room s 3 (s.engCommand i h o) l) :
    matrixWord i h o ns absent spans s =
      entered { engineIssue i 3 [.x] ns o with absent := if a then some (.bare .accConfig) else none } h s 3 (s.engCommand i h o) l := by
  subst ha
  subst hl
  exact issueWord_went _ _ _ _ _ _ g hs (State.enterWith_done s 3 _ 16 _ r)

/-- A word that names an absent tile, or the counters where there are none, takes its fault in decoding (R86 row 6). -/
theorem matrixWord_absent (i : Instr) (h : Header) (o : EngOps) (ns : Bool) (absent : State → Bool) (spans : State → List Span) (s : State)
    (hs : s.cur.slot = 0) (q : s.cur.seq = .x) (m1 : h.msrc ≠ 1) (m2 : h.msrc ≠ 2) (a : absent s = true) :
    matrixWord i h o ns absent spans s = .next (s.takeTrap (.bare .accConfig)) :=
  issueWord_barred _ _ _ _ _ (gate_absent _ h s _ (by simp [engineIssue, q]) (by simp [q]) (Or.inr ⟨m1, m2⟩) (by simp [a])) hs

end Sys2Proof.Machine
end

