-- ==== Sys2Proof/Laws/Exec.lean ====
section
/-! SUPPORT. What exec does with each instruction: the meaning that its arm calls, one equation per constructor. -/

namespace Sys2Proof.Machine

theorem exec_add (h : Header) (o : RegOps) (s : State) : exec (.add h o) s = execAdd h o s := rfl
theorem exec_sub (h : Header) (o : RegOps) (s : State) : exec (.sub h o) s = execSub h o s := rfl
theorem exec_mul (h : Header) (o : RegOps) (s : State) : exec (.mul h o) s = execMul h o s := rfl
theorem exec_mulh (h : Header) (o : RegOps) (s : State) : exec (.mulh h o) s = execMulh h o s := rfl
theorem exec_mulhn (h : Header) (o : RegOps) (s : State) : exec (.mulhn h o) s = execMulhn h o s := rfl
theorem exec_div (h : Header) (o : RegOps) (s : State) : exec (.div h o) s = execDiv h o s := rfl
theorem exec_divn (h : Header) (o : RegOps) (s : State) : exec (.divn h o) s = execDivn h o s := rfl
theorem exec_rem (h : Header) (o : RegOps) (s : State) : exec (.rem h o) s = execRem h o s := rfl
theorem exec_remn (h : Header) (o : RegOps) (s : State) : exec (.remn h o) s = execRemn h o s := rfl
theorem exec_neg (h : Header) (o : RegOps) (s : State) : exec (.neg h o) s = execNeg h o s := rfl
theorem exec_min (h : Header) (o : RegOps) (s : State) : exec (.min h o) s = execMin h o s := rfl
theorem exec_max (h : Header) (o : RegOps) (s : State) : exec (.max h o) s = execMax h o s := rfl
theorem exec_minn (h : Header) (o : RegOps) (s : State) : exec (.minn h o) s = execMinn h o s := rfl
theorem exec_maxn (h : Header) (o : RegOps) (s : State) : exec (.maxn h o) s = execMaxn h o s := rfl
theorem exec_and (h : Header) (o : RegOps) (s : State) : exec (.and h o) s = execAnd h o s := rfl
theorem exec_or (h : Header) (o : RegOps) (s : State) : exec (.or h o) s = execOr h o s := rfl
theorem exec_xor (h : Header) (o : RegOps) (s : State) : exec (.xor h o) s = execXor h o s := rfl
theorem exec_andn (h : Header) (o : RegOps) (s : State) : exec (.andn h o) s = execAndn h o s := rfl
theorem exec_not (h : Header) (o : RegOps) (s : State) : exec (.not h o) s = execNot h o s := rfl
theorem exec_shl (h : Header) (o : RegOps) (s : State) : exec (.shl h o) s = execShl h o s := rfl
theorem exec_shr (h : Header) (o : RegOps) (s : State) : exec (.shr h o) s = execShr h o s := rfl
theorem exec_sra (h : Header) (o : RegOps) (s : State) : exec (.sra h o) s = execSra h o s := rfl
theorem exec_rol (h : Header) (o : RegOps) (s : State) : exec (.rol h o) s = execRol h o s := rfl
theorem exec_clz (h : Header) (o : RegOps) (s : State) : exec (.clz h o) s = execClz h o s := rfl
theorem exec_ctz (h : Header) (o : RegOps) (s : State) : exec (.ctz h o) s = execCtz h o s := rfl
theorem exec_popc (h : Header) (o : RegOps) (s : State) : exec (.popc h o) s = execPopc h o s := rfl
theorem exec_sext (h : Header) (o : RegOps) (s : State) : exec (.sext h o) s = execSext h o s := rfl
theorem exec_zext (h : Header) (o : RegOps) (s : State) : exec (.zext h o) s = execZext h o s := rfl
theorem exec_andImm (h : Header) (o : ImmOps) (s : State) : exec (.andImm h o) s = execAndImm h o s := rfl
theorem exec_orImm (h : Header) (o : ImmOps) (s : State) : exec (.orImm h o) s = execOrImm h o s := rfl
theorem exec_xorImm (h : Header) (o : ImmOps) (s : State) : exec (.xorImm h o) s = execXorImm h o s := rfl
theorem exec_andnImm (h : Header) (o : ImmOps) (s : State) : exec (.andnImm h o) s = execAndnImm h o s := rfl
theorem exec_shlImm (h : Header) (o : ImmOps) (s : State) : exec (.shlImm h o) s = execShlImm h o s := rfl
theorem exec_shrImm (h : Header) (o : ImmOps) (s : State) : exec (.shrImm h o) s = execShrImm h o s := rfl
theorem exec_sraImm (h : Header) (o : ImmOps) (s : State) : exec (.sraImm h o) s = execSraImm h o s := rfl
theorem exec_rolImm (h : Header) (o : ImmOps) (s : State) : exec (.rolImm h o) s = execRolImm h o s := rfl
theorem exec_sextImm (h : Header) (o : ImmOps) (s : State) : exec (.sextImm h o) s = execSextImm h o s := rfl
theorem exec_zextImm (h : Header) (o : ImmOps) (s : State) : exec (.zextImm h o) s = execZextImm h o s := rfl
theorem exec_addi (h : Header) (o : ImmOps) (s : State) : exec (.addi h o) s = execAddi h o s := rfl
theorem exec_li (h : Header) (o : ImmOps) (s : State) : exec (.li h o) s = execLi h o s := rfl
theorem exec_lea (h : Header) (o : ImmOps) (s : State) : exec (.lea h o) s = execLea h o s := rfl
theorem exec_cset (h : Header) (o : RegOps) (s : State) : exec (.cset h o) s = execCset h o s := rfl
theorem exec_sel (h : Header) (o : RegOps) (s : State) : exec (.sel h o) s = execSel h o s := rfl
theorem exec_j (h : Header) (o : JmpOps) (s : State) : exec (.j h o) s = execJ h o s := rfl
theorem exec_b (h : Header) (o : JmpOps) (s : State) : exec (.b h o) s = execB h o s := rfl
theorem exec_brq (h : Header) (o : JmpOps) (s : State) : exec (.brq h o) s = execBrq h o s := rfl
theorem exec_call (h : Header) (o : JmpOps) (s : State) : exec (.call h o) s = execCall h o s := rfl
theorem exec_loop (h : Header) (o : JmpOps) (s : State) : exec (.loop h o) s = execLoop h o s := rfl
theorem exec_jr (h : Header) (o : JmpOps) (s : State) : exec (.jr h o) s = execJr h o s := rfl
theorem exec_callr (h : Header) (o : JmpOps) (s : State) : exec (.callr h o) s = execCallr h o s := rfl
theorem exec_ret (h : Header) (o : JmpOps) (s : State) : exec (.ret h o) s = execRet h o s := rfl
theorem exec_msave (h : Header) (o : RegOps) (s : State) : exec (.msave h o) s = execMsave h o s := rfl
theorem exec_mrest (h : Header) (o : RegOps) (s : State) : exec (.mrest h o) s = execMrest h o s := rfl
theorem exec_mand (h : Header) (o : RegOps) (s : State) : exec (.mand h o) s = execMand h o s := rfl
theorem exec_mor (h : Header) (o : RegOps) (s : State) : exec (.mor h o) s = execMor h o s := rfl
theorem exec_mxor (h : Header) (o : RegOps) (s : State) : exec (.mxor h o) s = execMxor h o s := rfl
theorem exec_mnot (h : Header) (o : RegOps) (s : State) : exec (.mnot h o) s = execMnot h o s := rfl
theorem exec_mset (h : Header) (o : RegOps) (s : State) : exec (.mset h o) s = execMset h o s := rfl
theorem exec_mcnt (h : Header) (o : RegOps) (s : State) : exec (.mcnt h o) s = execMcnt h o s := rfl
theorem exec_vadd (h : Header) (o : VecOps) (s : State) : exec (.vadd h o) s = execVadd h o s := rfl
theorem exec_vsub (h : Header) (o : VecOps) (s : State) : exec (.vsub h o) s = execVsub h o s := rfl
theorem exec_vmul (h : Header) (o : VecOps) (s : State) : exec (.vmul h o) s = execVmul h o s := rfl
theorem exec_vfma (h : Header) (o : VecOps) (s : State) : exec (.vfma h o) s = execVfma h o s := rfl
theorem exec_vfms (h : Header) (o : VecOps) (s : State) : exec (.vfms h o) s = execVfms h o s := rfl
theorem exec_vmin (h : Header) (o : VecOps) (s : State) : exec (.vmin h o) s = execVmin h o s := rfl
theorem exec_vmax (h : Header) (o : VecOps) (s : State) : exec (.vmax h o) s = execVmax h o s := rfl
theorem exec_vabs (h : Header) (o : VecOps) (s : State) : exec (.vabs h o) s = execVabs h o s := rfl
theorem exec_vneg (h : Header) (o : VecOps) (s : State) : exec (.vneg h o) s = execVneg h o s := rfl
theorem exec_vand (h : Header) (o : VecOps) (s : State) : exec (.vand h o) s = execVand h o s := rfl
theorem exec_vor (h : Header) (o : VecOps) (s : State) : exec (.vor h o) s = execVor h o s := rfl
theorem exec_vxor (h : Header) (o : VecOps) (s : State) : exec (.vxor h o) s = execVxor h o s := rfl
theorem exec_vnot (h : Header) (o : VecOps) (s : State) : exec (.vnot h o) s = execVnot h o s := rfl
theorem exec_vshl (h : Header) (o : VecOps) (s : State) : exec (.vshl h o) s = execVshl h o s := rfl
theorem exec_vshr (h : Header) (o : VecOps) (s : State) : exec (.vshr h o) s = execVshr h o s := rfl
theorem exec_vsra (h : Header) (o : VecOps) (s : State) : exec (.vsra h o) s = execVsra h o s := rfl
theorem exec_vcmp (h : Header) (o : VecOps) (s : State) : exec (.vcmp h o) s = execVcmp h o s := rfl
theorem exec_vsel (h : Header) (o : VecOps) (s : State) : exec (.vsel h o) s = execVsel h o s := rfl
theorem exec_vcvt (h : Header) (o : VecOps) (s : State) : exec (.vcvt h o) s = execVcvt h o s := rfl
theorem exec_vwiden (h : Header) (o : VecOps) (s : State) : exec (.vwiden h o) s = execVwiden h o s := rfl
theorem exec_vnarrow (h : Header) (o : VecOps) (s : State) : exec (.vnarrow h o) s = execVnarrow h o s := rfl
theorem exec_vsat (h : Header) (o : VecOps) (s : State) : exec (.vsat h o) s = execVsat h o s := rfl
theorem exec_vclamp (h : Header) (o : VecOps) (s : State) : exec (.vclamp h o) s = execVclamp h o s := rfl
theorem exec_vdot4 (h : Header) (o : VecOps) (s : State) : exec (.vdot4 h o) s = execVdot4 h o s := rfl
theorem exec_vred (h : Header) (o : VecOps) (s : State) : exec (.vred h o) s = execVred h o s := rfl
theorem exec_vscan (h : Header) (o : VecOps) (s : State) : exec (.vscan h o) s = execVscan h o s := rfl
theorem exec_vperm (h : Header) (o : VecOps) (s : State) : exec (.vperm h o) s = execVperm h o s := rfl
theorem exec_vshuf (h : Header) (o : VecOps) (s : State) : exec (.vshuf h o) s = execVshuf h o s := rfl
theorem exec_vbcast (h : Header) (o : VecOps) (s : State) : exec (.vbcast h o) s = execVbcast h o s := rfl
theorem exec_vslide (h : Header) (o : VecOps) (s : State) : exec (.vslide h o) s = execVslide h o s := rfl
theorem exec_viota (h : Header) (o : VecOps) (s : State) : exec (.viota h o) s = execViota h o s := rfl
theorem exec_vcomp (h : Header) (o : VecOps) (s : State) : exec (.vcomp h o) s = execVcomp h o s := rfl
theorem exec_vexpd (h : Header) (o : VecOps) (s : State) : exec (.vexpd h o) s = execVexpd h o s := rfl
theorem exec_vld (h : Header) (o : VecOps) (s : State) : exec (.vld h o) s = execVld h o s := rfl
theorem exec_vst (h : Header) (o : VecOps) (s : State) : exec (.vst h o) s = execVst h o s := rfl
theorem exec_vldx (h : Header) (o : VecOps) (s : State) : exec (.vldx h o) s = execVldx h o s := rfl
theorem exec_vstx (h : Header) (o : VecOps) (s : State) : exec (.vstx h o) s = execVstx h o s := rfl
theorem exec_vgath (h : Header) (o : VecOps) (s : State) : exec (.vgath h o) s = execVgath h o s := rfl
theorem exec_vscat (h : Header) (o : VecOps) (s : State) : exec (.vscat h o) s = execVscat h o s := rfl
theorem exec_vqpop (h : Header) (o : VecOps) (s : State) : exec (.vqpop h o) s = execVqpop h o s := rfl
theorem exec_vqpush (h : Header) (o : VecOps) (s : State) : exec (.vqpush h o) s = execVqpush h o s := rfl
theorem exec_vexp2 (h : Header) (o : VecOps) (s : State) : exec (.vexp2 h o) s = execVexp2 h o s := rfl
theorem exec_vlog2 (h : Header) (o : VecOps) (s : State) : exec (.vlog2 h o) s = execVlog2 h o s := rfl
theorem exec_vrcp (h : Header) (o : VecOps) (s : State) : exec (.vrcp h o) s = execVrcp h o s := rfl
theorem exec_vrsq (h : Header) (o : VecOps) (s : State) : exec (.vrsq h o) s = execVrsq h o s := rfl
theorem exec_vtanh (h : Header) (o : VecOps) (s : State) : exec (.vtanh h o) s = execVtanh h o s := rfl
theorem exec_vsigm (h : Header) (o : VecOps) (s : State) : exec (.vsigm h o) s = execVsigm h o s := rfl
theorem exec_vmerge3 (h : Header) (o : VecOps) (s : State) : exec (.vmerge3 h o) s = execVmerge3 h o s := rfl
theorem exec_vdefer (h : Header) (o : VecOps) (s : State) : exec (.vdefer h o) s = execVdefer h o s := rfl
theorem exec_vdrain (h : Header) (o : VecOps) (s : State) : exec (.vdrain h o) s = execVdrain h o s := rfl
theorem exec_vdqcnt (h : Header) (o : VecOps) (s : State) : exec (.vdqcnt h o) s = execVdqcnt h o s := rfl
theorem exec_loopp (h : Header) (o : JmpOps) (s : State) : exec (.loopp h o) s = execLoopp h o s := rfl
theorem exec_brp (h : Header) (o : JmpOps) (s : State) : exec (.brp h o) s = execBrp h o s := rfl
theorem exec_vmov (h : Header) (o : VecOps) (s : State) : exec (.vmov h o) s = execVmov h o s := rfl
theorem exec_vzero (h : Header) (o : VecOps) (s : State) : exec (.vzero h o) s = execVzero h o s := rfl
theorem exec_ld (h : Header) (o : MemOps) (s : State) : exec (.ld h o) s = execLd h o s := rfl
theorem exec_st (h : Header) (o : MemOps) (s : State) : exec (.st h o) s = execSt h o s := rfl
theorem exec_ldx (h : Header) (o : MemOps) (s : State) : exec (.ldx h o) s = execLdx h o s := rfl
theorem exec_stx (h : Header) (o : MemOps) (s : State) : exec (.stx h o) s = execStx h o s := rfl
theorem exec_lda (h : Header) (o : MemOps) (s : State) : exec (.lda h o) s = execLda h o s := rfl
theorem exec_stl (h : Header) (o : MemOps) (s : State) : exec (.stl h o) s = execStl h o s := rfl
theorem exec_amo (h : Header) (o : MemOps) (s : State) : exec (.amo h o) s = execAmo h o s := rfl
theorem exec_cas (h : Header) (o : MemOps) (s : State) : exec (.cas h o) s = execCas h o s := rfl
theorem exec_fence (h : Header) (o : MemOps) (s : State) : exec (.fence h o) s = execFence h o s := rfl
theorem exec_mark (h : Header) (o : MemOps) (s : State) : exec (.mark h o) s = execMark h o s := rfl
theorem exec_tksig (h : Header) (o : MemOps) (s : State) : exec (.tksig h o) s = execTksig h o s := rfl
theorem exec_tkwait (h : Header) (o : MemOps) (s : State) : exec (.tkwait h o) s = execTkwait h o s := rfl
theorem exec_boqpush (h : Header) (o : MemOps) (s : State) : exec (.boqpush h o) s = execBoqpush h o s := rfl
theorem exec_barv (h : Header) (o : MemOps) (s : State) : exec (.barv h o) s = execBarv h o s := rfl
theorem exec_bwait (h : Header) (o : MemOps) (s : State) : exec (.bwait h o) s = execBwait h o s := rfl
theorem exec_tbinit (h : Header) (o : MemOps) (s : State) : exec (.tbinit h o) s = execTbinit h o s := rfl
theorem exec_tbarv (h : Header) (o : MemOps) (s : State) : exec (.tbarv h o) s = execTbarv h o s := rfl
theorem exec_tbwait (h : Header) (o : MemOps) (s : State) : exec (.tbwait h o) s = execTbwait h o s := rfl
theorem exec_leeway (h : Header) (o : MemOps) (s : State) : exec (.leeway h o) s = execLeeway h o s := rfl
theorem exec_remq (h : Header) (o : MemOps) (s : State) : exec (.remq h o) s = execRemq h o s := rfl
theorem exec_notify (h : Header) (o : MemOps) (s : State) : exec (.notify h o) s = execNotify h o s := rfl
theorem exec_waitev (h : Header) (o : MemOps) (s : State) : exec (.waitev h o) s = execWaitev h o s := rfl
theorem exec_mma (h : Header) (o : EngOps) (s : State) : exec (.mma h o) s = execMma h o s := rfl
theorem exec_mmac (h : Header) (o : EngOps) (s : State) : exec (.mmac h o) s = execMmac h o s := rfl
theorem exec_cmerge (h : Header) (o : EngOps) (s : State) : exec (.cmerge h o) s = execCmerge h o s := rfl
theorem exec_cspill (h : Header) (o : EngOps) (s : State) : exec (.cspill h o) s = execCspill h o s := rfl
theorem exec_cdrain (h : Header) (o : EngOps) (s : State) : exec (.cdrain h o) s = execCdrain h o s := rfl
theorem exec_acfg (h : Header) (o : EngOps) (s : State) : exec (.acfg h o) s = execAcfg h o s := rfl
theorem exec_azero (h : Header) (o : EngOps) (s : State) : exec (.azero h o) s = execAzero h o s := rfl
theorem exec_aload (h : Header) (o : EngOps) (s : State) : exec (.aload h o) s = execAload h o s := rfl
theorem exec_adrain (h : Header) (o : EngOps) (s : State) : exec (.adrain h o) s = execAdrain h o s := rfl
theorem exec_adrainp (h : Header) (o : EngOps) (s : State) : exec (.adrainp h o) s = execAdrainp h o s := rfl
theorem exec_aarm (h : Header) (o : EngOps) (s : State) : exec (.aarm h o) s = execAarm h o s := rfl
theorem exec_fmtset (h : Header) (o : EngOps) (s : State) : exec (.fmtset h o) s = execFmtset h o s := rfl
theorem exec_fmtld (h : Header) (o : EngOps) (s : State) : exec (.fmtld h o) s = execFmtld h o s := rfl
theorem exec_mvec (h : Header) (o : EngOps) (s : State) : exec (.mvec h o) s = execMvec h o s := rfl
theorem exec_mxt (h : Header) (o : EngOps) (s : State) : exec (.mxt h o) s = execMxt h o s := rfl
theorem exec_xcopy (h : Header) (o : EngOps) (s : State) : exec (.xcopy h o) s = execXcopy h o s := rfl
theorem exec_xgath (h : Header) (o : EngOps) (s : State) : exec (.xgath h o) s = execXgath h o s := rfl
theorem exec_xscat (h : Header) (o : EngOps) (s : State) : exec (.xscat h o) s = execXscat h o s := rfl
theorem exec_xfill (h : Header) (o : EngOps) (s : State) : exec (.xfill h o) s = execXfill h o s := rfl
theorem exec_xpop (h : Header) (o : EngOps) (s : State) : exec (.xpop h o) s = execXpop h o s := rfl
theorem exec_xstat (h : Header) (o : EngOps) (s : State) : exec (.xstat h o) s = execXstat h o s := rfl
theorem exec_publish (h : Header) (o : EngOps) (s : State) : exec (.publish h o) s = execPublish h o s := rfl
theorem exec_ntake (h : Header) (o : EngOps) (s : State) : exec (.ntake h o) s = execNtake h o s := rfl
theorem exec_ndecl (h : Header) (o : EngOps) (s : State) : exec (.ndecl h o) s = execNdecl h o s := rfl
theorem exec_nwait (h : Header) (o : EngOps) (s : State) : exec (.nwait h o) s = execNwait h o s := rfl
theorem exec_reclaim (h : Header) (o : EngOps) (s : State) : exec (.reclaim h o) s = execReclaim h o s := rfl
theorem exec_rextend (h : Header) (o : EngOps) (s : State) : exec (.rextend h o) s = execRextend h o s := rfl
theorem exec_helmset (h : Header) (o : EngOps) (s : State) : exec (.helmset h o) s = execHelmset h o s := rfl
theorem exec_pwin (h : Header) (o : EngOps) (s : State) : exec (.pwin h o) s = execPwin h o s := rfl
theorem exec_coll (h : Header) (o : EngOps) (s : State) : exec (.coll h o) s = execColl h o s := rfl
theorem exec_accw (h : Header) (o : EngOps) (s : State) : exec (.accw h o) s = execAccw h o s := rfl
theorem exec_rdywait (h : Header) (o : EngOps) (s : State) : exec (.rdywait h o) s = execRdywait h o s := rfl
theorem exec_sortk (h : Header) (o : EngOps) (s : State) : exec (.sortk h o) s = execSortk h o s := rfl
theorem exec_echoose (h : Header) (o : EngOps) (s : State) : exec (.echoose h o) s = execEchoose h o s := rfl
theorem exec_rcsnap (h : Header) (o : EngOps) (s : State) : exec (.rcsnap h o) s = execRcsnap h o s := rfl
theorem exec_lattn (h : Header) (o : EngOps) (s : State) : exec (.lattn h o) s = execLattn h o s := rfl
theorem exec_chnew (h : Header) (o : EngOps) (s : State) : exec (.chnew h o) s = execChnew h o s := rfl
theorem exec_chfork (h : Header) (o : EngOps) (s : State) : exec (.chfork h o) s = execChfork h o s := rfl
theorem exec_chflat (h : Header) (o : EngOps) (s : State) : exec (.chflat h o) s = execChflat h o s := rfl
theorem exec_chappend (h : Header) (o : EngOps) (s : State) : exec (.chappend h o) s = execChappend h o s := rfl
theorem exec_chlook (h : Header) (o : EngOps) (s : State) : exec (.chlook h o) s = execChlook h o s := rfl
theorem exec_chtrunc (h : Header) (o : EngOps) (s : State) : exec (.chtrunc h o) s = execChtrunc h o s := rfl
theorem exec_chseal (h : Header) (o : EngOps) (s : State) : exec (.chseal h o) s = execChseal h o s := rfl
theorem exec_chfree (h : Header) (o : EngOps) (s : State) : exec (.chfree h o) s = execChfree h o s := rfl
theorem exec_chgive (h : Header) (o : EngOps) (s : State) : exec (.chgive h o) s = execChgive h o s := rfl
theorem exec_bmset (h : Header) (o : EngOps) (s : State) : exec (.bmset h o) s = execBmset h o s := rfl
theorem exec_bmperm (h : Header) (o : EngOps) (s : State) : exec (.bmperm h o) s = execBmperm h o s := rfl
theorem exec_bmlook (h : Header) (o : EngOps) (s : State) : exec (.bmlook h o) s = execBmlook h o s := rfl
theorem exec_rkbegin (h : Header) (o : EngOps) (s : State) : exec (.rkbegin h o) s = execRkbegin h o s := rfl
theorem exec_acmp (h : Header) (o : EngOps) (s : State) : exec (.acmp h o) s = execAcmp h o s := rfl
theorem exec_rkcommit (h : Header) (o : EngOps) (s : State) : exec (.rkcommit h o) s = execRkcommit h o s := rfl
theorem exec_rkend (h : Header) (o : EngOps) (s : State) : exec (.rkend h o) s = execRkend h o s := rfl
theorem exec_rkstat (h : Header) (o : EngOps) (s : State) : exec (.rkstat h o) s = execRkstat h o s := rfl
theorem exec_csrr (h : Header) (o : ImmOps) (s : State) : exec (.csrr h o) s = execCsrr h o s := rfl
theorem exec_csrw (h : Header) (o : ImmOps) (s : State) : exec (.csrw h o) s = execCsrw h o s := rfl
theorem exec_csrx (h : Header) (o : ImmOps) (s : State) : exec (.csrx h o) s = execCsrx h o s := rfl
theorem exec_trap (h : Header) (o : ImmOps) (s : State) : exec (.trap h o) s = execTrap h o s := rfl
theorem exec_eret (h : Header) (o : ImmOps) (s : State) : exec (.eret h o) s = execEret h o s := rfl
theorem exec_halt (h : Header) (o : ImmOps) (s : State) : exec (.halt h o) s = execHalt h o s := rfl
theorem exec_nop (h : Header) (o : ImmOps) (s : State) : exec (.nop h o) s = execNop h o s := rfl
theorem exec_yield (h : Header) (o : ImmOps) (s : State) : exec (.yield h o) s = execYield h o s := rfl
theorem exec_mmaRecord (h : Header) (r : RecOps) (s : State) : exec (.mmaRecord h r) s = execMmaRecord h r s := rfl
theorem exec_mmacRecord (h : Header) (r : RecOps) (s : State) : exec (.mmacRecord h r) s = execMmacRecord h r s := rfl
theorem exec_xcopyRecord (h : Header) (r : RecOps) (s : State) : exec (.xcopyRecord h r) s = execXcopyRecord h r s := rfl
theorem exec_xgathRecord (h : Header) (r : RecOps) (s : State) : exec (.xgathRecord h r) s = execXgathRecord h r s := rfl
theorem exec_xscatRecord (h : Header) (r : RecOps) (s : State) : exec (.xscatRecord h r) s = execXscatRecord h r s := rfl
theorem exec_xfillRecord (h : Header) (r : RecOps) (s : State) : exec (.xfillRecord h r) s = execXfillRecord h r s := rfl
theorem exec_publishRecord (h : Header) (r : RecOps) (s : State) : exec (.publishRecord h r) s = execPublishRecord h r s := rfl
theorem exec_collRecord (h : Header) (r : RecOps) (s : State) : exec (.collRecord h r) s = execCollRecord h r s := rfl
theorem exec_sortkRecord (h : Header) (r : RecOps) (s : State) : exec (.sortkRecord h r) s = execSortkRecord h r s := rfl
theorem exec_lattnRecord (h : Header) (r : RecOps) (s : State) : exec (.lattnRecord h r) s = execLattnRecord h r s := rfl
theorem exec_vectorArithRecord (fn : BitVec 8) (h : Header) (r : RecOps) (s : State) : exec (.vectorArithRecord fn h r) s = execVectorArithRecord fn h r s := rfl
theorem exec_vectorLogicRecord (fn : BitVec 8) (h : Header) (r : RecOps) (s : State) : exec (.vectorLogicRecord fn h r) s = execVectorLogicRecord fn h r s := rfl
theorem exec_vectorConvertRecord (fn : BitVec 8) (h : Header) (r : RecOps) (s : State) : exec (.vectorConvertRecord fn h r) s = execVectorConvertRecord fn h r s := rfl
theorem exec_vectorDotRecord (fn : BitVec 8) (h : Header) (r : RecOps) (s : State) : exec (.vectorDotRecord fn h r) s = execVectorDotRecord fn h r s := rfl
theorem exec_vectorMemoryRecord (fn : BitVec 8) (h : Header) (r : RecOps) (s : State) : exec (.vectorMemoryRecord fn h r) s = execVectorMemoryRecord fn h r s := rfl
theorem exec_vectorSpecialRecord (fn : BitVec 8) (h : Header) (r : RecOps) (s : State) : exec (.vectorSpecialRecord fn h r) s = execVectorSpecialRecord fn h r s := rfl
theorem exec_vmerge3Record (h : Header) (r : RecOps) (s : State) : exec (.vmerge3Record h r) s = execVmerge3Record h r s := rfl
theorem exec_recordIssue (core : Nat) (port : Nat) (s : State) : exec (.recordIssue core port) s = execRecordIssue core port s := rfl
theorem exec_engineCommandStart (core : Nat) (port : Nat) (s : State) : exec (.engineCommandStart core port) s = execEngineCommandStart core port s := rfl
theorem exec_triggeredCommandStart (core : Nat) (port : Nat) (s : State) : exec (.triggeredCommandStart core port) s = execTriggeredCommandStart core port s := rfl
theorem exec_commandComplete (core : Nat) (port : Nat) (s : State) : exec (.commandComplete core port) s = execCommandComplete core port s := rfl
theorem exec_notifyRetire (core : Nat) (port : Nat) (s : State) : exec (.notifyRetire core port) s = execNotifyRetire core port s := rfl
theorem exec_loadAnswer (core : Nat) (id : Nat) (s : State) : exec (.loadAnswer core id) s = execLoadAnswer core id s := rfl
theorem exec_l1Eviction (core : Nat) (line : Nat) (s : State) : exec (.l1Eviction core line) s = execL1Eviction core line s := rfl
theorem exec_pageWalkComplete (walk : Nat) (s : State) : exec (.pageWalkComplete walk) s = execPageWalkComplete walk s := rfl
theorem exec_leewayCountUpdate (cluster : Nat) (s : State) : exec (.leewayCountUpdate cluster) s = execLeewayCountUpdate cluster s := rfl
theorem exec_tokenDeadlock (core : Nat) (s : State) : exec (.tokenDeadlock core) s = execTokenDeadlock core s := rfl
theorem exec_reportedFaultDelivery (core : Nat) (seq : Nat) (s : State) : exec (.reportedFaultDelivery core seq) s = execReportedFaultDelivery core seq s := rfl
theorem exec_blockExpiry (core : Nat) (slot : Nat) (s : State) : exec (.blockExpiry core slot) s = execBlockExpiry core slot s := rfl
theorem exec_reclaimTrapDelivery (core : Nat) (s : State) : exec (.reclaimTrapDelivery core) s = execReclaimTrapDelivery core s := rfl
theorem exec_noticeArrival (msg : Nat) (s : State) : exec (.noticeArrival msg) s = execNoticeArrival msg s := rfl
theorem exec_heldNoticeEntry (core : Nat) (s : State) : exec (.heldNoticeEntry core) s = execHeldNoticeEntry core s := rfl
theorem exec_noticeRipe (core : Nat) (entry : Nat) (s : State) : exec (.noticeRipe core entry) s = execNoticeRipe core entry s := rfl
theorem exec_helmPullStart (core : Nat) (s : State) : exec (.helmPullStart core) s = execHelmPullStart core s := rfl
theorem exec_segmentRequest (core : Nat) (s : State) : exec (.segmentRequest core) s = execSegmentRequest core s := rfl
theorem exec_segmentRead (msg : Nat) (s : State) : exec (.segmentRead msg) s = execSegmentRead msg s := rfl
theorem exec_segmentLand (core : Nat) (s : State) : exec (.segmentLand core) s = execSegmentLand core s := rfl
theorem exec_pullCompletionArrival (msg : Nat) (s : State) : exec (.pullCompletionArrival msg) s = execPullCompletionArrival msg s := rfl
theorem exec_declineArrival (msg : Nat) (s : State) : exec (.declineArrival msg) s = execDeclineArrival msg s := rfl
theorem exec_withdrawalArrival (msg : Nat) (s : State) : exec (.withdrawalArrival msg) s = execWithdrawalArrival msg s := rfl
theorem exec_collSegmentApply (core : Nat) (s : State) : exec (.collSegmentApply core) s = execCollSegmentApply core s := rfl
theorem exec_remoteBlockServe (core : Nat) (s : State) : exec (.remoteBlockServe core) s = execRemoteBlockServe core s := rfl
theorem exec_tileEnd (core : Nat) (s : State) : exec (.tileEnd core) s = execTileEnd core s := rfl
theorem exec_tileEndByFault (core : Nat) (s : State) : exec (.tileEndByFault core) s = execTileEndByFault core s := rfl
theorem exec_packetRead (queue : Nat) (s : State) : exec (.packetRead queue) s = execPacketRead queue s := rfl
theorem exec_coreOffer (core : Nat) (s : State) : exec (.coreOffer core) s = execCoreOffer core s := rfl
theorem exec_launchComplete (queue : Nat) (lseq : Nat) (s : State) : exec (.launchComplete queue lseq) s = execLaunchComplete queue lseq s := rfl
theorem exec_preemptTrigger (queue : Nat) (s : State) : exec (.preemptTrigger queue) s = execPreemptTrigger queue s := rfl
theorem exec_contextSave (core : Nat) (s : State) : exec (.contextSave core) s = execContextSave core s := rfl
theorem exec_tileResume (core : Nat) (s : State) : exec (.tileResume core) s = execTileResume core s := rfl
theorem exec_queueDrainDone (queue : Nat) (s : State) : exec (.queueDrainDone queue) s = execQueueDrainDone queue s := rfl
theorem exec_queueAbortDone (queue : Nat) (s : State) : exec (.queueAbortDone queue) s = execQueueAbortDone queue s := rfl
theorem exec_qctlEnable (queue : Nat) (s : State) : exec (.qctlEnable queue) s = execQctlEnable queue s := rfl
theorem exec_qctlDrain (queue : Nat) (s : State) : exec (.qctlDrain queue) s = execQctlDrain queue s := rfl
theorem exec_qctlAbort (queue : Nat) (s : State) : exec (.qctlAbort queue) s = execQctlAbort queue s := rfl
theorem exec_qwrDoorbell (queue : Nat) (value : Nat) (s : State) : exec (.qwrDoorbell queue value) s = execQwrDoorbell queue value s := rfl
theorem exec_tigoInvalidate (bytes : Nat) (s : State) : exec (.tigoInvalidate bytes) s = execTigoInvalidate bytes s := rfl
theorem exec_tlbInvalidateComplete (s : State) : exec (.tlbInvalidateComplete) s = execTlbInvalidateComplete s := rfl
theorem exec_wcmdIngress (entry : Nat) (s : State) : exec (.wcmdIngress entry) s = execWcmdIngress entry s := rfl
theorem exec_wcmdLocal (entry : Nat) (s : State) : exec (.wcmdLocal entry) s = execWcmdLocal entry s := rfl
theorem exec_wcmdRelease (entry : Nat) (s : State) : exec (.wcmdRelease entry) s = execWcmdRelease entry s := rfl
theorem exec_shardBlockWrite (addr : Nat) (data : List Byte) (s : State) : exec (.shardBlockWrite addr data) s = execShardBlockWrite addr data s := rfl
theorem exec_shardLocalCheckDone (entry : Nat) (s : State) : exec (.shardLocalCheckDone entry) s = execShardLocalCheckDone entry s := rfl
theorem exec_shardPatrolPass (s : State) : exec (.shardPatrolPass) s = execShardPatrolPass s := rfl
theorem exec_wfenceClear (index : Nat) (value : Nat) (s : State) : exec (.wfenceClear index value) s = execWfenceClear index value s := rfl
theorem exec_fllostClear (value : Nat) (s : State) : exec (.fllostClear value) s = execFllostClear value s := rfl
theorem exec_errorCountClear (cluster : Bool) (index : Nat) (value : Nat) (s : State) : exec (.errorCountClear cluster index value) s = execErrorCountClear cluster index value s := rfl
theorem exec_unfenceCore (index : Nat) (value : Nat) (s : State) : exec (.unfenceCore index value) s = execUnfenceCore index value s := rfl
theorem exec_unfenceCluster (value : Nat) (s : State) : exec (.unfenceCluster value) s = execUnfenceCluster value s := rfl
theorem exec_unfenceStack (value : Nat) (s : State) : exec (.unfenceStack value) s = execUnfenceStack value s := rfl
theorem exec_unfenceUnit (index : Nat) (value : Nat) (s : State) : exec (.unfenceUnit index value) s = execUnfenceUnit index value s := rfl
theorem exec_eccCorrected (site : EccSite) (s : State) : exec (.eccCorrected site) s = execEccCorrected site s := rfl
theorem exec_eccUncorrectable (site : EccSite) (s : State) : exec (.eccUncorrectable site) s = execEccUncorrectable site s := rfl
theorem exec_patrolScrub (s : State) : exec (.patrolScrub) s = execPatrolScrub s := rfl
theorem exec_ckctlSave (s : State) : exec (.ckctlSave) s = execCkctlSave s := rfl
theorem exec_ckctlRestore (s : State) : exec (.ckctlRestore) s = execCkctlRestore s := rfl
theorem exec_checkpointQuiesced (s : State) : exec (.checkpointQuiesced) s = execCheckpointQuiesced s := rfl
theorem exec_checkpointCopyDone (s : State) : exec (.checkpointCopyDone) s = execCheckpointCopyDone s := rfl
theorem exec_checkpointError (s : State) : exec (.checkpointError) s = execCheckpointError s := rfl
theorem exec_checkpointRestoreDone (s : State) : exec (.checkpointRestoreDone) s = execCheckpointRestoreDone s := rfl
theorem exec_tcmdLcchange (s : State) : exec (.tcmdLcchange) s = execTcmdLcchange s := rfl
theorem exec_tcmdQuote (s : State) : exec (.tcmdQuote) s = execTcmdQuote s := rfl
theorem exec_tcmdKeyinstall (asid : Nat) (s : State) : exec (.tcmdKeyinstall asid) s = execTcmdKeyinstall asid s := rfl
theorem exec_tcmdKeyclear (asid : Nat) (s : State) : exec (.tcmdKeyclear asid) s = execTcmdKeyclear asid s := rfl
theorem exec_powerOnReset (s : State) : exec (.powerOnReset) s = execPowerOnReset s := rfl
theorem exec_sfctlStartupEnd (s : State) : exec (.sfctlStartupEnd) s = execSfctlStartupEnd s := rfl
theorem exec_sfctlBist (s : State) : exec (.sfctlBist) s = execSfctlBist s := rfl
theorem exec_bistDone (s : State) : exec (.bistDone) s = execBistDone s := rfl
theorem exec_clkcfgWrite (die : Nat) (value : Nat) (s : State) : exec (.clkcfgWrite die value) s = execClkcfgWrite die value s := rfl
theorem exec_clkcfgPendingApply (die : Nat) (s : State) : exec (.clkcfgPendingApply die) s = execClkcfgPendingApply die s := rfl
theorem exec_pcfgWrite (port : Nat) (value : Nat) (s : State) : exec (.pcfgWrite port value) s = execPcfgWrite port value s := rfl
theorem exec_portTrained (port : Nat) (peer : Nat) (s : State) : exec (.portTrained port peer) s = execPortTrained port peer s := rfl
theorem exec_portTrainingTimeout (port : Nat) (s : State) : exec (.portTrainingTimeout port) s = execPortTrainingTimeout port s := rfl
theorem exec_portFence (port : Nat) (s : State) : exec (.portFence port) s = execPortFence port s := rfl
theorem exec_flitForward (msg : Nat) (s : State) : exec (.flitForward msg) s = execFlitForward msg s := rfl
theorem exec_flitReplay (port : Nat) (s : State) : exec (.flitReplay port) s = execFlitReplay port s := rfl
theorem exec_undeliverableReturn (msg : Nat) (s : State) : exec (.undeliverableReturn msg) s = execUndeliverableReturn msg s := rfl
theorem exec_writeOfferArrival (port : Nat) (offer : WriteOffer) (s : State) : exec (.writeOfferArrival port offer) s = execWriteOfferArrival port offer s := rfl
theorem exec_writeOfferPull (port : Nat) (s : State) : exec (.writeOfferPull port) s = execWriteOfferPull port s := rfl
theorem exec_remoteWritePerform (port : Nat) (s : State) : exec (.remoteWritePerform port) s = execRemoteWritePerform port s := rfl
theorem exec_remoteWriteAck (core : Nat) (entry : Nat) (answer : HomeAnswer) (s : State) : exec (.remoteWriteAck core entry answer) s = execRemoteWriteAck core entry answer s := rfl
theorem exec_remoteReadRequest (port : Nat) (addr : Nat) (bytes : Nat) (s : State) : exec (.remoteReadRequest port addr bytes) s = execRemoteReadRequest port addr bytes s := rfl
theorem exec_hostRegisterAccess (port : Nat) (access : HostAccess) (s : State) : exec (.hostRegisterAccess port access) s = execHostRegisterAccess port access s := rfl
theorem exec_registerWrite (off : Nat) (value : Nat) (s : State) : exec (.registerWrite off value) s = execRegisterWrite off value s := rfl
theorem exec_powerManagerCheck (s : State) : exec (.powerManagerCheck) s = execPowerManagerCheck s := rfl
theorem exec_thermalStop (s : State) : exec (.thermalStop) s = execThermalStop s := rfl
theorem exec_thermalRestart (s : State) : exec (.thermalRestart) s = execThermalRestart s := rfl
theorem exec_chronometerTick (s : State) : exec (.chronometerTick) s = execChronometerTick s := rfl
theorem exec_pldmSensorRead (sensor : Nat) (s : State) : exec (.pldmSensorRead sensor) s = execPldmSensorRead sensor s := rfl
theorem exec_storePerformed (core : Nat) (id : Nat) (s : State) : exec (.storePerformed core id) s = execStorePerformed core id s := rfl
theorem exec_shardIngressCheckDone (entry : Nat) (s : State) : exec (.shardIngressCheckDone entry) s = execShardIngressCheckDone entry s := rfl
theorem exec_stackLosesTraining (stack : Nat) (s : State) : exec (.stackLosesTraining stack) s = execStackLosesTraining stack s := rfl
theorem exec_baseDieError (stack : Nat) (s : State) : exec (.baseDieError stack) s = execBaseDieError stack s := rfl
theorem exec_powerLoss (s : State) : exec (.powerLoss) s = execPowerLoss s := rfl

end Sys2Proof.Machine
end

