-- ==== Sys2Proof/Laws/Transfer.lean ====
section
/-! SUPPORT. What a transfer of control comes to, once for all words that transfer: with a target that R74 and R75 accept it is taken, with any
other it raises the alignment trap before any other effect. -/

namespace Sys2Proof.Machine
open Sys2Proof Sys2Proof.Safety

theorem State.badTarget_of_ok (s : State) (t : Word) (h : okTarget s t) : s.badTarget t = false := by
  obtain ⟨a, b⟩ := h
  unfold State.badTarget
  by_cases c : s.strict s.cur.core = true
  · simp [a, b c]
  · simp [a, c]

theorem State.badTarget_of_not_ok (s : State) (t : Word) (h : ¬okTarget s t) : s.badTarget t = true := by
  unfold okTarget at h
  unfold State.badTarget
  by_cases a : t.toNat % 16 = 0 <;> by_cases b : s.strict s.cur.core = true <;> by_cases c : t.toNat % 64 = 0 <;> simp_all

/-- A transfer to a target that is accepted is taken. -/
theorem transfer_ok (s : State) (t : Word) (go : State) (h : okTarget s t) : transfer s t go = .jump go t := by
  simp [transfer, s.badTarget_of_ok t h]

/-- A transfer to any other target traps. -/
theorem transfer_bad (s : State) (t : Word) (go : State) (h : ¬okTarget s t) : transfer s t go = .trap (.virt .alignment t.toNat 3) := by
  simp [transfer, targetTrap, s.badTarget_of_not_ok t h]

/-- What leaves the handlers' strict fetch of the present core's sequencers as it is changes no target's acceptance. -/
theorem okTarget_mapMe (s : State) (f : Core → Core) (t : Word) (h : ∀ q, ((f s.me).seq q).recovery = (s.me.seq q).recovery) :
    okTarget (s.mapMe f) t ↔ okTarget s t := by
  have e : (s.mapMe f).strict (s.mapMe f).cur.core = s.strict s.cur.core := by
    have c : (s.mapMe f).core s.cur.core = f s.me := State.me_mapMe s f
    simp only [State.strict, State.mapMe_cur, State.mapMe_mgmt, c, h]
    rfl
  simp only [okTarget, e]

end Sys2Proof.Machine
end

