-- ==== Sys2Proof/Laws/Units.lean ====
section
/-! SUPPORT. Reading a queue, a port or a group after it is written, and what those writes leave alone. -/

namespace Sys2Proof.Machine

@[simp] theorem State.queue_setQueue_same (s : State) (q : Nat) (x : Queue) : (s.setQueue q x).queue q = x := Table.get_set_same ..
theorem State.queue_setQueue_other (s : State) (q p : Nat) (x : Queue) (h : p ≠ q) : (s.setQueue q x).queue p = s.queue p :=
  Table.get_set_other _ _ _ _ _ h
@[simp] theorem State.queue_mapQueue_same (s : State) (q : Nat) (f : Queue → Queue) : (s.mapQueue q f).queue q = f (s.queue q) :=
  Table.get_set_same ..
theorem State.queue_mapQueue_other (s : State) (q p : Nat) (f : Queue → Queue) (h : p ≠ q) : (s.mapQueue q f).queue p = s.queue p :=
  Table.get_set_other _ _ _ _ _ h
@[simp] theorem State.setQueue_cores (s : State) (q : Nat) (x : Queue) : (s.setQueue q x).cores = s.cores := rfl
@[simp] theorem State.mapQueue_cores (s : State) (q : Nat) (f : Queue → Queue) : (s.mapQueue q f).cores = s.cores := rfl
@[simp] theorem State.mapQueue_hbm (s : State) (q : Nat) (f : Queue → Queue) : (s.mapQueue q f).hbm = s.hbm := rfl
@[simp] theorem State.mapQueue_l2 (s : State) (q : Nat) (f : Queue → Queue) : (s.mapQueue q f).l2 = s.l2 := rfl
@[simp] theorem State.mapQueue_outside (s : State) (q : Nat) (f : Queue → Queue) : (s.mapQueue q f).outside = s.outside := rfl
@[simp] theorem State.mapQueue_launches (s : State) (q : Nat) (f : Queue → Queue) : (s.mapQueue q f).launches = s.launches := rfl

@[simp] theorem State.port_setPort_same (s : State) (p : Nat) (x : Port) : (s.setPort p x).port p = x := Table.get_set_same ..
theorem State.port_setPort_other (s : State) (p q : Nat) (x : Port) (h : q ≠ p) : (s.setPort p x).port q = s.port q :=
  Table.get_set_other _ _ _ _ _ h
@[simp] theorem State.port_mapPort_same (s : State) (p : Nat) (f : Port → Port) : (s.mapPort p f).port p = f (s.port p) :=
  Table.get_set_same ..
theorem State.port_mapPort_other (s : State) (p q : Nat) (f : Port → Port) (h : q ≠ p) : (s.mapPort p f).port q = s.port q :=
  Table.get_set_other _ _ _ _ _ h
@[simp] theorem State.mapPort_cores (s : State) (p : Nat) (f : Port → Port) : (s.mapPort p f).cores = s.cores := rfl
@[simp] theorem State.mapPort_hbm (s : State) (p : Nat) (f : Port → Port) : (s.mapPort p f).hbm = s.hbm := rfl
@[simp] theorem State.mapPort_outside (s : State) (p : Nat) (f : Port → Port) : (s.mapPort p f).outside = s.outside := rfl
@[simp] theorem State.mapPort_chron (s : State) (p : Nat) (f : Port → Port) : (s.mapPort p f).chron = s.chron := rfl

@[simp] theorem State.group_setGroup_same (s : State) (n : Nat) (g : Group) : (s.setGroup n g).group n = g := Table.get_set_same ..
theorem State.group_setGroup_other (s : State) (n m : Nat) (g : Group) (h : m ≠ n) : (s.setGroup n g).group m = s.group m :=
  Table.get_set_other _ _ _ _ _ h
@[simp] theorem State.setGroup_cores (s : State) (n : Nat) (g : Group) : (s.setGroup n g).cores = s.cores := rfl

@[simp] theorem State.clockOf_setClock_same (s : State) (d : Nat) (c : Clock) : (s.setClock d c).clockOf d = c := Table.get_set_same ..
theorem State.clockOf_setClock_other (s : State) (d e : Nat) (c : Clock) (h : e ≠ d) : (s.setClock d c).clockOf e = s.clockOf e :=
  Table.get_set_other _ _ _ _ _ h

@[simp] theorem State.unpost_posts (s : State) (id : Nat) : (s.unpost id).posts = s.posts.filter (fun p => p.id != id) := rfl
@[simp] theorem State.unpost_cores (s : State) (id : Nat) : (s.unpost id).cores = s.cores := rfl
@[simp] theorem State.unpost_hbm (s : State) (id : Nat) : (s.unpost id).hbm = s.hbm := rfl
@[simp] theorem State.post_cores (s : State) (m : Message) : (s.post m).cores = s.cores := rfl
@[simp] theorem State.post_hbm (s : State) (m : Message) : (s.post m).hbm = s.hbm := rfl

end Sys2Proof.Machine
end

