-- ==== Sys2Proof/Tests/Slice0.lean ====
section
/-! SUPPORT. Tests: words decoded from the tables of the manual, ill-formed terms, small single steps, and a state that meets the hypotheses of each statement. -/


open Sys2Proof Sys2Proof.Machine Sys2Proof.Safety

set_option Elab.async false

namespace Sys2Proof.Tests

/-! ### Small states -/

/-- A tile resident on core 0 whose sequencer q may issue its word at PC 0; strict fetch is off. -/
def base (q : SeqId) : State :=
  { State.reset.mapCore 0 (fun k => k.withTest 0 q []) with
    cur := ⟨0, q, 0⟩
    mgmt := { State.reset.mgmt with sfctl := 0 } }

/-- The same with values in g1 to g4. -/
def regs (q : SeqId) (a b c d : Word) : State := ((((base q).setG 1 a).setG 2 b).setG 3 c).setG 4 d

/-- The same with 16 KiB of scratchpad, and virtual page 0 on HBM frame 3. -/
def mapped (q : SeqId) (a b c : Word) : State :=
  (regs q a b c 0).mapMe (fun k => { k with granules := 1, tlb := [⟨0, 0, 16, 3, true, true, true⟩] })

/-- The same with the page on a host address, and the host reachable through port 0. -/
def hosted (q : SeqId) (a b c : Word) : State :=
  { (regs q a b c 0).mapMe (fun k => { k with granules := 1, tlb := [⟨0, 0, 16, 2 ^ 34, true, true, true⟩] }) with
    hostdev := 2 ^ 15
    ports := [(0, { Port.reset with state := .up, pcfg := 2 })] }

/-- Operands: DG 3, AG 1, BG 2, CG 4. -/
def reg3 (cond : BitVec 4) : RegOps := ⟨3, 1, 2, 4, cond⟩
def imm3 (imm : BitVec 64) : ImmOps := ⟨3, 1, imm⟩
def jmp3 (disp imm : BitVec 32) : JmpOps := ⟨3, 1, 2, 0, disp, imm⟩
/-- A memory word of size 2^sz at G(g1) + off, device scope. -/
def mem3 (sz : BitVec 2) (off : BitVec 32) : MemOps := ⟨3, 1, 2, 4, 3, sz, 0, 1, off, 1⟩

/-! ### The hypotheses of the statements are met -/

theorem wit_ArithmeticAndLogicWords :
    gate (Issue.scalar [(reg3 0).ag, (reg3 0).bg] [(reg3 0).dg]) .plain (regs .c 7 0 0 0) = .go ∧
    (regs .c 7 0 0 0).g (reg3 0).bg = 0 ∧ (regs .c 7 64 0 0).g (reg3 0).bg = 64 := by decide +kernel

theorem wit_ImmediateWords :
    gate (Issue.scalar [(imm3 64).ag] [(imm3 64).dg]) .plain (regs .x 7 0 0 0) = .go ∧
    gate (Issue.scalar [] [(imm3 64).dg]) .plain (regs .x 7 0 0 0) = .go := by decide +kernel

theorem wit_ConditionWords :
    gate (Issue.scalar [(reg3 9).ag, (reg3 9).bg] [(reg3 9).dg]) .plain (regs .l 7 2 0 1) = .go ∧
    gate (Issue.scalar [(reg3 9).ag, (reg3 9).bg, (reg3 9).cg] [(reg3 9).dg]) .plain (regs .l 7 2 0 1) = .go ∧
    ((regs .l 7 2 0 1).g (reg3 9).ag).toNat > ((regs .l 7 2 0 1).g (reg3 9).bg).toNat ∧
    ¬((regs .l 7 7 0 1).g (reg3 9).ag).toNat > ((regs .l 7 7 0 1).g (reg3 9).bg).toNat := by decide +kernel

/-- A rotated word on C-seq, a second word in one cycle, a stage predicate of 0, and a FIXED word after its cycle. -/
theorem wit_WordsThatDoNotAct :
    gate (Issue.scalar [1, 2] [3]) { Header.plain with rot := 1 } (base .c) = .trap (.bare .illegal) ∧
    (Issue.scalar [1, 2] [3]).who.contains (base .c).cur.seq = true ∧ (base .c).cur.seq ≠ .x ∧
    gate (Issue.scalar [1, 2] [3]) .plain ((base .c).mapMySeq (fun r => { r with lastIssue := some 0 })) = .stay ∧
    gate (Issue.scalar [1, 2] [3]) { Header.plain with msrc := 3 } (base .c) = .skip ∧ (base .c).cur.slot = 0 ∧
    gate (Issue.scalar [1, 2] [3]) { Header.plain with m := 1 }
      ({ base .c with chron := 9 }.mapMySeq (fun r => { r with lastM := some true, lastIssue := some 3, segment := some (2, 2) })) = .miss := by
  decide +kernel

theorem wit_PlainWordsIssue :
    (Issue.scalar [1, 2] [3]).who.contains (base .s).cur.seq = true ∧ (Issue.scalar [1, 2] [3]).absent = none ∧
    (Issue.scalar [1, 2] [3]).stamp = none ∧ (base .s).cur.slot = 0 ∧
    (base .s).mySeq.lastM ≠ some true ∧ (base .s).mySeq.lastIssue = none ∧
    (([1, 2] : List (BitVec 6)) ++ [3]).all (fun n => (base .s).mySeq.usable (base .s).cycle n) = true := by decide +kernel

theorem wit_ScalarFrame :
    (base .c).cur.slot = 0 ∧ (base .c).inRound (Issue.scalar [] []).once = false ∧ (63 : BitVec 6) ≠ 0 := by decide +kernel

def outcomeOne : State :=
  (regs .c 32 7 2 0).mapMe (fun k => { k with outcomes := [(0, [⟨0, true, [], 0, .c⟩])] })

theorem wit_TransferWords :
    (gate (Issue.scalar [] []) .plain outcomeOne = .go ∧ gate (Issue.scalar [1, 2] []) .plain outcomeOne = .go ∧
      gate (Issue.scalar [3] [3]) .plain outcomeOne = .go ∧ gate (Issue.scalar [1] []) .plain outcomeOne = .go) ∧
    okTarget outcomeOne (outcomeOne.pc + 16 * (jmp3 (-1) 0).disp.signExtend 64) ∧ okTarget outcomeOne (outcomeOne.g 1) ∧
    outcomeOne.cur.slot = 0 ∧ outcomeOne.me.outcomeHead .c outcomeOne.cycle = some true := by
  unfold okTarget; decide +kernel

def called (n : Nat) : State := (regs .c 32 7 2 0).mapMySeq (fun r => { r with shadow := List.replicate n 32 })

theorem wit_CallWords :
    (called 63).cur.slot = 0 ∧ gate (Issue.scalar [] [(jmp3 2 0).dg]) .plain (called 63) = .go ∧
    gate (Issue.scalar [(jmp3 2 0).ag] [(jmp3 2 0).dg]) .plain (called 63) = .go ∧
    gate (Issue.scalar [(jmp3 2 0).ag] []) .plain (called 63) = .go ∧
    okTarget (called 63) ((called 63).pc + 16 * (jmp3 2 0).disp.signExtend 64) ∧ okTarget (called 63) ((called 63).g 1) ∧
    (called 63).mySeq.shadow.length < 64 ∧ (called 63).mySeq.shadow = 32 :: List.replicate 62 32 ∧ 32 = (called 63).g 1 ∧
    okTarget (called 63) 32 ∧ (called 63).me.round.st ≠ .guessing := by
  unfold okTarget; decide +kernel

theorem wit_TransferTraps :
    gate (Issue.scalar [1] []) .plain (regs .c 8 0 0 0) = .go ∧ ((regs .c 8 0 0 0).g 1).toNat % 16 ≠ 0 ∧
    gate (Issue.scalar [] [3]) .plain (called 64) = .go ∧ 64 ≤ (called 64).mySeq.shadow.length ∧
    okTarget (called 64) ((called 64).pc + 16 * (jmp3 2 0).disp.signExtend 64) ∧
    (called 0).mySeq.shadow = [] ∧ gate (Issue.scalar [1] []) .plain (called 0) = .go ∧
    ((called 1).setG 1 48).mySeq.shadow = [32] ∧ 32 ≠ ((called 1).setG 1 48).g 1 ∧
    gate (Issue.scalar [1] []) .plain ((called 1).setG 1 48) = .go := by
  unfold okTarget; decide +kernel

/-- Trip counts 0, 2^32 - 16 and 2^32 - 15; a pass before the last one and the last one (T 2, S 3). -/
theorem wit_PipelinedLoopWords :
    (base .x).cur.slot = 0 ∧ okTarget (base .x) ((base .x).pc + 16 * (jmp3 (-1) 0x103).disp.signExtend 64) ∧
    gate { Issue.scalar [1] [3] with noSpec := true } .plain (regs .x 0 0 0 0) = .go ∧ (regs .x 0 0 0 0).g 1 = 0 ∧
    gate { Issue.scalar [1] [3] with noSpec := true } .plain (regs .x 0xFFFFFFF0 0 0 0) = .go ∧
    (regs .x 0xFFFFFFF0 0 0 0).g 1 ≠ 0 ∧ ((regs .x 0xFFFFFFF0 0 0 0).g 1).toNat ≤ 2 ^ 32 - 16 ∧
    2 ^ 32 - 16 < ((regs .x 0xFFFFFFF1 0 0 0).g 1).toNat ∧
    gate { Issue.scalar [3] [3] with noSpec := true } .plain (regs .x 0 0 0x200000002 0) = .go ∧
    ((regs .x 0 0 0x200000002 0).g 3).toNat % 2 ^ 32 + 1 < 2 + 3 - 1 ∧
    2 + 3 - 1 ≤ ((regs .x 0 0 0x200000003 0).g 3).toNat % 2 ^ 32 + 1 := by
  unfold okTarget; decide +kernel

theorem wit_CsrWords :
    (base .c).cur.slot = 0 ∧ gate (Issue.scalar [] [3]) .plain (base .c) = .go ∧
    gate { Issue.scalar [1] [] with noSpec := true } .plain (base .c) = .go ∧
    gate { Issue.scalar [1] [3] with noSpec := true } .plain (base .c) = .go ∧
    (base .c).csr 0x010 = some 0 ∧ (base .c).csr 0xFFF = none ∧ ((base .c).writeCsr 0x010 0).isSome = true ∧
    (base .c).writeCsr 0x000 0 = none ∧ (base .x).cur.seq = .x ∧ (base .c).cur.seq ≠ .x ∧
    (base .c).me.raisedAt = (base .c).cycle ∧ ({ base .c with chron := 8 }).me.raisedAt ≠ ({ base .c with chron := 8 }).cycle ∧
    ((base .c).mapMe (fun k => { k with raisedAovf := true })).me.raisedAovf = true := by decide +kernel

def launchOf (q lseq : Nat) : Launch :=
  { queue := q, lseq := lseq, packet := [1], next := 0, running := 0, done := [], faulted := false, aborted := false,
    refusedWith := 0, tstart := none, nfault := 0, dies := [] }

theorem wit_SystemWords :
    (base .c).cur.slot = 0 ∧ gate (Issue.scalar [] []) .plain (base .c) = .go ∧ okTarget (base .c) (base .c).mySeq.epc ∧
    gate { Issue.scalar [] [] with noSpec := true, patient := true } .plain (base .c) = .go ∧ (base .c).allRetired = true ∧
    gate (Issue.scalar [] []) .plain (base .s) = .go ∧ (base .s).cur.seq ≠ .c ∧ (base .c).cur.seq = .c ∧
    (base .c).me.tile = some Tile.test ∧ (base .c).outranked Tile.test = false := by
  unfold okTarget; decide +kernel

theorem wit_TrapEntry :
    (Cause.software).recorded = false ∧ (base .c).mySeq.tvec = 0 ∧
    ((base .c).mapMySeq (fun r => { r with tvec := 64 })).mySeq.tvec ≠ 0 ∧
    ((base .c).mapMySeq (fun r => { r with tvec := 64 })).strict 0 = false ∧ (base .c).mgmt.sfctl.getLsbD 2 = false := by
  decide +kernel

theorem wit_MaskWords :
    (regs .x 5 0 0 1024).me.cmAwaited (regs .x 5 0 0 1024).cycle = false ∧
    gate { Issue.scalar [] [] with who := [.x] } .plain (regs .x 5 0 0 1024) = .go ∧
    gate { Issue.scalar [4] [] with who := [.x] } .plain (regs .x 5 0 0 1024) = .go ∧
    gate { Issue.scalar [] [4] with who := [.x], lat := 2 } .plain (regs .x 5 0 0 1024) = .go := by decide +kernel


def st1 (bg : BitVec 6) : Issue := { Issue.scalar [1, bg] [] with who := [.c, .s] }
def ld1 : Issue := { Issue.scalar [1] [3] with who := [.c, .l], lat := 1 }

/-- A mapped address, the register window in STARTUP, a misaligned address, and the last 8 bytes of the scratchpad. -/
theorem wit_LoadWords :
    (mapped .c 64 0 0).cBusy = false ∧ gate ld1 .plain (mapped .c 64 0 0) = .go ∧
    (mapped .c 64 0 0).reach .read .device 64 8 = .pas ((List.range 8).map (fun i => 196672 + i)) ∧
    (mapped .c 64 0 0).rangeWait .virt 64 8 false = false ∧
    ((List.range 8).map (fun i => 196672 + i)).findSome? (fun pa => (mapped .c 64 0 0).homeFault pa) = none ∧
    ((List.range 8).map (fun i => 196672 + i)).any (mapped .c 64 0 0).isRemote = false ∧
    gate ld1 .plain (mapped .c 65 0 0) = .go ∧ ((mapped .c 65 0 0).g 1).toNat % 8 ≠ 0 ∧
    (mapped .c 16376 0 0).me.inSpad 16376 8 = true ∧ (mapped .c 16376 0 0).rangeWait .spad 16376 8 false = false := by decide +kernel

def firmware (a : Word) : State :=
  { (regs .c a 1 0 0).mapMe (fun k => { k with tlb := [⟨0, 0, 16, 0x1FF00200000 / 65536, true, true, true⟩] }) with
    mgmt := { State.reset.mgmt with sfctl := 1 } }

theorem wit_LoadWords_register :
    gate ld1 .plain (firmware 0x2000) = .go ∧ (firmware 0x2000).cBusy = false ∧
    (firmware 0x2000).reach .read .device 0x2000 8 = .register 0x202000 ∧ (firmware 0x6FF8).reach .write .device 0x6FF8 8 = .register 0x206FF8 ∧
    (firmware 0x2000).cur.slot = 0 ∧ gate (st1 2) .plain (firmware 0x6FF8) = .go := by decide +kernel

theorem wit_StoreWords :
    (mapped .c 64 5 0).cBusy = false ∧ (mapped .c 64 5 0).cur.slot = 0 ∧ gate (st1 2) .plain (mapped .c 64 5 0) = .go ∧
    (mapped .c 64 5 0).reach .write .device 64 8 = .pas ((List.range 8).map (fun i => 196672 + i)) ∧
    (mapped .c 64 5 0).rangeWait .virt 64 8 true = false ∧
    ((List.range 8).map (fun i => 196672 + i)).any (mapped .c 64 5 0).isRemote = false ∧
    (hosted .c 64 5 0).reach .write .device 64 8 = .pas ((List.range 8).map (fun i => 2 ^ 50 + 64 + i)) ∧
    ((List.range 8).map (fun i => 2 ^ 50 + 64 + i)).any (hosted .c 64 5 0).isRemote = true ∧
    (hosted .c 64 5 0).me.postedOverlap ((List.range 8).map (fun i => 2 ^ 50 + 64 + i)) = false ∧
    (hosted .c 64 5 0).me.postedRoom 1 = true ∧ gate (st1 2) .plain (hosted .c 64 5 0) = .go ∧
    (mapped .c 16376 5 0).me.inSpad 16376 8 = true ∧ (mapped .c 16376 5 0).rangeWait .spad 16376 8 true = false ∧
    ((mapped .c 63 5 0).g 1).toNat % 8 ≠ 0 ∧ gate (st1 2) .plain (mapped .c 63 5 0) = .go := by decide +kernel

def queued (kind : AccessKind) (space : Space) : Access :=
  { (mapped .c 64 5 0).access kind space 64 8 .device false false none with id := 7 }
def loading : State := (mapped .c 64 5 0).mapMe (fun k => { k with loads := [queued (.load 63 true) .spad] })
def storing (space : Space) : State := (mapped .c 64 5 0).mapMe (fun k => { k with stores := [queued (.store (natBytes 8 5)) space] })

theorem wit_AccessesPerformed :
    (loading.core 0).loads.find? (fun b => b.id == 7) = some (queued (.load 63 true) .spad) ∧
    loading.performable 0 (loading.core 0).loads (queued (.load 63 true) .spad) = true ∧
    (queued (.load 63 true) .spad).slot = 0 ∧ (queued (.load 63 true) .spad).acquire = false ∧
    (loading.core 0).markScope (queued (.load 63 true) .spad) = .core ∧ (queued (.load 63 true) .spad).phys = [] ∧
    ((storing .spad).core 0).stores.find? (fun b => b.id == 8) = none ∧
    ((storing .spad).core 0).stores.find? (fun b => b.id == 7) = some (queued (.store (natBytes 8 5)) .spad) ∧
    (storing .spad).performable 0 ((storing .spad).core 0).stores (queued (.store (natBytes 8 5)) .spad) = true ∧
    (storing .virt).performable 0 ((storing .virt).core 0).stores (queued (.store (natBytes 8 5)) .virt) = true ∧
    (queued (.store (natBytes 8 5)) .virt).scope ≠ .core ∧ (storing .virt).l2.length + 8 + (storing .virt).retiredWays.length < sliceLines ∧
    (List.range 8).all (fun i => ((storing .virt).tlbFind 0 ((storing .virt).core 0).asid ((64 + i) % 2 ^ 64)).isSome) = true := by
  decide +kernel

theorem wit_AtomicWords :
    (mapped .c 64 5 0).cBusy = false ∧ (mapped .c 64 5 0).cur.slot = 0 ∧
    (mapped .c 64 5 0).reach .both .device 64 8 = .pas ((List.range 8).map (fun i => 196672 + i)) ∧
    (mapped .c 64 5 0).rangeWait .virt 64 8 true = false ∧ (mapped .c 64 5 0).me.posted = [] ∧
    ((List.range 8).map (fun i => 196672 + i)).findSome? (fun pa => (mapped .c 64 5 0).homeFault pa) = none ∧
    ((List.range 8).map (fun i => 196672 + i)).findSome? (fun pa => (mapped .c 64 5 0).answerFault pa) = none ∧
    ((2 == 2 || 2 == 3) && scopeOf 2 != .core && !((mapped .c 64 5 0).me.postedBefore .c).isEmpty) = false ∧
    gate { Issue.scalar [1, 2] [3] with who := [.c], noSpec := true } .plain (mapped .c 64 5 0) = .go ∧
    gate { Issue.scalar [1, 2, 4] [3] with who := [.c], noSpec := true } .plain (mapped .c 64 5 0) = .go ∧
    (2 ^ 64 - 1 < 2 ^ (8 * 8)) := by decide +kernel

theorem wit_FenceWords :
    gate (Issue.scalar [] []) .plain (base .c) = .go ∧ (base .c).me.queuedAccesses .c = [] ∧
    (base .c).me.queuedLoads .c = [] ∧ (base .c).me.postedBefore .c = [] ∧
    gate (Issue.scalar [] []) .plain loading = .go ∧ loading.me.queuedAccesses .c ≠ [] ∧
    loading.me.queuedLoads .c ≠ [] ∧
    gate { Issue.scalar [] [] with who := [.l, .s] } .plain (base .s) = .go := by decide +kernel

def walking : State := { base .c with walks := [⟨3, 0, 0, 65535, true⟩] }
def pageTables : State :=
  { walking with hbm := [(0, 1), (1, 0x10), (0x1000, 1), (0x1001, 0x20), (0x2000, 1), (0x2001, 0x30), (0x3000, 0x1F)] }
def l1One : L1Line := { granule := 0, way := 0, set := 0, tag := 5, valid := 1, dirty := 1, data := 7, lastUse := 0 }

theorem wit_TranslationSteps :
    (((base .c).mapCore 0 (fun k => { k with l1 := [l1One] })).core 0).l1[0]? = some l1One ∧
    walking.walks = [⟨3, 0, 0, 65535, true⟩] ∧ walking.walk 0 65535 = none ∧
    pageTables.walks = [⟨3, 0, 0, 65535, true⟩] ∧ pageTables.walk 0 65535 = some ⟨0, 0, 30, 0, true, true, true⟩ ∧
    65536 % 65536 = 0 ∧ (base .c).tigo = none ∧ { base .c with tigo := some (0, 0, 65536) }.usesRange 0 0 65536 = false ∧
    { base .c with tigo := some (1, 0, 65536) }.usesRange 1 0 65536 = false := by decide +kernel

def tok (peer n : Nat) : MemOps := ⟨0, 0, 0, 0, 0, 0, 0, 0, BitVec.ofNat 32 (4 * n + peer), 0⟩

theorem wit_TokenWords :
    (base .c).cur.slot = 0 ∧ seqOfNat ((tok 0 1).off.toNat % 4) = (base .c).cur.seq ∧ seqOfNat ((tok 3 15).off.toNat % 4) ≠ (base .c).cur.seq ∧
    gate { Issue.scalar [] [] with pushes := [(.s, 15)] } .plain (base .c) = .go ∧
    gate { Issue.scalar [] [] with pops := [(.s, 1)] } .plain
      ((base .c).mapMe (fun k => { k with tokens := [(tokenQueue .s .c, [⟨0, [], []⟩])] })) = .go ∧
    gate (Issue.scalar [1, 2] []) .plain (base .c) = .go ∧ (base .c).me.outcomeRoom 3 1 = true ∧ (base .s).me.comparePushes (base .s).cycle 3 = false ∧
    (base .c).me.older .c (8 + 3) (base .c).cycle = false := by decide +kernel

def group1 (g : Group) : State := (regs .c 0 0 0 0).setGroup 0 g

def twoMembers : Group := { Group.reset with mask := 3 }
/-- Cores 0 and 1 hold tiles of one launch, at LEVEL 1 and LEVEL 0. -/
def twoLevels : State :=
  (((base .c).mapCore 1 (fun k => k.withTest 0 .c [])).mapMe (fun k => { k with domain := 0xF1 })).setGroup 0 twoMembers

theorem wit_MeridianWords :
    (group1 { Group.reset with mask := 1 }).cBusy = false ∧
    gate { Issue.scalar [] [3] with who := [.c], noSpec := true } .plain (group1 { Group.reset with mask := 1 }) = .go ∧
    (group1 { Group.reset with mask := 1 }).groupFault { Group.reset with mask := 1 } = none ∧
    (group1 { Group.reset with mask := 1 }).levelDiffers { Group.reset with mask := 1 } = false ∧ twoLevels.groupFault twoMembers = none ∧
    twoLevels.levelDiffers twoMembers = true ∧ gate { Issue.scalar [] [3] with who := [.c], noSpec := true } .plain twoLevels = .go ∧
    gate { Issue.scalar [1] [] with who := [.c], noSpec := true } .plain (group1 { Group.reset with mask := 1, gen := 1 }) = .go ∧
    1 ≤ ((1 : BitVec 32) - BitVec.ofNat 32 0).toNat ∧ (2 ^ 31 - 1 : BitVec 32).toNat < 2 ^ 31 ∧
    (group1 { Group.reset with mask := 3 }).groupFault { Group.reset with mask := 3 } = some .barrier ∧
    ({ Group.reset with mask := 3, arrived := 3 } : Group).arrived ≠ 0 ∧
    (List.range 128).all (fun i => !(3 : BitVec 128).getLsbD i || (3 : BitVec 128).getLsbD i) = true ∧
    ((3 : BitVec 128).getLsbD 1 = true ∧ ((1 : BitVec 128) ||| 0 ||| 0).getLsbD 1 = false) := by decide +kernel

def barrierAt (off n : Nat) (a b : Word) : State := (mapped .c a b 0).mapMe (fun k => k.setBarrier off ⟨n, 0, 0, 0⟩)

theorem wit_TransactionBarrierWords :
    (barrierAt 16376 1 16376 2047).cBusy = false ∧ (barrierAt 16376 1 16376 2047).cur.slot = 0 ∧
    gate { Issue.scalar [1, 2] [] with who := [.c], noSpec := true } .plain (barrierAt 16376 1 16376 2047) = .go ∧
    (barrierAt 16376 1 16376 2047).me.barrierFault 16376 = none ∧ (barrierAt 16376 1 16376 2047).me.held 0 .spad 16376 8 true = false ∧
    ((barrierAt 16376 1 16376 2047).g 2).toNat = 2047 ∧
    gate { Issue.scalar [1, 2, 4] [3] with who := [.c], noSpec := true } .plain (barrierAt 0 1 0 0) = .go ∧
    clusterOf 0 = clusterOf (barrierAt 0 1 0 0).cur.core ∧ (barrierAt 0 1 0 0).coreFenced 0 = false ∧
    (((barrierAt 0 1 0 0).core 0).barrier 0).arrive 0 = some ⟨1, 0, 1, 0⟩ ∧
    (((barrierAt 0 1 0 1).core 0).barrier 0).ph ≠ ((barrierAt 0 1 0 1).g 2).toNat % 2 := by decide +kernel

/-- Core 16, of the next cluster, runs the same launch and has not begun a phase; LEVEL 3, LEAD 0. -/
def paced : State := ((base .c).mapCore 16 (fun k => k.withTest 0 .c [])).mapMe (fun k => { k with domain := 3 })

theorem wit_LeewaySteps :
    (base .c).cur.slot = 0 ∧ gate { Issue.scalar [] [3] with who := [.c], noSpec := true } .plain (base .c) = .go ∧
    (base .c).leewayOpen 0 1 = true ∧ gate { Issue.scalar [] [3] with who := [.c], noSpec := true } .plain paced = .go ∧
    paced.leewayOpen 0 1 = false := by decide +kernel

theorem wit_RemoteWorkWords :
    gate { Issue.scalar [1, 2] [] with who := [.c], noSpec := true } .plain (mapped .c 16320 0 0) = .go ∧
    16320 % 64 = 0 ∧ (mapped .c 16320 0 0).me.inSpad 16320 64 = true ∧ bytesNat ((mapped .c 16320 0 0).me.spad.readBytes 16320 2) = 0 ∧
    (mapped .c 16320 0 0).coreFenced 0 = false ∧ (mapped .c 16320 0 0).cBusy = false ∧
    ((mapped .c 16320 0 0).core 0).inbox.length < 16 ∧ ((mapped .c 16320 0 0).core 0).launchOf = (mapped .c 16320 0 0).me.launchOf ∧
    gate { Issue.scalar [] [] with engine := some 7, cmd := some (.notify .plain (mem3 3 4)), noSpec := true } .plain (base .c) = .go ∧ (base .c).me.fifoRoom 7 = true ∧
    (base .c).me.older .c 7 (base .c).cycle = false ∧ notifyPort 4 .c = 7 ∧
    gate { Issue.scalar [] [3] with who := [.c], noSpec := true } .plain ((base .c).mapMe (fun k => { k with events := [5] })) = .go ∧
    ((base .c).mapMe (fun k => { k with events := [5] })).me.events ≠ [] ∧
    (mapped .c 16320 0 0).olderRemq 0 = false ∧ (mapped .c 16320 0 0).me.liveRanges.length < 64 := by decide +kernel

/-- TBINIT one byte group short of alignment, at the end of the scratchpad, and with a count one past each end of its range. -/
theorem wit_TransactionBarrierWords_faults :
    gate { Issue.scalar [1, 2] [] with who := [.c], noSpec := true } .plain (barrierAt 0 1 4 1) = .go ∧
    gate { Issue.scalar [1, 2] [] with who := [.c], noSpec := true } .plain (barrierAt 0 1 16384 1) = .go ∧
    (barrierAt 0 1 16384 1).me.spadBytes = 16384 ∧
    gate { Issue.scalar [1, 2] [] with who := [.c], noSpec := true } .plain (barrierAt 0 1 0 0) = .go ∧
    ((barrierAt 0 1 0 0).g 2).toNat = 0 ∧ ((barrierAt 0 1 0 2048).g 2).toNat = 2048 ∧
    (barrierAt 0 1 0 2048).me.barrierFault 0 = none := by decide +kernel


def vec3 (et : BitVec 4) (imm : BitVec 32) : VecOps := ⟨7, 8, 9, 0, et, 0, 0, 0, 0, 1, imm⟩
def eng3 (imm : BitVec 16) : EngOps :=
  { va := 0, vb := 5, vc := 0, ga := 1, gb := 2, gc := 3, ta := 0, tb := 0, tc := 0, sga := 0,
    sgb := 0, bka := 0, bkb := 0, tile := 0, sco := 0, imm := imm }
def vissue (i : Instr) (port : Nat) (who : List SeqId) : Issue :=
  { Issue.scalar [1] [] with who := who, lanes := true, engine := some port, cmd := some i }
def vaddCommand : Command := (base .x).command (.vadd .plain (vec3 0 0)) .plain [0] none
def vldxOf (k : State) : Command := k.command (.vldx .plain (vec3 0 0)) .plain [k.g 1] none

theorem wit_VectorWordsEnter :
    (Instr.vadd .plain (vec3 0 0)).parts = some (0x40, 0, .plain, .vec (vec3 0 0)) ∧
    gate (vissue (.vadd .plain (vec3 0 0)) 5 [.x]) .plain (base .x) = .go ∧ (base .x).cur.slot = 0 ∧
    ((vecUses (vec3 0 0) 0x40 0).1 ++ (vecUses (vec3 0 0) 0x40 0).2).any (fun n => (base .x).me.vecAwaited .x 0 (rename 0 0 n)) = false ∧
    (base .x).me.fifoRoom 5 = true ∧ (base .x).me.older .x 5 0 = false ∧ (base .x).me.beginsAtOnce 5 vaddCommand = true ∧ (base .x).me.cmAwaited 0 = false ∧ vectorPort (base .x).cur.seq = 5 ∧
    (Instr.vcmp .plain (vec3 0 0)).parts = some (0x42, 0, .plain, .vec (vec3 0 0)) ∧
    (Instr.vdqcnt .plain (vec3 0 0)).parts = some (0x4C, 2, .plain, .vec (vec3 0 0)) := by decide +kernel

/-- A scatter of 64 lanes, all to one word of the host. -/
def scatter3 : VecOps := { vec3 6 0 with vd := 0 }
def scattering (f : List Nat → Bool) : Bool :=
  let s := hosted .s 512 0 0
  let a := s.vectorAccess 5 .plain scatter3
  match s.checkVector 0 s.me.asid 3 a with
  | .ok bytes => !s.vectorWaits a bytes && f ((s.postLanes a (s.v a.reg) ((s.remoteLanes a bytes).drop s.mySeq.scattered)).2.map (fun l => l.2))
  | .fault _ | .walk _ => false

theorem wit_VectorMemoryWords_scatter :
    (Instr.vscat .plain scatter3).parts = some (0x48, 5, .plain, .vec scatter3) ∧
    gate (vissue (.vscat .plain scatter3) (vectorPort .s) [.s]) .plain (hosted .s 512 0 0) = .go ∧
    (vecUses scatter3 0x48 5).1.any (fun n => (hosted .s 512 0 0).me.vecAwaited .s 0 (rename 0 0 n)) = false ∧
    scattering (fun l => !l.isEmpty) = true := by decide +kernel

theorem wit_VectorMemoryWords :
    (Instr.vldx .plain (vec3 0 0)).parts = some (0x48, 2, .plain, .vec (vec3 0 0)) ∧
    gate (vissue (.vldx .plain (vec3 0 0)) 4 [.l]) .plain (mapped .l 512 0 0) = .go ∧ (mapped .l 512 0 0).me.cmAwaited 0 = false ∧
    (vecUses (vec3 0 0) 0x48 2).2.any (fun n => (mapped .l 512 0 0).me.vecUnread .l (rename 0 0 n)) = false ∧
    (mapped .l 512 0 0).me.older .l 13 0 = false ∧ (mapped .l 512 0 0).me.older .l 4 0 = false ∧
    (mapped .l 512 0 0).me.beginsAtOnce 4 (vldxOf (mapped .l 512 0 0)) = true ∧
    (mapped .l 512 0 0).checkVector 0 0 3 ((mapped .l 512 0 0).vectorAccess 2 .plain (vec3 0 0)) = .ok [] ∧
    (mapped .l 512 0 0).vectorWaits ((mapped .l 512 0 0).vectorAccess 2 .plain (vec3 0 0)) [] = false ∧
    ((mapped .l 512 0 0).postLanes ((mapped .l 512 0 0).vectorAccess 2 .plain (vec3 0 0)) 0 []).2 = [] ∧ (mapped .l 512 0 0).mayRetry = false ∧
    (mapped .l 512 0 0).me.fifoRoom 4 = true ∧
    (mapped .l 256 0 0).checkVector 0 0 3 ((mapped .l 256 0 0).vectorAccess 2 .plain (vec3 0 0)) = .fault (.spad .alignment 256 3) := by
  decide +kernel

theorem wit_IntegerLanes :
    (base .x).cur.slot = 0 ∧ isI 0 = true ∧ vecSb (vec3 0 0) = false ∧ (vec3 0 0).sat = 0 := by decide +kernel

def vadd1 : Command := { (base .x).command (.vadd .plain (vec3 0 0)) .plain [0] none with id := 9 }
def vrunning : State := (base .x).mapMe (fun k => k.setFifo 5 [vadd1])

theorem wit_VectorWordPerformed :
    (vrunning.core 0).nextCommand 5 = some vadd1 ∧ vadd1.instr.parts = some (0x40, 0, .plain, .vec (vec3 0 0)) ∧
    (vrunning.core 0).working = true ∧ vadd1.started = false ∧ vadd1.out = [] ∧ vadd1.failed = none ∧ vadd1.due = none ∧
    Table.get 0 (vrunning.core 0).portFree 5 ≤ vrunning.cycleOf 0 := by decide +kernel

def counting : State := (mapped .x 0 0 0).mapMe (fun k => { k with conf := .count })

theorem wit_MatrixWords :
    (mapped .x 0 0 0).cur.slot = 0 ∧
    gate (engineIssue (.mma .plain (eng3 0)) 3 [.x] false (eng3 0)) .plain (mapped .x 0 0 0) = .go ∧
    gate (engineIssue (.mmac .plain (eng3 0)) 3 [.x] true (eng3 0)) .plain counting = .go ∧
    suits (mapped .x 0 0 0).me.conf (engTypes { eng3 0 with ta := 8, tb := 8 }) = true ∧
    tilesOf (mapped .x 0 0 0).me.conf ≤ 12 ∧ ¬tilesOf (mapped .x 0 0 0).me.conf ≤ 11 ∧
    room (mapped .x 0 0 0) 3 ((mapped .x 0 0 0).engCommand (.fmtld .plain (eng3 0)) .plain (eng3 0)) [⟨.spad, 0, 64, false⟩] ∧ (counting.me.conf != .count) = false ∧
    gate { Issue.scalar [] [] with who := [.x], noSpec := true } .plain (base .x) = .go ∧ (base .x).me.fifo 3 = [] ∧
    ((base .x).me.configure .exact 3).isSome = true ∧
    gate { Issue.scalar [1] [] with who := [.x], engine := some 3, cmd := some (.aload .plain (eng3 0)), noSpec := true } .plain
      (mapped .x 0 0 0) = .go ∧
    gate { Issue.scalar [] [] with who := [.x], engine := some 3, cmd := some (.mvec .plain (eng3 0)) } .plain (mapped .x 0 0 0) = .go ∧
    (mapped .x 0 0 0).me.conf = .fp ∧ (mapped .x 0 0 0).me.vecUnread .x 0 = false ∧ (mapped .x 0 0 0).cur.seq = .x ∧
    (mapped .x 0 0 0).me.vecAwaited .x 0 0 = false ∧
    room (mapped .x 0 0 0) 3 ((mapped .x 0 0 0).command (.mvec .plain (eng3 0)) .plain [] none) [] := by
  unfold room; decide +kernel

theorem wit_EngineWords :
    (mapped .c 0 0 512).cur.slot = 0 ∧
    gate (engineIssue (.xcopy .plain (eng3 0)) 0 csl false (eng3 0)) .plain (mapped .c 0 0 512) = .go ∧
    room (mapped .c 0 0 512) 0 ((mapped .c 0 0 512).engCommand (.xcopy .plain (eng3 0)) .plain (eng3 0)) (wordSpans 0 (eng3 0) ((mapped .c 0 0 512).engCommand (.xcopy .plain (eng3 0)) .plain (eng3 0))) ∧
    (mapped .c 0 0 512).me.vecAwaited .c 0 5 = false ∧
    gate (engineIssue (.publish .plain (eng3 0)) 1 cs false (eng3 0)) .plain (mapped .c 0 0 512) = .go ∧
    (mapped .c 0 0 512).rangeWait .spad 0 64 true = false ∧
    room (mapped .c 0 0 512) 1 ((mapped .c 0 0 512).publishCommand (.publish .plain (eng3 0)) .plain (eng3 0)) [⟨.spad, 0, 512, false⟩] ∧ (mapped .c 0 0 512).ownStoresFilled = true ∧
    gate (engineIssue (.ntake .plain (eng3 0)) 1 cl true (eng3 0)) .plain (mapped .c 0 0 512) = .go ∧
    gate (engineIssue (.accw .plain (eng3 0)) 2 cl true (eng3 0)) .plain (mapped .l 0 0 512) = .go ∧
    gate (engineIssue (.coll .plain (eng3 0)) 2 cs true (eng3 0)) .plain (mapped .s 0 0 512) = .go ∧
    room (mapped .s 0 0 512) 2 ((mapped .s 0 0 512).engCommand (.coll .plain (eng3 0)) .plain (eng3 0)) [] ∧
    gate (engineIssue (.chnew .plain (eng3 0)) 0 csl true (eng3 0)) .plain (mapped .c 0 0 512) = .go := by
  unfold room; decide +kernel

def desc : Descriptor := ⟨1, 0, 9, 1, 0, 0, 0⟩
def rec3 : RecOps :=
  { fts := 0, ta := 8, tb := 8, tc := 8, ka := 0, kb := 0, kc := 0, slot := 0, sga := 0, sgb := 0, bka := 0, bkb := 0,
    stamp := 0, xg := 0, opx := 0, t0 := 1, t1 := 1, da := desc, t2 := 1, t3 := 1, db := desc, dc := desc, ext := 0 }

theorem wit_RecordHeaders :
    gate (recordIssue (.xcopyRecord .plain rec3) 0 csl false rec3) .plain (mapped .c 0 0 0) = .go ∧
    room (mapped .c 0 0 0) 0 ((mapped .c 0 0 0).headerCommand (.xcopyRecord .plain rec3) .plain rec3)
      ((mapped .c 0 0 0).recordSpans 0 rec3 ((mapped .c 0 0 0).headerCommand (.xcopyRecord .plain rec3) .plain rec3)) ∧
    gate { Issue.scalar [1, 1] [] with who := [.x], size := 64, stamp := some 0, engine := some 3, cmd := some (.mmaRecord .plain rec3), once := true }
      .plain (mapped .x 0 0 0) = .go ∧
    room (mapped .x 0 0 0) 3 ((mapped .x 0 0 0).recordCommand (.mmaRecord .plain rec3) .plain rec3) ((mapped .x 0 0 0).me.matrixSpans rec3 (recTypes rec3) 64 1
      ((mapped .x 0 0 0).recordCommand (.mmaRecord .plain rec3) .plain rec3).vals) ∧ (mapped .x 0 0 0).cur.seq = .x ∧
    (rec3.opx.toNat % 16 + (mapped .x 0 0 0).me.slotCount ≤ tilesOf (mapped .x 0 0 0).me.conf ∧
      suits (mapped .x 0 0 0).me.conf (recTypes rec3) = true) ∧
    counting.me.round.st ≠ .running ∧ counting.me.conf = .count ∧ counting.me.slotCount ≤ tilesOf counting.me.conf ∧
    (mapped .x 0 0 0).me.conf ≠ .count ∧ ¬(15 + (mapped .x 0 0 0).me.slotCount ≤ tilesOf (mapped .x 0 0 0).me.conf) ∧
    ((mapped .x 0 0 0).mapMe (fun k => { k with round := { k.round with st := .running, w := 2 } })).me.round.st = .running ∧
    gate (recordIssue (.vmerge3Record .plain rec3) 5 [.x] true rec3) .plain (mapped .x 0 0 0) = .go ∧
    (mapped .x 0 0 0).me.beginsAtOnce 5 ((mapped .x 0 0 0).recordCommand (.vmerge3Record .plain rec3) .plain rec3) = true ∧
    (mapped .x 0 0 0).me.fifoRoom 5 = true ∧ (mapped .x 0 0 0).me.older .x 5 0 = false ∧ (mapped .x 0 0 0).me.cmAwaited 0 = false := by
  unfold room; decide +kernel

def answered : State := (base .c).mapMe (fun k => { k.setResults 1 [5] with counters32 := [(31, { ReadyCounter.clear with flag := true })] })

theorem wit_ResultWords :
    answered.cur.slot = 0 ∧ gate { Issue.scalar [] [1] with noSpec := true } .plain answered = .go ∧
    answered.me.results' 1 = 5 :: [] ∧ answered.me.older .c (32 + 1) 0 = false ∧
    gate { Issue.scalar [] [] with noSpec := true } .plain answered = .go ∧ (answered.me.counter 31).flag = true := by decide +kernel

def pinned (deadline : Nat) : State :=
  { (regs .c 0 0x40 1 0).mapMe (fun k => k.setBlock 0 { Block.free with
      pinned := true, used := true, generation := 1, size := 512, count := 1, deadline := deadline }) with chron := 5 }

theorem wit_BlockWords :
    (pinned 9).cur.slot = 0 ∧ gate { Issue.scalar [2, 3] [] with who := [.c], noSpec := true } .plain (pinned 9) = .go ∧
    (pinned 9).me.fifoRoom 1 = true ∧ (pinned 9).me.resultRoom 1 = true ∧ ((pinned 9).g 2).toNat < 2 ^ 15 ∧
    ((pinned 9).mapMe (fun k => { k with participating := setBit k.participating 1 true })).me.named 0x40 = some 0 ∧
    ((pinned 9).mapMe (fun k => { k with participating := setBit k.participating 1 true })).me.named 0 = none ∧
    (1 ≤ ((pinned 9).g 3).toNat ∧ ((pinned 9).g 3).toNat < 2 ^ 32) ∧ (pinned 9).cBusy = false ∧
    (pinned 9).me.unacknowledged ((pinned 9).me.postedBefore .c) = false ∧ (pinned 9).me.older .c 1 0 = false ∧
    (pinned 9).completions 0 0x40 < ((pinned 9).me.block 0).count := by decide +kernel

/-- A round of two slots on C-seq, begun at PC 0; its routine returns to 64. -/
def inRound (st : RoundState) : State :=
  (regs .c 64 0 2 0).mapMe (fun k => { k.mapSeq .c (fun r => { r with shadow := [64] }) with
    round := { Round.closed with st := st, w := 2, owner := .c, run := 1 } })

/-- The same round with slot 1 matched. -/
def accepted1 : State := (inRound .running).mapMe (fun k => { k with round := { k.round with matched := 2, confirmed := true } })
def closes (s : State) (d : Option (BitVec 6)) : Bool :=
  match closeRound s 0 d with
  | .done _ n => n == s.pc + 16
  | .jump _ _ | .wait _ _ | .walk _ | .trap _ => false

theorem wit_RoundWords :
    gate { Issue.scalar ([1, 3] ++ ({ Round.closed with carried := 0x100000002 } : Round).carriedRegs.map (BitVec.ofNat 6)) [] with
      who := allSeqs, once := true } .plain (regs .c 64 0 0x100000002 0) = .go ∧
    (regs .c 64 0 2 0).me.round.st = .closed ∧ ((regs .c 64 0 2 0).g 1).toNat % 64 = 0 ∧ ((regs .c 64 0 2 0).g 3).getLsbD 0 = false ∧
    ((List.range 64).filter (fun n => (0x1FE : Word).getLsbD n)).length ≤ 8 ∧ (regs .c 64 0 2 0).mySeq.shadow.length < 64 ∧
    gate (Issue.scalar [1] []) .plain (inRound .guessing) = .go ∧ (inRound .guessing).mySeq.shadow = 64 :: [] ∧ 64 = (inRound .guessing).g 1 ∧
    (inRound .guessing).me.round.st = .guessing ∧ (inRound .guessing).me.round.owner = .c ∧
    ([] : List Word).length = (inRound .guessing).me.round.depth ∧ (inRound .guessing).mySeq.outstanding = [] ∧
    okTarget (inRound .guessing) ((inRound .guessing).mapMySeq (fun r => { r with shadow := [] })).endRun.2 ∧
    (inRound .running).me.roundBusy ((inRound .running).mySeq.drain.getD (inRound .running).nextId) = false ∧ (inRound .running).me.round.accepted = 0 ∧ accepted1.me.round.accepted = 1 ∧
    accepted1.me.roundBusy (accepted1.mySeq.drain.getD accepted1.nextId) = false ∧ accepted1.me.round.stores = [] ∧ accepted1.me.round.heldResults = [] ∧
    (accepted1.me.slot 1).deferred = [] ∧ (accepted1.me.slot 1).fault = none ∧
    gate { Issue.scalar [] [1] with who := accepted1.roundIssuers, once := true } .plain accepted1 = .go ∧
    (inRound .running).me.round.st = .running ∧
    gate { Issue.scalar ((inRound .running).me.round.carriedRegs.map (BitVec.ofNat 6)) [] with
      who := (inRound .running).roundIssuers, once := true } .plain (inRound .running) = .go ∧
    gate { Issue.scalar [] [1] with who := (inRound .running).roundIssuers, once := true } .plain (inRound .running) = .go ∧
    closes (inRound .running) none = true ∧ closes (inRound .running) (some 63) = true ∧ (base .c).me.round.st = .closed ∧
    gate { Issue.scalar [] [] with who := (base .c).roundIssuers, once := true } .plain (base .c) = .go ∧
    gate (Issue.scalar [] [1]) .plain (inRound .running) = .go := by
  unfold okTarget; decide +kernel

def ntake1 (imm : BitVec 16) : Command := { (base .c).engCommand (.ntake .plain (eng3 imm)) .plain (eng3 imm) with id := 9 }
def holding (c : Command) (flag : Bool) : State :=
  (base .c).mapMe (fun k => { k.setFifo 1 [c] with counters32 := [(0, { ReadyCounter.clear with flag := flag })] })
def xfill1 : Command := { (base .c).recordCommand (.xfillRecord .plain rec3) .plain rec3 with id := 9, started := true }
/-- A triggered transfer of a FIXED segment, with its flag clear, before its cycle and after it. -/
def xcopyT : Command := { (base .c).engCommand (.xcopy .plain (eng3 0x20)) .plain (eng3 0x20) with id := 9, due := some 4 }
def awaitingFlag (chron : Nat) : State := { (base .c).mapMe (fun k => k.setFifo 0 [xcopyT]) with chron := chron }

theorem wit_EngineSteps_due :
    ((awaitingFlag 4).core 0).nextCommand 0 = some xcopyT ∧ ((awaitingFlag 4).core 0).working = true ∧ xcopyT.trigger = some 0 ∧
    xcopyT.started = false ∧ ((awaitingFlag 4).core 0).counter 0 = ReadyCounter.clear ∧ xcopyT.due = some 4 ∧
    ¬4 < (awaitingFlag 4).cycleOf 0 ∧ 4 < (awaitingFlag 10).cycleOf 0 := by decide +kernel

/-- A triggered COLL. -/
def coll1 : Command := { ntake1 0 with instr := .coll .plain { eng3 0x4000 with sco := 4 } }

theorem wit_EngineSteps :
    ((holding (ntake1 0) false).core 0).nextCommand 1 = some (ntake1 0) ∧ ((holding (ntake1 0) false).core 0).working = true ∧
    (ntake1 0).trigger = none ∧ (ntake1 0).started = false ∧
    ((holding xfill1 false).core 0).nextCommand 1 = some xfill1 ∧ xfill1.total.isSome = true ∧ xfill1.started = true ∧
    ((holding (ntake1 0) true).core 0).counter 0 = { ReadyCounter.clear with flag := true } ∧
    Table.get none ((holding (ntake1 0) false).core 0).stopped 1 = none ∧
    ((holding { ntake1 0 with result := some ⟨.ok, 0⟩ } false).core 0).fifo 1 = [{ ntake1 0 with result := some ⟨.ok, 0⟩ }] ∧
    (holding { ntake1 0 with result := some ⟨.ok, 0⟩ } false).mayComplete 0 1 { ntake1 0 with result := some ⟨.ok, 0⟩ } = true ∧
    ((holding (ntake1 0) false).core 0).resultRoom (engineOfPort 1) = true ∧ (ntake1 0).creditBar = none ∧
    (ntake1 0).slot = 0 ∧ (ntake1 0).remote = none ∧
    (((base .c).mapMe (fun k => k.setFifo 0 [{ ntake1 0 with instr := .notify .plain (mem3 0 0) }])).core 0).headCommand 0 =
      some { ntake1 0 with instr := .notify .plain (mem3 0 0) } := by decide +kernel

def halting (s : State) : State := s.mapMySeq (fun r => { r with halted := true })
def faulted : State := (base .c).mapMySeq (fun r => { r with pending := [⟨5, 0, 0, some 1⟩] })

theorem wit_Deliveries :
    (((pinned 4).core 0).block 0).pinned = true ∧ (((pinned 4).core 0).block 0).expired = false ∧
    (((pinned 4).core 0).block 0).deadline ≤ (pinned 4).tick ∧ (((pinned 5).core 0).block 0).deadline = (pinned 5).tick ∧
    (pinned 5).completing 0 ((((pinned 5).core 0).block 0).bid 0) = false ∧ (halting (pinned 4)).atBoundary 0 .c = true ∧ (halting faulted).atBoundary 0 .c = true ∧
    (match (((halting (pinned 4)).mapMe (fun k => k.setBlock 0 { k.block 0 with expired := true })).core 0).due .c with
      | .reclaim 0 _ => true
      | _ => false) = true ∧
    (match ((halting faulted).core 0).due .c with
      | .fault p => p == ⟨5, 0, 0, some 1⟩
      | _ => false) = true ∧
    (match ((base .c).core 0).due .c with
      | .nothing => true
      | _ => false) = true := by decide +kernel

def bits1 : BitVec 128 := mkNotice 0 512 0 0 0 0x40 0
def bits3 : BitVec 128 := mkNotice 0x100 512 0 3 0 0x40 0
def posted (m : Message) : State := { base .c with posts := [⟨4, m, 0, 0, none⟩] }

theorem wit_NoticeSteps :
    (posted (.notice bits1 511 1 0 none false)).postOf 4 = some (.notice bits1 511 1 0 none false) ∧
    511 / 512 = (posted (.notice bits1 511 1 0 none false)).devnum ∧
    (posted (.notice bits1 511 1 0 none false)).earlierNotice 4 bits1 511 1 = false ∧ noticeMalformed bits1 = false ∧
    noticeMalformed 0 = true ∧ (base .c).mayEnter 0 0 = true ∧ (base .c).mayEnter 511 0 = false ∧
    (posted (.notice bits1 0 1 0 (some 0) false)).nextHeld 0 = some (4, bits1, 1, 0, false) ∧
    (posted (.completion bits1 0 5)).postOf 4 = some (.completion bits1 (posted (.completion bits1 0 5)).devnum 5) ∧
    (posted (.decline bits1 0 5)).postOf 4 = some (.decline bits1 (posted (.decline bits1 0 5)).devnum 5) ∧
    (posted (.withdrawal bits1 1 5 false)).postOf 4 = some (.withdrawal bits1 1 5 false) ∧
    5 / 512 = (posted (.withdrawal bits1 1 5 false)).devnum ∧ (posted (.withdrawal bits1 1 5 false)).overtakes bits1 1 5 = true ∧
    (posted (.withdrawal bits1 0 5 false)).postOf 4 = some (.withdrawal bits1 0 5 false) ∧
    (posted (.withdrawal bits1 0 5 false)).overtakes bits1 0 5 = false ∧
    (((posted (.notice bits1 0 1 0 none false)).useWithdrawals bits1 1 511).coreFenced 511 = false) ∧
    (base .c).nextHeld 0 = none ∧
    (let n : Notice := ⟨0, bits1, 1, 0, 0, 0, .waiting, 0, 0, 0, 0, false, false⟩
     n.state = .waiting ∧ n.windowed = true ∧ n.dev = 1) ∧ (posted (.completion bits1 0 5)).justFreed (noticeProd bits1) (noticeBid bits1) = false := by decide +kernel

/-- Core 0 is fenced while a notice is held for it. -/
def heldAtFence : State := let s := posted (.notice bits1 0 1 0 (some 0) false); { s with faults := { s.faults with fcore := 1 } }

theorem wit_NoticeSteps_fenced :
    heldAtFence.coreFenced 0 = true ∧ heldAtFence.heldFor 0 = [(4, bits1, 1, 0)] ∧
    (posted (.notice bits1 0 1 0 none false)).coreFenced 0 = false ∧
    (let s := posted (.notice bits1 0 1 0 none false)
     { s with faults := { s.faults with fcore := 1 } }.coreFenced 0 = true) := by decide +kernel

def notice (bits : BitVec 128) (st : NoticeState) : Notice := ⟨0, bits, 0, 0, 0, 0, st, 0, 0, 0, 0, false, false⟩
/-- A core with one notice in its inbox, a window of 512 bytes, and ready counter 0 armed for the bytes from 0. -/
def inbox (n : Notice) : State :=
  { (mapped .c 0 0 0).mapMe (fun k => { k with
      notices := [n], pwincfg := BitVec.ofNat 40 (512 * 2 ^ 20), counters32 := [(0, { ReadyCounter.clear with armed := true, words := 128 })] }) with
    chron := 8 * 0x400 }

theorem wit_PullSteps :
    ((inbox (notice bits1 .pulling)).core 0).requesting = some (notice bits1 .pulling) ∧
    (inbox (notice bits1 .pulling)).helmRuns 0 = true ∧ ((inbox (notice bits1 .pulling)).core 0).mayRequest 8192 = true ∧
    ((inbox (notice bits3 .waiting)).core 0).requesting = none ∧
    ((inbox (notice bits3 .waiting)).core 0).choice 8192 = some (notice bits3 .waiting) ∧ (notice bits3 .waiting).kind = 3 ∧
    ((inbox (notice bits3 .waiting)).core 0).outsideRegion bits3 = true ∧
    ((inbox (notice bits1 .waiting)).core 0).choice 8192 = some (notice bits1 .waiting) ∧ (notice bits1 .waiting).kind ≠ 3 ∧
    ((inbox (notice bits1 .waiting)).core 0).noticeAt 0 = some (notice bits1 .waiting) ∧
    ((inbox (notice bits1 .waiting)).core 0).ripe (inbox (notice bits1 .waiting)).tick (notice bits1 .waiting) = true ∧
    (posted (.request bits1 0 5 63 0)).postOf 4 = some (.request bits1 (posted (.request bits1 0 5 63 0)).devnum 5 63 0) ∧
    ((pinned 9).core 0).named 0x40 = some 0 ∧ ((pinned 9).core 0).named 0x80 = none ∧
    (pinned 9).segmentShared 0 ((pinned 9).core 0) 0 0 = false ∧ (((inbox (notice bits1 .pulling)).withLoadReads 0).core 0).nextRead = none ∧
    ((((base .c).mapMe (fun k => { k with reads := [⟨9, 2 ^ 50, 64, false, none, none⟩] })).withLoadReads 0).core 0).nextRead = some 0 ∧
    ((inbox (notice bits1 .waiting)).core 0).scoreboardFull (notice bits1 .waiting) = false ∧ ((inbox (notice bits1 .pulling)).mapMe (fun k => { k with portAt := [(3, 8193)] })).mayArrive 0 bits1 = true ∧
    ((inbox (notice bits1 .pulling)).mapMe (fun k => { k with helm := { k.helm with queue := [(0, 0)] } })).consumerId 0 = 0 ∧
    (((inbox (notice bits1 .pulling)).mapMe (fun k => { k with helm := { k.helm with queue := [(0, 0)] } })).core 0).helm.queue =
      (0, 0) :: [] := by decide +kernel


/-- Memory that holds bytes from an address on; zero bytes are not listed. -/
def bytesAt (a : Nat) (bs : List Byte) : Memory := (bs.zipIdx.map (fun x => (a + x.2, x.1))).filter (fun x => x.2 != 0)

/-- Core 0 with every sequencer halted but those given. -/
def halted (but : List SeqId) : State :=
  (base .c).mapMe (fun k => allSeqs.foldl (fun (k : Core) q => if but.contains q then k else k.mapSeq q (fun r => { r with halted := true })) k)

/-- C-seq waits at a TKWAIT for a token that nothing sends. -/
def stuck : State :=
  ((halted [.c]).mapMe (fun k => { k.withTest 0 .c (encode (.tkwait .plain (tok 3 1))) with tile := some Tile.test })).mapMySeq
    (fun r => { r with waitSince := some 0 })

def block1 (bytes : List Byte) (entered : Nat) : RemoteBlock := ⟨0, 0, 7, bytes, entered, none⟩
def serving (b : RemoteBlock) (holds : Bool) : State :=
  (mapped .c 0 0 0).mapMe (fun k => { k with
    inbox := [b], spad := [(0, 64)], ranges := if holds then [⟨.remq 0 7, .spad, 0, 1088, false, 0, none⟩] else [] })

theorem wit_TileSteps :
    ((halted []).core 0).tile = some Tile.test ∧ ((halted []).core 0).finished = true ∧ (halted []).coreFenced 0 = false ∧
    Tile.test.killed = false ∧ ((halted []).mapMe Core.kill).me.tile = some { Tile.test with dead := true } ∧ Tile.test.dead = false ∧
    stuck.deadlocked 0 = true ∧ allSeqs.find? (fun q => !((stuck.core 0).seq q).halted) = some .c ∧
    ((serving (block1 [] 0) true).core 0).inbox = block1 [] 0 :: [] ∧ ((serving (block1 [] 0) true).core 0).working = true ∧
    ((serving (block1 [] 0) true).coreWith 0 (fun m => m.ranges.any (fun r => r.owner == .remq 0 7))).ranges ≠ [] ∧
    ((serving (block1 [] 0) true).core 0).mayRequest 0 = true ∧
    (block1 [] 0).bytes.length + 512 < (block1 [] 0).length ((serving (block1 [] 0) true).core 0).spad ∧
    (block1 (List.replicate 576 0) 0).length ((serving (block1 [] 0) true).core 0).spad - 576 ≤ 512 ∧
    576 ≤ (block1 (List.replicate 576 0) 0).length ((serving (block1 [] 0) true).core 0).spad ∧
    ((serving (block1 [1, 0, 0, 0, 0, 0, 0, 0] 1) false).core 0).ranges.any (fun r => r.owner == .remq 0 7) = false ∧
    bytesNat ((block1 [1, 0, 0, 0, 0, 0, 0, 0] 1).bytes.take 2) = 1 ∧
    bytesNat (((block1 [1, 0, 0, 0, 0, 0, 0, 0] 1).bytes.drop 2).take 6) = 0 := by decide +kernel

def queued0 (st : QueueState) : Queue := { Queue.reset with state := st, qsize := 128, cent := 2, qrd := 64, qwr := 0, qcfg := 0x100010000 }
def withQueue (st : QueueState) : State := (base .c).setQueue 0 (queued0 st)

def aborting : State := (State.reset).setQueue 0 (queued0 .aborting)

theorem wit_QueueControl :
    ((withQueue .disabled).queue 0).state = .disabled ∧ ((base .c).queue 16383).state = .disabled ∧
    (((withQueue .disabled).queue 0).weight == 0 || ((withQueue .disabled).queue 0).cent == 0) = false ∧
    (((base .c).queue 16383).cent == 0) = true ∧ ((withQueue .faulted).queue 0).state = .faulted ∧
    ((withQueue .enabled).queue 0).state = .enabled ∧ ((withQueue .draining).queue 0).state = .draining ∧
    ((State.reset).setQueue 0 (queued0 .draining)).queueEmpty 0 = true ∧ (aborting.queue 0).state = .aborting ∧
    aborting.cores.all (fun x => match x.2.tile with
      | some t => !(t.queue == 0 && t.killed)
      | none => true) = true ∧ aborting.queueEmpty 0 = true := by decide +kernel

/-- A packet: VER 1, LEVEL 0, LEAD 15, one tile, core 0, HELMCFG as at reset; GROUP byte as given. -/
def packet (group : Nat) : List Byte :=
  natBytes 64 (1 + 0xF0 * 2 ^ 16 + group * 2 ^ 24 + 0x0001000100010001 * 2 ^ 192 + 2 ^ 16 * 2 ^ 256 + (3 * 2 ^ 36 + 0x400 * 2 ^ 20 + 0x2000) * 2 ^ 384)
def launch1 (q group : Nat) : Launch := { launchOf q 0 with packet := packet group }
/-- Queue 0 enabled, no tile on any core. -/
def idle : State := { State.reset.setQueue 0 { queued0 .enabled with qbase := 0 } with hbm := bytesAt 64 (packet 0) }
def listed (group : Nat) : State := { idle with launches := [launch1 0 group] }
def preempting : State :=
  { ((base .c).setQueue 0 (queued0 .enabled)).setQueue 1 { queued0 .enabled with qcfg := 0x10100 } with launches := [launch1 1 0] }
def saved : State := { idle with contexts := [⟨0, 0, 0, 0, (base .c).me.saved⟩] }
def stopping : State := (base .c).mapMe (fun k => { k with tile := some { Tile.test with stopping := true } })

theorem wit_LaunchSteps :
    (idle.queue 0).state = .enabled ∧ (idle.queue 0).qrd ≠ (idle.queue 0).qwr ∧ (idle.queue 0).qrd.toNat + 64 ≤ (idle.queue 0).qsize.toNat ∧
    idle.checkpoint.holdsDispatch = false ∧ idle.launches = [] ∧ idle.physReadBytes true 64 64 = packet 0 ∧
    (launch1 0 0).field 0 1 = 1 ∧ (launch1 0 0).scratch = 0 ∧ (launch1 0 0).bad 2 0 = false ∧
    (listed 0).offered 0 = true ∧ ((listed 0).arbitrate 0).map (fun x => x.1) = some 0 ∧ (listed 0).savedOn 0 0 = none ∧
    (listed 0).launchFor 0 0 = some (launch1 0 0) ∧ ((launch1 0 0).group 0).isSome = false ∧
    (listed 128).launchFor 0 0 = some (launch1 0 128) ∧ ((launch1 0 128).group 0).isSome = true ∧
    (((listed 128).setMembership (launch1 0 128) 0).launchFor 0 0).isSome = true ∧
    ((((listed 128).setGroup 0 { Group.reset with arrived := 1 }).setMembership (launch1 0 128) 0).launchFor 0 0).isSome = false ∧
    saved.offered 0 = true ∧ (saved.arbitrate 0).map (fun x => x.1) = some 0 ∧ (saved.savedOn 0 0).isSome = true ∧
    { idle with launches := [{ launch1 0 0 with next := 1, done := [0] }] }.launchStatus { launch1 0 0 with next := 1, done := [0] } = some 1 ∧
    preempting.dispatchable 1 = some (launch1 1 0) ∧
    (List.range (launch1 1 0).ncore).any (fun i => (preempting.core ((launch1 1 0).first + i)).tile.isNone &&
      !preempting.coreFenced ((launch1 1 0).first + i)) = false ∧
    preempting.victim 1 (launch1 1 0) = some (0, Tile.test) ∧ preempting.outranked Tile.test = true ∧
    (stopping.core 0).tile = some { Tile.test with stopping := true } ∧ stopping.coreFenced 0 = false ∧ stopping.maySave 0 = true := by
  decide +kernel

def key1 : List Byte := List.replicate 32 0

/-- A shard table of one entry at 0: range of a length at 65536, ASID 1, a state; the tag of an empty text, and a digest. -/
def shard (len state : Nat) (tag digest : List Byte) : State :=
  { base .c with
    hbm := bytesAt 0 (natBytes 8 65536 ++ natBytes 8 len ++ List.replicate 12 0 ++ [1, BitVec.ofNat 8 state] ++ [0, 0] ++ tag) ++
      bytesAt 64 digest
    shards := { State.reset.shards with wscnt := 1, patrolAt := 0 }
    trust := { State.reset.trust with installed := [1], keys := [(1, key1)] } }

theorem wit_ShardSteps :
    (base .c).registerCheck 0 true = 1 ∧ (base .c).registerCheck 4095 false = 1 ∧
    (shard 65536 0 [] []).registerCheck 0 true = 0 ∧ (shard 65536 0 [] []).registerCheck 0 false = 0 ∧
    (shard 65536 2 [] []).entryState 0 ≠ shardFree ∧ (shard 65536 2 [] []).asidActive ((shard 65536 2 [] []).entryAsid 0) = false ∧
    ((shard 65536 2 [] []).setQueue 0 { Queue.reset with state := .enabled, qcfg := 0x10001 }).asidActive 1 = true ∧
    { shard 65536 1 [] [] with shards := { (shard 65536 1 [] []).shards with tags := [(1, some 0)] } }.loadingAt 131071 = some 0 ∧
    (shard 0 4 [] []).entryState 0 = shardChecking ∧ (shard 0 4 [] []).digestOk 0 = false ∧
    (shard 0 4 [] (shake256 [] 32)).digestOk 0 = true ∧
    { shard 0 1 [] [] with chron := BitVec.ofNat 64 (600 * ticksPerSecond) }.shards.wpatrol ≠ 0 ∧
    0 + 600 * ticksPerSecond ≤ { shard 0 1 [] [] with chron := BitVec.ofNat 64 (600 * ticksPerSecond) }.tick := by decide +kernel

def tag0 : List Byte := gcmTag key1 (List.replicate 12 0) (gcmCrypt key1 (List.replicate 12 0) 0 [])

theorem wit_ShardSteps_ingress :
    (shard 0 1 tag0 []).entryState 0 = shardLoading ∧
    (Table.get [] (shard 0 1 tag0 []).shards.landed 0).length = (shard 0 1 tag0 []).entryLength 0 / 16 ∧
    (shard 0 1 tag0 []).entryBytes 0 32 16 = tag0 ∧ (shard 0 1 tag0 []).digestOk 0 = false ∧
    (shard 0 1 tag0 (shake256 [] 32)).digestOk 0 = true ∧ (shard 0 1 [] []).entryBytes 0 32 16 ≠ tag0 := by decide +kernel

def port0 (x : Port) : State := (base .c).setPort 23 x
def up : Port := { Port.reset with state := .up, pcfg := 2 }
def offer (a : Nat) : Offered := ⟨⟨a, [7], true, 0, 535, 4⟩, 4⟩

theorem wit_PortSteps :
    ((port0 up).port 23).state ≠ .down ∧ ((port0 { up with state := .training, pcfg := 1 }).port 23).state = .training ∧
    ((port0 { up with state := .training, pcfg := 1 }).port 23).mode = 1 ∧ 0 = (base .c).devnum ∧
    ((port0 { up with state := .training }).port 23).mode ≠ 1 ∧
    (port0 { up with state := .training }).tick < ((port0 { up with state := .training }).port 23).trainStart + 130000000 ∧
    ({ port0 { up with state := .training } with chron := 130000000 }.port 23).trainStart + 130000000 ≤
      { port0 { up with state := .training } with chron := 130000000 }.tick ∧
    ((port0 { up with offers := [offer 0] }).port 23).offers = offer 0 :: [] ∧ ((port0 { up with offers := [offer 0] }).port 23).lastPull = none ∧
    ((port0 { up with offers := [offer 0] }).port 23).pulled = [] ∧ ((port0 { up with offers := [offer 0] }).port 23).progress = 0 ∧
    (offer 0).offer.data.length ≤ 512 ∧ ((port0 { up with pcfg := 2 + 2 ^ 45, offers := [offer 0] }).port 23).outstanding + 1 ≤
      ((port0 { up with pcfg := 2 + 2 ^ 45, offers := [offer 0] }).port 23).wingr ∧
    ({ up with pcfg := 2 } : Port).wingr < ({ up with pcfg := 2 } : Port).outstanding + 1 ∧ up.state = .up ∧ replayLimit ≤ ((port0 { up with errors := 16 }).port 23).errors ∧ ((port0 up).port 23).state = .up := by
  decide +kernel

def entry1 : RemoteWrite := ⟨3, 31, 2 ^ 50, [7], 8, .c, 0, none, none, 0, 0, true, 1, []⟩
def peered (r : BitVec 24) : State :=
  { port0 { up with pcfg := 1 } with posts := [⟨4, .withdrawal bits1 0 512 false, 0, 0, none⟩], routes := [(1, r)] }

theorem wit_RemoteSteps :
    ((hosted .c 0 0 0).mapMe (fun k => { k with posted := [entry1] })).me.posted.find? (fun e => e.entry == 31 && e.sent && e.given == e.data.length) = some entry1 ∧
    ((hosted .c 0 0 0).mapMe (fun k => { k with posted := [entry1] })).underWay 0 31 = false ∧
    ((port0 { up with pulled := [offer 5] }).port 23).pulled.find? (fun y => (port0 { up with pulled := [offer 5] }).offerReady 23 y) =
      some (offer 5) ∧ (offer 5).offer.fromHost = true ∧ (base .c).place (2 ^ 51 + 2 ^ 41) = .remote 1 ∧
    (base .c).place (offer (1536 * 2 ^ 30 - 1)).offer.addr = .hbm (1536 * 2 ^ 30 - 1) ∧ (base .c).place 0x1FF00000018 = .window 0x18 ∧
    doorbell 0x18 = true ∧ doorbell 0x200018 = false ∧ (port0 up).port 23 = up ∧ up.forwarded = [] ∧
    (base .c).place (1536 * 2 ^ 30) = .unbacked ∧ (base .c).place (2 ^ 50) = .host ∧ (offer 5).offer.data ≠ [] ∧
    ((port0 up).port 23).mode = 2 ∧ ((port0 { up with pcfg := 1 }).port 23).mode = 1 ∧ 0x18 % 8 + 8 ≤ 8 ∧ ((base .c).port 23).state ≠ .up ∧
    (peered 0x800000).posts.find? (fun p => p.id == 4) = some ⟨4, .withdrawal bits1 0 512 false, 0, 0, none⟩ ∧
    ((peered 0x800000).way (.withdrawal bits1 0 512 false)).bind (fun ports => (peered 0x800000).bestPort 0 ports) = some 23 ∧
    (Message.withdrawal bits1 0 512 false).flits ≤ ((peered 0x800000).port 23).credits 0 ∧
    (peered 0).way (.withdrawal bits1 0 512 false) = some [] := by decide +kernel

theorem wit_EccSteps :
    siteOk (.hbmFrame 25165823) = true ∧ siteOk (.hbmFrame 25165824) = false ∧
    { base .c with retiredWays := [3 * 2 ^ 20 + 16383 * 2 ^ 6 + 35] }.retiredWays.contains (3 * 2 ^ 20 + 16383 * 2 ^ 6 + 35) = true ∧
    (base .c).retiredWays.contains 0 = false := by decide +kernel

def fenced : State :=
  { State.reset with faults := { State.reset.faults with fcore := 2 ^ 511, fclu := 2 ^ 31, fstack := 2 ^ 23 } }

theorem wit_RecoveryWrites :
    fenced.faults.fcore.getLsbD 511 = true ∧ (fenced.core 511).tile = none ∧ fenced.faults.fclu.getLsbD 0 = false ∧
    fenced.faults.fclu.getLsbD 31 = true ∧ (List.range 16).all (fun i => (fenced.core (496 + i)).tile.isNone) = true ∧
    fenced.faults.fstack.getLsbD 23 = true ∧ fenced.shardsIn (2 ^ 36 * 23) (2 ^ 36) = [] ∧
    (2 ^ 64 - 1) % 2 ^ 64 ≠ 0 ∧ (2 ^ 64) % 2 ^ 64 = 0 := by decide +kernel

def checkpointing (st : CheckpointState) (r : Bool) : State :=
  { State.reset with checkpoint := { State.reset.checkpoint with dst := 2 ^ 50, state := st, restoring := r } }
def checkpointHost (st : CheckpointState) : State :=
  { checkpointing st false with hostdev := 2 ^ 15, ports := [(0, up)] }

theorem wit_CheckpointSteps :
    (checkpointing .idle false).place (checkpointing .idle false).checkpoint.dst.toNat = .host ∧
    (checkpointing .idle false).checkpoint.running = false ∧ (checkpointing .idle false).checkpoint.restoring = false ∧
    (checkpointing .quiescing false).checkpoint.state = .quiescing ∧
    (checkpointing .quiescing false).cores.any (fun x => x.2.tile.isSome || !x.2.posted.isEmpty) = false ∧
    (checkpointHost .copying).checkpoint.state = .copying ∧ (checkpointHost .copying).routeOpen (checkpointHost .copying).checkpoint.dst.toNat = true ∧
    (checkpointing .idle false).queues.any (fun x => x.2.state != .disabled) = false ∧
    (checkpointing .idle true).checkpoint.restoring = true := by decide +kernel

def trusted (l : LifeCycle) : State := { State.reset with trust := { State.reset.trust with lcstate := l, nonce := 0 } }

theorem wit_TrustSteps :
    (trusted .rma).keyCheck 255 ≠ 0 ∧ (trusted .deployed).keyCheck 255 = 0 ∧ (trusted .deployed).trust.lcstate = .deployed ∧
    (trusted .rma).trust.lcstate ≠ .provisioned ∧ (trusted .rma).trust.lcstate ≠ .deployed ∧ (trusted .deployed).trust.aidx < 2 ^ 40 ∧
    { trusted .rma with hbm := [(0, 1)] }.trust.bodyOk ({ trusted .rma with hbm := [(0, 1)] }.physReadBytes false 0 64) = false ∧
    { trusted .rma with hbm := [(8, 1)] }.trust.bodyOk ({ trusted .rma with hbm := [(8, 1)] }.physReadBytes false 0 64) = true ∧
    LifeCycle.rma.next (({ trusted .rma with hbm := [(8, 1)] }.physReadBytes false 0 64).getD 8 0).toNat = some .provisioned ∧
    (trusted .rma).queues.any (fun x => x.2.state != .disabled) = false := by decide +kernel

def hot (hold : Bool) : State := { State.reset with mgmt := { State.reset.mgmt with temp := 105, thermalHold := hold } }

theorem wit_PowerSteps :
    State.reset.mgmt.thermalHold = false ∧ 105 ≤ (hot false).mgmt.temp % 256 ∧ (hot false).mgmt.thermalHold = false ∧
    (hot true).mgmt.thermalHold = true ∧ State.reset.anyEnabled = false := by decide +kernel

theorem wit_PowerManagement :
    8 < fieldOf (BitVec.ofNat 64 9) 0 4 ∧
    (State.reset.setClock 3 { d := 0, k := 8, pending := some (2, 6) }).clockOf 3 = { d := 0, k := 8, pending := some (2, 6) } ∧
    (List.range 128).all (fun i => (State.reset.core (384 + i)).tile.isNone) = true ∧
    0 + ticksPerMillisecond ≤ { State.reset with chron := BitVec.ofNat 64 ticksPerMillisecond }.tick ∧
    State.reset.cores.any (fun x => State.reset.coreHolds x.1) = false ∧ State.reset.countLate = false ∧
    ({ State.reset with leewayDue := [(3, 1)], chron := 200 }).countLate = true := by decide +kernel

def addOps : RegOps := ⟨3, 1, 2, 0, 0⟩
def recCopy : RecOps := { rec3 with ta := 0, tb := 0, tc := 0, ka := 1, kc := 2, db := ⟨0, 0, 0, 0, 0, 0, 0⟩ }

theorem wit_DecodeOfEncode :
    (Instr.add .plain addOps).parts.isSome = true ∧ (Instr.add .plain addOps).wf = true ∧
    (Instr.xcopyRecord .plain recCopy).parts.isSome = true ∧ (Instr.xcopyRecord .plain recCopy).wf = true := by decide +kernel

def fetching (i : Instr) : State :=
  { (base .c).mapMe (fun k => k.withTest 0 .c (encode i)) with agenda := [.seq 0 .c] }
/-- The same fetch line with the program counter on its second 16 bytes. -/
def fetchingAt16 (bytes : List Byte) : State :=
  { ((base .c).mapMe (fun k => k.withTest 0 .c (List.replicate 16 0 ++ bytes))).mapMySeq (fun r => { r with pc := 16 }) with agenda := [.seq 0 .c] }

def decodesTo (bytes : List Byte) (i : Option Instr) : Bool :=
  match decode bytes with
  | .ok (j, _) => some j == i
  | .error _ => i.isNone

theorem wit_StepRunsDecoded :
    (fetching (.add .plain addOps)).agenda = .seq 0 .c :: [] ∧ (fetching (.add .plain addOps)).mgmt.thermalHold = false ∧
    (fetching (.add .plain addOps)).mayIssue 0 .c = true ∧ (fetching (.add .plain addOps)).hasTurn 0 .c = true ∧ ((fetching (.add .plain addOps)).core 0).hasDue .c = false ∧
    ((((fetching (.add .plain addOps)).core 0).seq .c).held 0).isSome = true ∧
    decodesTo (((((fetching (.add .plain addOps)).core 0).seq .c).lines.headD ⟨0, []⟩).bytes.drop 0) (some (.add .plain addOps)) = true ∧
    isRecordMaj (((encode (.add .plain addOps)).headD 0).toNat) = false ∧
    isRecordMaj (((encode (.xcopyRecord .plain recCopy)).headD 0).toNat) = true ∧
    (fetchingAt16 (encode (.xcopyRecord .plain recCopy))).mayIssue 0 .c = true ∧
    (fetchingAt16 (encode (.xcopyRecord .plain recCopy))).hasTurn 0 .c = true ∧ 16 % 64 ≠ 0 ∧
    ((((fetchingAt16 (encode (.xcopyRecord .plain recCopy))).core 0).seq .c).held 16).isSome = true ∧
    decodesTo (((((fetchingAt16 []).core 0).seq .c).lines.headD ⟨0, []⟩).bytes.drop 16) none = true ∧ isRecordMaj 0 = false := by decide +kernel

theorem wit_StepKeepsMemoriesWf :
    Memory.wf (fetching (.add .plain addOps)).hbm = true ∧ Memory.wf (fetching (.add .plain addOps)).outside = true ∧
    (match step (fetching (.add .plain addOps)) with
      | .next _ => true
      | _ => false) = true := by decide +kernel

/-- A ring in the host's memory, reached through port 0, with its records there too. -/
def hostRing : State :=
  (({ hosted .c 0 0 0 with launches := [] }).setQueue 0 { queued0 .enabled with qbase := 2 ^ 63, cbase := 2 ^ 63 + 65536 })

theorem wit_LaunchSteps_elsewhere :
    (idle.isRemote (ringAddress (idle.queue 0).qbase + (idle.queue 0).qrd.toNat) = false ∧ idle.isRemote (idle.recordAddress 0 0 + 4) = false ∧
      idle.recordPending (idle.recordAddress 0 0 + 4) 1 = false ∧ (launch1 0 0).bad 2 0 = false) ∧
    (hostRing.queue 0).state = .enabled ∧ (hostRing.queue 0).qrd ≠ (hostRing.queue 0).qwr ∧ hostRing.checkpoint.holdsDispatch = false ∧
    hostRing.isRemote (ringAddress (hostRing.queue 0).qbase + 64) = true ∧ hostRing.ringOpen (2 ^ 50 + 64) = true ∧
    hostRing.ringOpen (hostRing.recordAddress 0 0 + 4) = true ∧ hostRing.recordPending (hostRing.recordAddress 0 0) 64 = false ∧
    (hostRing.queue 0).pull = none := by decide +kernel

/-- A configuration that ENABLE accepts; a command under way, and another than it; an unreadable shard; a check that is overdue. -/
theorem wit_QueueControl_enable :
    (let s := withQueue .disabled
     let x := s.queue 0
     (x.weight == 0 || x.cent == 0 || decide (65536 < x.cent.toNat) || decide (x.qsize.toNat < 128) ||
      decide (16777200 < x.qsize.toNat) || decide (x.qsize.toNat ≤ x.qrd.toNat) || decide (x.qsize.toNat ≤ x.qwr.toNat) ||
      s.shards.wfence.getLsbD x.asid || s.mgmt.sfctl.getLsbD 0 || s.trust.lcstate == .scrapped || s.trust.bootst % 4 == 2)) = false := by
  decide +kernel

theorem wit_Commands_run :
    (base .c).wcmdRuns 1 0 = true ∧ ({ base .c with shards := { State.reset.shards with busy := some (2, 7) } }).wcmdRuns 1 0 = false ∧
    (base .c).tcmdRuns 3 255 = true ∧ ({ trusted .deployed with trust := { (trusted .deployed).trust with busy := some (2, 0) } }).tcmdRuns 1 0 = false ∧
    (shard 65536 4 [] []).badFrame ((shard 65536 4 [] []).entryBase 0) ((shard 65536 4 [] []).entryLength 0) = false ∧
    ({ shard 65536 4 [] [] with retiredFrames := [1] }).badFrame 65536 65536 = true := by decide +kernel

theorem wit_CheckpointSteps_records :
    (checkpointing .quiescing false).records = [] ∧ (checkpointHost .copying).routeOpen (checkpointHost .copying).checkpoint.dst.toNat = true := by
  decide +kernel

theorem wit_StepRunsDecoded_power :
    (fetching (.add .plain addOps)).mgmt.powered = true ∧ (fetching (.add .plain addOps)).mgmt.temp % 256 < 105 ∧
    (fetchingAt16 []).mgmt.powered = true ∧ (fetchingAt16 []).hasTurn 0 .c = true ∧ ((fetchingAt16 []).core 0).hasDue .c = false := by
  decide +kernel

theorem wit_PowerManagement_due :
    ({ State.reset with chron := BitVec.ofNat 64 ticksPerMillisecond }).deviceLate = true ∧ State.reset.deviceLate = false := by decide +kernel


/-! ### Decoding: words written out in the manual, and words written out from its bit maps -/

/-- R88's example: `xcopy` record with base g5, off 0, ulog 9, s0 1, s1 8; destination x:64 units; word 1 as the manual gives it. -/
def recExample : RecOps :=
  { recCopy with da := ⟨5, 0, 9, 1, 8, 0, 0⟩, dc := ⟨0, 64, 9, 1, 2, 0, 0⟩, t0 := 2, t1 := 3 }

theorem test_decode_record : decodesTo (encode (.xcopyRecord .plain recExample)) (some (.xcopyRecord .plain recExample)) = true ∧
    bytesNat (((encode (.xcopyRecord .plain recExample)).drop 16).take 16) = 0x0000000080019000000500030002_01DF := by decide +kernel

/-- 05 R105: `add g5, g6, g7`; 05 R113: `b.ltn g8, g9, -4`; 16: `loop g6, -3`. -/
theorem test_decode_scalar :
    decodeTableWord 128 0x00000000000000000000718500000001 = some (.add .plain ⟨5, 6, 7, 0, 0⟩) ∧
    decodeTableWord 128 0x00000000FFFFFFFC0018920000000110 = some (.b .plain ⟨0, 8, 9, 6, 0xFFFFFFFC, 0⟩) ∧
    decodeTableWord 128 0x00000000FFFFFFFD0000000600000410 = some (.loop .plain ⟨6, 0, 0, 0, 0xFFFFFFFD, 0⟩) := by decide +kernel

/-- 05 R110: `amo.add.64.dev.ar g10, [g11 + 8], g12`. -/
theorem test_decode_memory :
    decodeTableWord 128 0x0000000100000008DB00C2CA00000081 = some (.amo .plain ⟨10, 11, 12, 0, 3, 3, 0, 3, 8, 1⟩) := by decide +kernel

/-- 04: `vadd.bf16 v600, v601, v20 rot` in stage 2 of a FIXED region with tokens; 06: `vcvt.e4m3.fp32.rne.sat v40, v8`. -/
theorem test_decode_vector :
    decodeTableWord 128 0x0000000000000B000149665825C50040 =
      some (.vadd ⟨1, 2, 4, 3, 2, 1⟩ ⟨600, 601, 20, 0, 11, 0, 0, 0, 0, 0, 0⟩) ∧
    decodeTableWord 128 0x000000000009C8000000202800000043 = some (.vcvt .plain ⟨40, 8, 0, 0, 8, 12, 1, 1, 0, 0, 0⟩) := by decide +kernel

/-- 07: `mma.bf16.bf16 acc3, x:[g5], x:[g6]`; 13: the MMAC with a pop from C-seq. -/
theorem test_decode_matrix :
    decodeTableWord 128 0x0000000C00BB006140000000000000A0 =
      some (.mma .plain { eng3 0 with vb := 0, ga := 5, gb := 6, gc := 0, ta := 11, tb := 11, tile := 3 }) ∧
    decodeTableWord 128 0x00000003D0DD006140000000000201A0 =
      some (.mmac { Header.plain with tkp := 1 } { eng3 0 with vb := 0, ga := 5, gb := 6, gc := 0, ta := 13, tb := 13, sga := 1, bka := 3, bkb := 3 }) := by
  decide +kernel

/-- 08: `xcopy.dev [g5], x:[g6], g7, res`; 17: the XFILL; 13: `publish x:[g0], res` and `ntake g20, g6 pop:c`. -/
theorem test_decode_engine :
    decodeTableWord 128 0x800900C000001C6140000000000000A8 =
      some (.xcopy .plain { eng3 0x8009 with vb := 0, ga := 5, gb := 6, gc := 7, sco := 3 }) ∧
    decodeTableWord 128 0x8001010000001C6140000000000003A8 =
      some (.xfill .plain { eng3 0x8001 with vb := 0, ga := 5, gb := 6, gc := 7, sco := 4 }) ∧
    decodeTableWord 128 0x800000000000000000000000000000A9 = some (.publish .plain { eng3 0x8000 with vb := 0, ga := 0, gb := 0, gc := 0 }) ∧
    decodeTableWord 128 0x000000000000194000000000000201A9 =
      some (.ntake { Header.plain with tkp := 1 } { eng3 0 with vb := 0, ga := 0, gb := 20, gc := 6 }) := by decide +kernel

/-- 15: the ECHOOSE; 09: `chappend`; 16: the BMPERM and the RKBEGIN. -/
theorem test_decode_serving :
    decodeTableWord 128 0x80020000000C1C6140000000000001AB = some (.echoose .plain { eng3 0x8002 with vb := 0, ga := 5, gb := 6, gc := 7, ta := 12 }) ∧
    decodeTableWord 128 0x8000000000001C6140000000000003B0 = some (.chappend .plain { eng3 0x8000 with vb := 0, ga := 5, gb := 6, gc := 7 }) ∧
    decodeTableWord 128 0x80000000000000B280000000000001B1 = some (.bmperm .plain { eng3 0x8000 with vb := 0, ga := 10, gb := 11, gc := 0 }) ∧
    decodeTableWord 128 0x005400000000780740000000000000B2 = some (.rkbegin .plain { eng3 0x54 with vb := 0, ga := 29, gb := 0, gc := 30 }) := by
  decide +kernel

/-- R86: MAJ 0x00, a reserved MAJ, a continuation word in first place, and a nonzero field that ADD does not name. -/
theorem test_decode_refuses :
    decodeTableWord 128 0 = none ∧ decodeTableWord 128 0xC0 = none ∧ decodeTableWord 128 0xDF = none ∧
    decodeTableWord 128 0x00000000000000000004718500000001 = none := by decide +kernel

/-! ### WellFormed: an ill-formed term for each check, beside one that passes -/

def vecI : VecOps := ⟨8, 8, 8, 0, 6, 0, 0, 0, 0, 0, 0⟩
def engW : EngOps := { eng3 0 with vb := 0 }
def recV : RecOps := { rec3 with ta := 0, tb := 0, tc := 6, ka := 3, kb := 3, kc := 3, da := ⟨0, 0, 9, 0, 0, 0, 0⟩, db := ⟨0, 0, 9, 0, 0, 0, 0⟩, dc := ⟨0, 0, 9, 0, 0, 0, 0⟩ }

theorem test_wellFormed_words :
    [Instr.add .plain addOps, .vadd .plain vecI, .vand .plain vecI, .vcvt .plain { vecI with et := 12, et2 := 11, vb := 0 },
     .vbcast .plain { vecI with va := 0, vb := 0 }, .brp .plain ⟨1, 0, 0, 0, 0, 0x101⟩, .tkwait .plain (tok 3 1), .amo .plain ⟨1, 1, 1, 0, 4, 2, 0, 0, 0, 8⟩,
     .mma .plain { engW with gc := 0, ta := 11, tb := 11 }, .xcopy .plain { engW with imm := 9 },
     .csrr .plain ⟨1, 0, 0xFFF⟩].all (fun i => i.wf) = true := by decide +kernel

theorem test_illFormed_words :
    [Instr.add { Header.plain with spi := 1 } addOps, .add .plain { addOps with cg := 1 }, .add .plain { addOps with cond := 1 },
     .cset .plain { addOps with cond := 10 }, .neg .plain addOps, .b .plain ⟨0, 1, 2, 10, 0, 0⟩, .brq .plain ⟨0, 0, 0, 2, 0, 0⟩,
     .loopp .plain ⟨1, 1, 0, 0, 0, 0⟩, .loopp .plain ⟨1, 1, 0, 0, 0, 17⟩, .brp .plain ⟨1, 0, 0, 0, 0, 1⟩, .brp .plain ⟨1, 0, 0, 0, 0, 0x4101⟩,
     .brp { Header.plain with msrc := 3 } ⟨1, 0, 0, 0, 0, 0x101⟩, .csrr .plain ⟨1, 0, 0x1000⟩, .trap .plain ⟨0, 0, 0x10000⟩, .halt .plain ⟨0, 0, 1⟩,
     .mand .plain ⟨10, 0, 0, 0, 0⟩, .ld .plain { mem3 3 0 with bg := 0, cg := 0, ord := 0, sco := 5, aop := 0 },
     .amo .plain ⟨1, 1, 1, 0, 4, 1, 0, 0, 0, 8⟩, .amo .plain ⟨1, 1, 1, 0, 4, 2, 0, 0, 0, 9⟩, .fence .plain ⟨0, 0, 0, 0, 0, 0, 0, 0, 0, 0⟩,
     .tkwait .plain (tok 3 0), .tkwait .plain { tok 3 1 with off := 64 }, .boqpush .plain { tok 0 0 with off := 0xA0 },
     .barv .plain { tok 0 0 with off := 32 }, .notify .plain { tok 0 0 with off := 5 }].any (fun i => i.wf) = false := by decide +kernel

theorem test_illFormed_vector_words :
    [Instr.vadd .plain { vecI with et := 13 }, .vadd .plain { vecI with imm := 0x8000 }, .vadd .plain { vecI with ga := 1 },
     .vadd .plain { vecI with rmo := 1 }, .vadd .plain { vecI with et := 12, sat := 1 }, .vand .plain { vecI with et := 12 },
     .vabs .plain vecI, .vcmp .plain { vecI with vd := 0, imm := 10 }, .vcvt .plain { vecI with et := 12, et2 := 8, vd := 2, vb := 0 },
     .vcvt .plain { vecI with et := 13, et2 := 14, vb := 0 }, .vcvt .plain { vecI with et := 12, et2 := 11, vb := 0, rmo := 5 },
     .vwiden .plain { vecI with et := 4, et2 := 5, vb := 0 }, .vnarrow .plain { vecI with et := 6, et2 := 4, vb := 0 },
     .vsat .plain { vecI with et := 6, et2 := 4, vb := 0 }, .vclamp .plain { vecI with et := 8 }, .vdot4 .plain { vecI with et2 := 4 },
     .vred .plain { vecI with vb := 0, imm := 3 }, .vscan .plain { vecI with vb := 0, imm := 1, sat := 1 }, .vshuf .plain { vecI with imm := 4 },
     .vbcast .plain { vecI with va := 8, vb := 0 }, .vbcast .plain { vecI with vb := 0, imm := 0x800001 }, .vslide .plain { vecI with imm := 129 },
     .viota .plain { vecI with et := 12, va := 0, vb := 0 }, .vgath .plain { vecI with et := 0, va := 0 }, .vgath .plain { vecI with et := 2, va := 0, vb := 2 },
     .vexp2 .plain { vecI with vb := 0 }, .vmerge3 .plain { vecI with et := 12, vd := 1022 }].any (fun i => i.wf) = false := by decide +kernel

theorem test_illFormed_engine_words :
    [Instr.mma .plain { engW with gc := 0, ta := 11, tb := 10 }, .mma .plain { engW with gc := 0, ta := 11, tb := 11, bka := 1 },
     .mma .plain { engW with gc := 0, ta := 11, tb := 11, tile := 12 }, .mmac .plain { engW with gc := 0, ta := 13, tb := 13, sga := 1, sgb := 1 },
     .xcopy .plain { engW with imm := 8 }, .xcopy .plain { engW with imm := 0x809 }, .xcopy .plain { engW with imm := 9, sco := 5 },
     .xcopy .plain { engW with imm := 6, sco := 1 }, .xfill .plain { engW with imm := 9 }, .accw .plain { engW with gc := 0, imm := 128 },
     .accw .plain { engW with gc := 0, tc := 11, imm := 64 }, .rdywait .plain { engW with ga := 0, gb := 0, gc := 0, imm := 32 },
     .sortk .plain { engW with ta := 8, imm := 2 }, .lattn .plain { engW with ta := 12, imm := 2 }, .lattn .plain { engW with ta := 8, imm := 1 },
     .rcsnap .plain { engW with gb := 0, gc := 0, imm := 3 }, .chnew .plain { engW with vb := 1 },
     .rkbegin .plain { engW with gb := 0, imm := 1 }, .acmp .plain engW].any (fun i => i.wf) = false := by decide +kernel

theorem test_wellFormed_records :
    [Instr.xcopyRecord .plain recCopy, .vectorArithRecord 0 .plain recV].all (fun i => i.wf) = true := by decide +kernel

theorem test_illFormed_records :
    [Instr.xcopyRecord .plain { recCopy with stamp := 1 }, .xcopyRecord .plain { recCopy with db := desc }, .xcopyRecord .plain { recCopy with slot := 2 },
     .xcopyRecord .plain { recCopy with ta := 8 }, .xcopyRecord .plain { recCopy with opx := 0x100 }, .xcopyRecord .plain { recCopy with ext := 8 },
     .xcopyRecord .plain { recCopy with kc := 0 }, .xcopyRecord .plain { recCopy with da := { desc with ulog := 8 } },
     .xgathRecord .plain recCopy, .xscatRecord .plain recCopy, .xfillRecord .plain recCopy, .publishRecord .plain recCopy, .collRecord .plain recCopy,
     .sortkRecord .plain recCopy, .lattnRecord .plain recCopy, .mmaRecord .plain recCopy, .mmacRecord .plain recCopy,
     .vectorArithRecord 9 .plain recV, .vectorArithRecord 0 .plain { recV with kb := 0, db := Descriptor.zero }, .vectorArithRecord 0 .plain { recV with da := ⟨1, 0, 9, 0, 0, 0, 0⟩ },
     .vectorLogicRecord 7 .plain recV, .vectorConvertRecord 4 .plain recV, .vectorDotRecord 3 .plain recV, .vectorMemoryRecord 4 .plain recV,
     .vectorSpecialRecord 0 .plain recV, .vmerge3Record .plain recV].any (fun i => i.wf) = false := by decide +kernel

/-! ### One step -/

/-- A g-register of core 0's sequencer after one instruction. -/
def after (i : Instr) (s : State) (q : SeqId) (n : Nat) : Option Word :=
  match exec i s with
  | .next t => some (((t.core 0).seq q).getG n)
  | _ => none

/-- 05 R104: -2^63 by -1, its remainder, -7 by 2, and a division by 0. -/
theorem test_division :
    after (.div .plain (reg3 0)) (regs .c 0x8000000000000000 (-1) 0 0) .c 3 = some 0x8000000000000000 ∧
    after (.rem .plain (reg3 0)) (regs .c 0x8000000000000000 (-1) 9 0) .c 3 = some 0 ∧
    after (.div .plain (reg3 0)) (regs .c (-7) 2 0 0) .c 3 = some (-3) ∧ after (.rem .plain (reg3 0)) (regs .c (-7) 2 0 0) .c 3 = some (-1) ∧
    after (.divn .plain (reg3 0)) (regs .c 7 0 0 0) .c 3 = some (-1) ∧ after (.remn .plain (reg3 0)) (regs .c 7 0 0 0) .c 3 = some 7 := by decide +kernel

/-- 05 R105: `shr` by 64 gives 0, `sext` of 0x80 at 8; MULH of -1 and 1 is -1, MULHN of all ones by itself 2^64 - 2. -/
theorem test_bits :
    after (.shrImm .plain (imm3 64)) (regs .c (-1) 0 9 0) .c 3 = some 0 ∧
    after (.sextImm .plain (imm3 8)) (regs .c 0x80 0 0 0) .c 3 = some 0xFFFFFFFFFFFFFF80 ∧
    after (.mulh .plain (reg3 0)) (regs .c (-1) 1 0 0) .c 3 = some (-1) ∧
    after (.mulhn .plain (reg3 0)) (regs .c (-1) (-1) 0 0) .c 3 = some 0xFFFFFFFFFFFFFFFE ∧
    after (.cset .plain (reg3 6)) (regs .c 1 (-1) 0 0) .c 3 = some 1 ∧ after (.cset .plain (reg3 2)) (regs .c 1 (-1) 9 0) .c 3 = some 0 ∧
    after (.sel .plain (reg3 0)) (regs .c 5 6 0 0) .c 3 = some 6 ∧ after (.add .plain { reg3 0 with dg := 0 }) (regs .c 5 6 0 0) .c 0 = some 0 := by
  decide +kernel

/-- 06 R155: the table of passes of the loop with T 2 and S 3: g7 after the first BRP, RRB and the predicates. -/
theorem test_brp :
    after (.brp .plain ⟨3, 0, 0, 0, -1, 0x103⟩) (regs .x 0 0 0x200000000 0) .x 3 = some 0x200000001 ∧
    (match exec (.brp .plain ⟨3, 0, 0, 0, -1, 0x103⟩) (regs .x 0 0 0x200000000 0) with
      | .next t => t.me.rrb == 511 && t.mySeq.sg == 3 && t.pc == -16
      | _ => false) = true := by decide +kernel

/-- 02 R30: with RRB 510, v514 designates v512 and v1023 designates v1021; an unrotated name stands for itself. -/
theorem test_rename : rename 1 510 514 = 512 ∧ rename 1 510 1023 = 1021 ∧ rename 0 510 514 = 514 := by decide +kernel

/-- 05 R118 to R121: the object's values at ticks 10, 14, 19 and 25. -/
theorem test_transaction_barrier :
    ((TxBarrier.ofNat' 0x0040000000000000).credit 512).map TxBarrier.toNat' = some 0x004001FFFFFFFE00 ∧
    ((TxBarrier.ofNat' 0x004001FFFFFFFE00).arrive 1024).map TxBarrier.toNat' = some 0x0040040000000200 ∧
    ((TxBarrier.ofNat' 0x0040040000000200).arrive 0).map TxBarrier.toNat' = some 0x0040080000000200 ∧
    ((TxBarrier.ofNat' 0x0040080000000200).credit 512).map TxBarrier.toNat' = some 0x0040020000000000 := by decide +kernel

/-- 08 R192: the notice for 1,024 bytes at x:0x4000 of core 37, tag 0xA1, priority 5, slot 3 and generation 2; 13: TAG 0xB7. -/
theorem test_notice :
    mkNotice 0xA1 1024 5 0 37 (2 * 64 + 3) 0x20 = 0x000000A1000400A09404180000000020#128 ∧
    mkNotice 0xB7 1024 4 0 0 0 8 = 0x000000B7000400800000000000000008#128 := by decide +kernel

/-- 10 R249: issue cycles of stamps 4, 7, 8 and 9 at k = 6 from base cycle 300, and at k = 8 from 400. -/
theorem test_stamps :
    [4, 7, 8, 9].map (fun st => stampCycle 300 st 6) = [303, 306, 306, 307] ∧ [4, 7, 8].map (fun st => stampCycle 400 st 8) = [404, 407, 408] := by
  decide +kernel

/-- 03: worked patterns: 1 + 2^-8 to BF16 ties to even with NX; 0.1 to FP16 is 0x2E66; 448 and 2^-9 in E4M3; -57,344 in E5M2. -/
theorem test_patterns :
    fmtBf16.enc .rne false (fmt32.val 0x3F808000) = (0x3F80, flagNX) ∧ fmt16.enc .rne false (fmt32.val 0x3DCCCCCD) = (0x2E66, flagNX) ∧
    fmtE4m3.enc .rne false (fmt32.val 0x43E00000) = (0x7E, 0) ∧ fmtE4m3.enc .rne false (.fin false 1 (-9)) = (1, 0) ∧
    fmtE5m2.enc .rne false (.fin true 57344 0) = (0xFB, 0) ∧ fmt32.enc .rne false (.fin true 5 (-1)) = (0xC0200000, 0) := by decide +kernel

/-- 06 R150: (3, 2, 6) and (1, 4, 4) merge to (3, 3, 7) exactly. -/
theorem test_merge :
    mergeLane (0x40400000, 0x40000000, 0x40C00000) (0x3F800000, 0x40800000, 0x40800000) = ((0x40400000, 0x40400000, 0x40E00000), 0) := by
  decide +kernel

/-- 06: `vsra.s8` by 9 turns 0x80 into 0xFF and 0x7F into 0. -/
theorem test_vector_shift : (logicLane 6 8 0x80 0 9, logicLane 6 8 0x7F 0 9) = (0xFF, 0x00) := by decide +kernel

/-- R128: TRAP 7 with TVEC 64 enters the handler with the cause of a software trap and 7 in INFO. -/
theorem test_trap :
    (match exec (.trap .plain ⟨0, 0, 7⟩) ((base .c).mapMySeq (fun r => { r with tvec := 64, pc := 32 })) with
      | .next t => t.pc == 64 && t.mySeq.epc == 32 && t.mySeq.inHandler && t.mySeq.ecause == ecauseOf .software false 7 false
      | _ => false) = true := by decide +kernel

/-- R128: ERET goes back to EPC and ends the handler. -/
theorem test_eret :
    (match exec (.eret .plain ⟨0, 0, 0⟩) ((base .c).mapMySeq (fun r => { r with epc := 48, inHandler := true })) with
      | .next t => t.pc == 48 && !t.mySeq.inHandler
      | _ => false) = true := by decide +kernel

/-- R108: a load of -2 as a signed halfword from scratchpad bytes FE FF. -/
theorem test_load_answer :
    after (.loadAnswer 0 7) ((mapped .c 64 0 0).mapMe (fun k => { k with
      spad := [(64, 0xFE), (65, 0xFF)], loads := [{ queued (.load 3 true) .spad with bytes := 2 }] })) .c 3 = some (-2) := by decide +kernel

/-- The first step after reset runs the word placed where it fetches: `li g5, 9` on C-seq. -/
theorem test_first_step :
    (match step (State.reset.withFetchWord 128 0x00000000000000090000000500000103) with
      | .next t => ((t.core 0).seq .c).getG 5 == 9 && ((t.core 0).seq .c).pc == 16
      | _ => false) = true := by decide +kernel

/-- R135, R79: lane 0 wraps modulo 2^32, inactive lane 1 keeps its value. -/
theorem test_vector_add :
    (let s := (((base .x).setV 8 0x5FFFFFFFF (-1)).setV 9 0x300000002 (-1)).setV 7 0x900000001 (-1)
     let t := vArith 0 ⟨0, 0, 1, 0, 0, [], 0, []⟩ { vec3 6 0 with ga := 0 } s
     (elem (t.v 7) 0 32, elem (t.v 7) 1 32)) = (1, 9) := by decide +kernel

end Sys2Proof.Tests
end

/-! SUPPORT. What the functions that the scalar words apply to their operands compute (R63, R103 to R105), in terms of Lean's own
arithmetic on bit vectors, integers and lists. -/

namespace Sys2Proof.Machine
open Sys2Proof Sys2Proof.Safety

/-! ### Quotients (R104) -/

/-- A quotient of naturals is 0 wherever one of their signs is. -/
theorem sign_mul_sign_mul_tdiv (m n : Nat) : (m : Int).sign * (n : Int).sign * (m : Int).tdiv n = (m : Int).tdiv n := by
  rcases m with _ | m
  · simp
  · rcases n with _ | n
    · simp
    · rw [Int.sign_natCast_of_ne_zero m.succ_ne_zero, Int.sign_natCast_of_ne_zero n.succ_ne_zero, one_mul, one_mul]

/-- Truncated division divides the magnitudes and multiplies the signs. -/
theorem divTrunc_eq_sign_mul (x y : Int) : divTrunc x y = x.sign * y.sign * ((x.natAbs / y.natAbs : Nat) : Int) := by
  unfold divTrunc
  obtain ⟨m, hx⟩ := x.eq_nat_or_neg
  obtain ⟨n, hy⟩ := y.eq_nat_or_neg
  have hq := sign_mul_sign_mul_tdiv m n
  rcases hx with rfl | rfl <;> rcases hy with rfl | rfl <;>
    simp only [Int.neg_tdiv, Int.tdiv_neg, Int.sign_neg, Int.natAbs_neg, Int.natAbs_natCast, neg_mul, mul_neg, hq, Int.ofNat_tdiv]

theorem unsignedDiv_eq (a b : Word) : unsignedDiv a b = if b = 0 then BitVec.allOnes 64 else a / b := by
  rw [unsignedDiv, BitVec.udiv_def]

theorem unsignedRem_eq (a b : Word) : unsignedRem a b = if b = 0 then a else a % b := by
  rw [unsignedRem, BitVec.umod_def]

theorem signedDiv_eq (a b : Word) : signedDiv a b =
    if b = 0 then BitVec.allOnes 64
    else BitVec.ofInt 64 (a.toInt.sign * b.toInt.sign * ((a.toInt.natAbs / b.toInt.natAbs : Nat) : Int)) := by
  rw [signedDiv, divTrunc_eq_sign_mul]

theorem signedRem_eq (a b : Word) : signedRem a b =
    if b = 0 then a
    else BitVec.ofInt 64 (a.toInt - b.toInt * (a.toInt.sign * b.toInt.sign * ((a.toInt.natAbs / b.toInt.natAbs : Nat) : Int))) := by
  rw [signedRem, divTrunc_eq_sign_mul]

/-! ### The smaller and the larger of two words (R104) -/

theorem ite_slt_eq_min (a b : Word) : (if b.slt a then b else a) = BitVec.ofInt 64 (min a.toInt b.toInt) := by
  rcases lt_or_ge b.toInt a.toInt with h | h
  · simp [BitVec.slt_eq_decide, h, min_eq_right h.le]
  · simp [BitVec.slt_eq_decide, not_lt.mpr h, min_eq_left h]

theorem ite_slt_eq_max (a b : Word) : (if a.slt b then b else a) = BitVec.ofInt 64 (max a.toInt b.toInt) := by
  rcases lt_or_ge a.toInt b.toInt with h | h
  · simp [BitVec.slt_eq_decide, h, max_eq_right h.le]
  · simp [BitVec.slt_eq_decide, not_lt.mpr h, max_eq_left h]

theorem ite_ult_eq_min (a b : Word) : (if b.ult a then b else a) = BitVec.ofNat 64 (min a.toNat b.toNat) := by
  rcases lt_or_ge b.toNat a.toNat with h | h
  · simp [BitVec.ult_eq_decide, h, min_eq_right h.le]
  · simp [BitVec.ult_eq_decide, not_lt.mpr h, min_eq_left h]

theorem ite_ult_eq_max (a b : Word) : (if a.ult b then b else a) = BitVec.ofNat 64 (max a.toNat b.toNat) := by
  rcases lt_or_ge a.toNat b.toNat with h | h
  · simp [BitVec.ult_eq_decide, h, max_eq_right h.le]
  · simp [BitVec.ult_eq_decide, not_lt.mpr h, max_eq_left h]

/-! ### Shifts and rotation (R63, R105) -/

/-- The signed reading of a pattern's n lowest bits. -/
theorem sext_eq_toInt_setWidth (n : Nat) (a : Word) : sext n a.toNat = (a.setWidth n).toInt := by
  simp [sext, BitVec.toInt, BitVec.toNat_setWidth]

theorem sext_eq_toInt (a : Word) : sext 64 a.toNat = a.toInt := by
  rw [sext_eq_toInt_setWidth, BitVec.setWidth_eq]

/-- A wrapped integer is the pattern of the integer. -/
theorem ofNat_wrapInt (n : Nat) (v : Int) : BitVec.ofNat n (wrapInt n v) = BitVec.ofInt n v := by
  apply BitVec.eq_of_toNat_eq
  have h : (v % (2 ^ n : Nat)).toNat < 2 ^ n := by
    have := Int.emod_lt_of_pos v (b := (2 ^ n : Nat)) (by positivity)
    have := Int.emod_nonneg v (b := (2 ^ n : Nat)) (by positivity)
    omega
  rw [BitVec.toNat_ofNat, BitVec.toNat_ofInt, wrapInt, Nat.mod_eq_of_lt h]

theorem shl64_eq (a b : Word) : shl64 a b = if 64 ≤ b.toNat then 0 else a <<< b.toNat := by
  unfold shl64 shlNat
  split
  · rfl
  · apply BitVec.eq_of_toNat_eq
    simp [Nat.shiftLeft_eq]

theorem shr64_eq (a b : Word) : shr64 a b = if 64 ≤ b.toNat then 0 else a >>> b.toNat := by
  unfold shr64 shrNat
  split
  · rfl
  · apply BitVec.eq_of_toNat_eq
    have h : a.toNat / 2 ^ b.toNat < 2 ^ 64 := (Nat.div_le_self _ _).trans_lt a.isLt
    rw [Nat.mod_eq_of_lt a.isLt, BitVec.toNat_ofNat, Nat.mod_eq_of_lt h, BitVec.toNat_ushiftRight, Nat.shiftRight_eq_div_pow]

theorem sra64_eq (a b : Word) : sra64 a b = if 64 ≤ b.toNat then a.sshiftRight 63 else a.sshiftRight b.toNat := by
  unfold sra64 sraNat
  rw [ofNat_wrapInt, sext_eq_toInt, ← Int.shiftRight_eq_div_pow]
  split <;> rfl

/-- The bits that a rotation moves up and those that it brings round do not overlap. -/
theorem rol64_eq (a b : Word) : rol64 a b = a.rotateLeft (b.toNat % 64) := by
  have hn : b.toNat % 64 < 64 := Nat.mod_lt _ (by norm_num)
  unfold rol64
  dsimp only
  generalize b.toNat % 64 = n at hn ⊢
  have low : a.toNat / 2 ^ (64 - n) < 2 ^ n := by
    rw [Nat.div_lt_iff_lt_mul (by positivity), ← Nat.pow_add, Nat.add_sub_cancel' hn.le]
    exact a.isLt
  apply BitVec.eq_of_toNat_eq
  rw [BitVec.rotateLeft_def, Nat.mod_eq_of_lt hn, ← Nat.shiftLeft_eq, Nat.shiftLeft_add_eq_or_of_lt low, BitVec.toNat_ofNat,
    BitVec.toNat_or, BitVec.toNat_shiftLeft, BitVec.toNat_ushiftRight, Nat.shiftRight_eq_div_pow, Nat.or_mod_two_pow,
    Nat.mod_eq_of_lt ((Nat.div_le_self _ _).trans_lt a.isLt)]

/-! ### Counting bits (R105) -/

/-- The bits that hold at the start of a range, counted from its first number on. -/
theorem length_takeWhile_range_succ (p : Nat → Bool) (n : Nat) : ((List.range (n + 1)).takeWhile p).length =
    if p 0 then ((List.range n).takeWhile (fun i => p (i + 1))).length + 1 else 0 := by
  rw [List.range_succ_eq_map, List.takeWhile_cons]
  split
  · rw [List.takeWhile_map, List.length_cons, List.length_map]
    rfl
  · rfl

theorem leadingZeros_eq (a : Word) (n : Nat) :
    leadingZeros a n = ((List.range n).takeWhile (fun i => !a.getLsbD (n - 1 - i))).length := by
  induction n with
  | zero => rfl
  | succ n ih =>
    rw [leadingZeros, ih, length_takeWhile_range_succ]
    cases h : a.getLsbD n
    · simp [h, Nat.sub_sub, Nat.add_comm]
    · simp [h]

theorem trailingZeros_eq (a : Word) (n : Nat) (hn : n ≤ 64) :
    trailingZeros a n = ((List.range n).takeWhile (fun i => !a.getLsbD (64 - n + i))).length := by
  induction n with
  | zero => rfl
  | succ n ih =>
    have e : ∀ i, 63 - n + (i + 1) = 64 - n + i := by omega
    rw [trailingZeros, ih (by omega), length_takeWhile_range_succ, show 64 - (n + 1) = 63 - n by omega]
    cases a.getLsbD (63 - n) <;> simp [e]

theorem trailingZeros_word_eq (a : Word) : trailingZeros a 64 = ((List.range 64).takeWhile (fun i => !a.getLsbD i)).length := by
  simp only [trailingZeros_eq a 64 le_rfl, Nat.sub_self, Nat.zero_add]

theorem onesNat_eq (x n : Nat) : onesNat x n = ((List.range n).filter (fun i => x.testBit i)).length := by
  induction n generalizing x with
  | zero => rfl
  | succ n ih =>
    rw [onesNat, ih, List.range_succ_eq_map, List.filter_cons, List.filter_map]
    rcases Nat.mod_two_eq_zero_or_one x with h | h
    · simp [h, Function.comp_def, Nat.testBit_succ]
    · simp [h, Function.comp_def, Nat.testBit_succ, Nat.add_comm]

/-! ### Extension (R105) -/

theorem sextWord_eq (a b : Word) : sextWord a b =
    if b.toNat = 0 then 0 else if 64 ≤ b.toNat then a else (a.setWidth b.toNat).signExtend 64 := by
  unfold sextWord
  dsimp only
  rw [sext_eq_toInt_setWidth]
  rfl

theorem zextWord_eq (a b : Word) : zextWord a b =
    if b.toNat = 0 then 0 else if 64 ≤ b.toNat then a else (a.setWidth b.toNat).setWidth 64 := by
  unfold zextWord
  dsimp only
  rw [← BitVec.toNat_setWidth, BitVec.ofNat_toNat]

/-! ### Conditions (R103) -/

/-- A COND field holds for a pair as the table of R103 gives. -/
def CondTable (c : Nat) (a b : Word) : Prop :=
  match c with
  | 0 => a = b
  | 1 => a ≠ b
  | 2 => a.toInt < b.toInt
  | 3 => a.toInt ≥ b.toInt
  | 4 => a.toInt ≤ b.toInt
  | 5 => a.toInt > b.toInt
  | 6 => a.toNat < b.toNat
  | 7 => a.toNat ≥ b.toNat
  | 8 => a.toNat ≤ b.toNat
  | 9 => a.toNat > b.toNat
  | _ => False

theorem condHolds_iff (c : Nat) (a b : Word) : condHolds c a b = true ↔ CondTable c a b := by
  unfold condHolds CondTable
  split <;> simp [BitVec.slt_eq_decide, BitVec.ult_eq_decide]

end Sys2Proof.Machine

/-! SUPPORT. How a scalar word over registers ends, and what the bookkeeping of its issue and the writing of its result leave of the
sticky flags (R45, R104, R105). -/

namespace Sys2Proof.Machine
open Sys2Proof Sys2Proof.Safety

/-! ### Words of two sources and a destination -/

/-- No check of issue looks at the latency. -/
theorem gate_lat (p : Issue) (n : Nat) (h : Header) (s : State) : gate { p with lat := n } h s = gate p h s := rfl

/-- A scalar word that every slot may carry out and that passes the checks writes its result and goes on. -/
theorem issueWord_wrote (p : Issue) (h : Header) (body : State → Eff) (s : State) (d : BitVec 6) (v : Word) (hp : p.noSpec = false)
    (g : gate p h s = .go) (hb : body s = .done (s.setG d v) s.pc16) : issueWord p h body s = wrote p h s d v :=
  issueWord_done p h body s _ _ g (by simp [hp]) hb

/-- A REG word that passes the checks writes its function's value of G(AG) and G(BG). -/
theorem exec_regWord_wrote {i : Instr} {h : Header} {o : RegOps} {lat : Nat} {f : Word → Word → Word} {s : State} {v : Word}
    (hi : exec i s = regWord h o lat f s) (g : gate (Issue.scalar [o.ag, o.bg] [o.dg]) h s = .go) (hv : f (s.g o.ag) (s.g o.bg) = v) :
    exec i s = wrote { Issue.scalar [o.ag, o.bg] [o.dg] with lat := lat } h s o.dg v :=
  hi.trans (issueWord_wrote _ h _ s o.dg v rfl ((gate_lat _ lat h s).trans g) (by rw [hv]))

/-- The operands that a well-formed word of R104 leaves zero. -/
theorem cond_cg_zero_of_wf (h : Header) (o : RegOps) (w : (h.wf && o.cg == 0 && o.cond == 0) = true) : o.cond = 0 ∧ o.cg = 0 := by
  simp only [Bool.and_eq_true, beq_iff_eq] at w
  exact ⟨w.2, w.1.2⟩

/-! ### The sticky flags -/

/-- A fold whose steps keep the flags keeps them. -/
theorem Core.foldl_fflags {α : Type} (f : Core → α → Core) (hf : ∀ k x, (f k x).fflags = k.fflags) (l : List α) (k : Core) :
    (l.foldl f k).fflags = k.fflags := by
  induction l generalizing k with
  | nil => rfl
  | cons x l ih => rw [List.foldl_cons, ih, hf]

@[simp] theorem Core.popTokens_fflags (k : Core) (now q n : Nat) : (k.popTokens now q n).fflags = k.fflags := rfl
@[simp] theorem Core.pushTokens_fflags (k : Core) (q n : Nat) (t : Token) : (k.pushTokens q n t).fflags = k.fflags := rfl
@[simp] theorem Core.reserve_fflags (k : Core) (q : Nat) : (k.reserve q).fflags = k.fflags := rfl

@[simp] theorem Core.inherit_fflags (k : Core) (q : SeqId) (ids : List Nat) : (k.inherit q ids).fflags = k.fflags :=
  Core.mapSeq_fflags k q _

@[simp] theorem Core.takeTokens_fflags (k : Core) (q : SeqId) (now : Nat) (pops : List (Nat × Nat)) :
    (k.takeTokens q now pops).fflags = k.fflags := by
  rw [Core.takeTokens, Core.foldl_fflags _ (fun k (c : Nat × Nat) => k.popTokens_fflags now c.1 c.2), Core.inherit_fflags]

@[simp] theorem Core.resumeCopies_fflags (k : Core) (q : SeqId) : (k.resumeCopies q).fflags = k.fflags := by
  unfold Core.resumeCopies
  split
  · rfl
  · split
    · rfl
    · split <;> rfl

@[simp] theorem State.mapMySeq_me_fflags (s : State) (f : Sequencer → Sequencer) : (s.mapMySeq f).me.fflags = s.me.fflags := by
  rw [State.mapMySeq, State.me_mapMe, Core.mapSeq_fflags]

@[simp] theorem State.setG_me_fflags (s : State) (d : BitVec 6) (v : Word) : (s.setG d v).me.fflags = s.me.fflags := by
  unfold State.setG
  split
  · exact s.mapMySeq_me_fflags _
  · split
    · rfl
    · rw [State.me_mapMe, Core.setSlot_fflags]

@[simp] theorem State.squash_me_fflags (s : State) : s.squash.me.fflags = s.me.fflags := by
  rw [State.squash, State.me_mapMe, Core.squash]

@[simp] theorem State.account_me_fflags (s : State) (p : Issue) (h : Header) : (s.account p h).me.fflags = s.me.fflags := by
  unfold State.account
  rw [State.me_mapMe, Core.mapSeq_fflags]
  split
  · rw [Core.foldl_fflags _ Core.reserve_fflags, Core.takeTokens_fflags]
  · rw [Core.foldl_fflags _ (fun k c => by split <;> simp), Core.takeTokens_fflags]

@[simp] theorem State.goOn_me_fflags (s : State) (n : Word) (taken : Bool) : (s.goOn n taken).me.fflags = s.me.fflags :=
  s.mapMySeq_me_fflags _

/-- Retiring a copy raises and clears no flag. -/
@[simp] theorem State.retire_me_fflags (s : State) (p : Issue) (h : Header) (n : Word) (taken : Bool) :
    (s.retire p h n taken).me.fflags = s.me.fflags := by
  unfold State.retire
  by_cases hr : s.inRound p.once = true <;> by_cases hs : s.cur.slot = 0
  · simp only [hr, hs, if_true]
    split <;> simp
  · simp only [hr, hs, if_true, if_false]
    by_cases hn : n = s.me.round.target0
    · simp only [hn, if_true]
      split <;> simp
    · simp only [hn, if_false]
      split <;> simp
  · simp [hr, hs]
  · simp [hr, hs]

/-- A word that writes a g-register and nothing else leaves FFLAGS as they are. -/
theorem wrote_fflags (p : Issue) (h : Header) (s : State) (d : BitVec 6) (v : Word) (t : State) (ht : wrote p h s d v = .next t) :
    t.me.fflags = s.me.fflags := by
  cases ht
  rw [State.retire_me_fflags, State.setG_me_fflags]

end Sys2Proof.Machine

/-! SUPPORT. The scalar words of R103 to R106: their results, their encodings, and that they raise no flag. -/

namespace Sys2Proof.Machine
open Sys2Proof Sys2Proof.Safety

/-! ### Conditional set and select -/

/-- CSET writes the condition's value, 1 or 0. -/
theorem execCset_wrote (h : Header) (o : RegOps) (s : State) (g : gate (Issue.scalar [o.ag, o.bg] [o.dg]) h s = .go) :
    exec (.cset h o) s =
      wrote (Issue.scalar [o.ag, o.bg] [o.dg]) h s o.dg (if condHolds o.cond.toNat (s.g o.ag) (s.g o.bg) then 1 else 0) :=
  exec_regWord_wrote (exec_cset h o s) g rfl

/-- SEL writes G(AG) where G(CG) is not zero, and else G(BG). -/
theorem execSel_wrote (h : Header) (o : RegOps) (s : State) (g : gate (Issue.scalar [o.ag, o.bg, o.cg] [o.dg]) h s = .go) :
    exec (.sel h o) s =
      wrote (Issue.scalar [o.ag, o.bg, o.cg] [o.dg]) h s o.dg (if s.g o.cg = 0 then s.g o.bg else s.g o.ag) :=
  (exec_sel h o s).trans (issueWord_wrote _ h _ s o.dg _ rfl g (by simp only [ne_eq, ite_not]))

/-- Settles O3: CSET's value follows the table of R103 by `condHolds_iff`, and SEL's is the one of its two sources that G(CG) selects. -/
theorem conditionWords : Obligations.ConditionWords := by
  unfold Obligations.ConditionWords
  intro h o s a b holds
  have table : condHolds o.cond.toNat a b = true ↔ holds := condHolds_iff o.cond.toNat a b
  refine ⟨fun g => ⟨fun hc => ?_, fun hc => ?_⟩, execSel_wrote h o s⟩
  · rw [execCset_wrote h o s g, if_pos (table.mpr hc)]
  · rw [execCset_wrote h o s g, if_neg (mt table.mp hc)]

/-! ### Arithmetic, logic and bits -/

/-- Settles O1: each word is a REG word (`regWord_wrote`) whose function is the table's (R104, R105); the encodings are the opcode map's
and the operand rules', and writing a g-register leaves FFLAGS (`wrote_fflags`). -/
theorem arithmeticAndLogicWords : Obligations.ArithmeticAndLogicWords := by
  unfold Obligations.ArithmeticAndLogicWords
  refine ⟨⟨fun h o s g => ?_, fun h o => ?_, wrote_fflags⟩, fun h o s g => ?_⟩
  · exact
      ⟨exec_regWord_wrote (exec_add h o s) g rfl,
       exec_regWord_wrote (exec_sub h o s) g rfl,
       exec_regWord_wrote (exec_mul h o s) g rfl,
       exec_regWord_wrote (exec_mulh h o s) g rfl,
       exec_regWord_wrote (exec_mulhn h o s) g rfl,
       exec_regWord_wrote (exec_div h o s) g (signedDiv_eq _ _),
       exec_regWord_wrote (exec_divn h o s) g (unsignedDiv_eq _ _),
       exec_regWord_wrote (exec_rem h o s) g (signedRem_eq _ _),
       exec_regWord_wrote (exec_remn h o s) g (unsignedRem_eq _ _),
       exec_regWord_wrote (exec_neg h o s) g rfl,
       exec_regWord_wrote (exec_min h o s) g (ite_slt_eq_min _ _),
       exec_regWord_wrote (exec_max h o s) g (ite_slt_eq_max _ _),
       exec_regWord_wrote (exec_minn h o s) g (ite_ult_eq_min _ _),
       exec_regWord_wrote (exec_maxn h o s) g (ite_ult_eq_max _ _)⟩
  · have zero := cond_cg_zero_of_wf h o
    refine ⟨rfl, zero, rfl, zero, rfl, zero, rfl, zero, rfl, zero, rfl, zero, rfl, zero, rfl, zero, rfl, zero, rfl, fun w => ?_,
      rfl, zero, rfl, zero, rfl, zero, rfl, zero⟩
    obtain ⟨w', hb⟩ := Bool.and_eq_true_iff.mp w
    obtain ⟨hcond, hcg⟩ := zero w'
    exact ⟨hcond, hcg, eq_of_beq hb⟩
  · exact
      ⟨exec_regWord_wrote (exec_and h o s) g rfl,
       exec_regWord_wrote (exec_or h o s) g rfl,
       exec_regWord_wrote (exec_xor h o s) g rfl,
       exec_regWord_wrote (exec_andn h o s) g rfl,
       exec_regWord_wrote (exec_not h o s) g rfl,
       exec_regWord_wrote (exec_shl h o s) g (shl64_eq _ _),
       exec_regWord_wrote (exec_shr h o s) g (shr64_eq _ _),
       exec_regWord_wrote (exec_sra h o s) g (sra64_eq _ _),
       exec_regWord_wrote (exec_rol h o s) g (rol64_eq _ _),
       exec_regWord_wrote (exec_clz h o s) g (congrArg _ (leadingZeros_eq _ 64)),
       exec_regWord_wrote (exec_ctz h o s) g (congrArg _ (trailingZeros_word_eq _)),
       exec_regWord_wrote (exec_popc h o s) g (congrArg _ (onesNat_eq _ 64)),
       exec_regWord_wrote (exec_sext h o s) g (sextWord_eq _ _),
       exec_regWord_wrote (exec_zext h o s) g (zextWord_eq _ _)⟩

end Sys2Proof.Machine

/-! SUPPORT. Transaction barriers: what each of TBINIT, TBARV and TBWAIT comes to in slot 0, check by check (R118 to R121). -/

namespace Sys2Proof.Machine
open Sys2Proof Sys2Proof.Safety

/-! ### Where a barrier may lie (R119) -/

theorem Core.barrierFault_of_misaligned (k : Core) (ea : Nat) (ha : ea % 8 ≠ 0) : k.barrierFault ea = some (.spad .alignment ea 3) :=
  if_pos ha

/-- Range is checked once alignment holds. -/
theorem Core.barrierFault_of_past_end (k : Core) (ea : Nat) (ha : ea % 8 = 0) (hr : ¬ea + 8 ≤ k.spadBytes) :
    k.barrierFault ea = some (.spad .scratchRange ea 3) := by
  simp [Core.barrierFault, Core.inSpad, ha, Nat.lt_of_not_le hr]

/-! ### The words -/

section
variable (h : Header) (o : MemOps) (s : State) (slot0 : s.cur.slot = 0)

/-- Issue of a word of C-seq on a transaction barrier, which no other slot of a round carries out (R118, R130). -/
def barrierIssue (srcs dsts : List (BitVec 6)) : Issue := { Issue.scalar srcs dsts with who := [.c], noSpec := true }

include slot0

/-- A barrier word that passes the checks of issue and meets a precise cause takes its trap. -/
theorem issueWord_trapped (p : Issue) (body : State → Eff) (i : FaultInfo) (g : gate p h s = .go) (hb : body s = .trap i) :
    issueWord p h body s = .next (s.trapCopy p h i) :=
  issueWord_trap p h body s i g (by simp [slot0]) hb

/-- TBINIT on a place that R119 refuses takes that place's fault, whatever its count. -/
theorem execTbinit_badPlace (g : gate (barrierIssue [o.ag, o.bg] []) h s = .go) (i : FaultInfo)
    (hf : s.me.barrierFault (s.ea o.ag o.off).toNat = some i) :
    exec (.tbinit h o) s = .next (s.trapCopy (barrierIssue [o.ag, o.bg] []) h i) :=
  (exec_tbinit h o s).trans (issueWord_trapped h s slot0 _ _ i g (by simp only [hf]))

/-- TBINIT of a count outside 1 to 2,047 is an illegal operand. -/
theorem execTbinit_badCount (g : gate (barrierIssue [o.ag, o.bg] []) h s = .go)
    (hf : s.me.barrierFault (s.ea o.ag o.off).toNat = none) (hn : (s.g o.bg).toNat = 0 ∨ 2047 < (s.g o.bg).toNat) :
    exec (.tbinit h o) s = .next (s.trapCopy (barrierIssue [o.ag, o.bg] []) h (.bare .illegalOperand)) :=
  (exec_tbinit h o s).trans (issueWord_trapped h s slot0 _ _ _ g (by simp only [hf, hn, if_true]))

/-- TBINIT writes a fresh barrier once its bytes are free. -/
theorem execTbinit_went (g : gate (barrierIssue [o.ag, o.bg] []) h s = .go) (free : s.cBusy = false)
    (hf : s.me.barrierFault (s.ea o.ag o.off).toNat = none) (hn : ¬((s.g o.bg).toNat = 0 ∨ 2047 < (s.g o.bg).toNat))
    (hh : s.me.held s.cycle .spad (s.ea o.ag o.off).toNat 8 true = false) :
    exec (.tbinit h o) s = went (barrierIssue [o.ag, o.bg] []) h
      (s.mapMe (fun k => k.setBarrier (s.ea o.ag o.off).toNat ⟨(s.g o.bg).toNat, 0, 0, 0⟩)) (s.pc + 16) :=
  (exec_tbinit h o s).trans (issueWord_went _ h _ s _ _ g slot0 (by
    simp only [hf, hn, free, hh, Bool.or_self, Bool.false_eq_true, if_false, State.pc16]))

/-- TBARV arrives at a barrier of its cluster and reads the phase that stood there before. -/
theorem execTbarv_went (g : gate (barrierIssue [o.ag, o.bg, o.cg] [o.dg]) h s = .go) (free : s.cBusy = false)
    (hcore : (s.g o.bg).toNat < 512) (hcluster : clusterOf (s.g o.bg).toNat = clusterOf s.cur.core)
    (hfence : s.coreFenced (s.g o.bg).toNat = false)
    (hf : (s.core (s.g o.bg).toNat).barrierFault (s.ea o.ag o.off).toNat = none) (b : TxBarrier)
    (hb : ((s.core (s.g o.bg).toNat).barrier (s.ea o.ag o.off).toNat).arrive (s.g o.cg).toNat = some b) :
    exec (.tbarv h o) s = went (barrierIssue [o.ag, o.bg, o.cg] [o.dg]) h
      (((s.releaseCaches s.cur.core .cluster).mapCore (s.g o.bg).toNat (fun k => k.setBarrier (s.ea o.ag o.off).toNat b)).setG o.dg
        (BitVec.ofNat 64 ((s.core (s.g o.bg).toNat).barrier (s.ea o.ag o.off).toNat).ph)) (s.pc + 16) := by
  have here : ¬(512 ≤ (s.g o.bg).toNat ∨ clusterOf (s.g o.bg).toNat ≠ clusterOf s.cur.core) := by
    simp only [hcluster, ne_eq, not_true_eq_false, or_false, not_le, hcore]
  exact (exec_tbarv h o s).trans (issueWord_went _ h _ s _ _ g slot0 (by
    simp only [here, hfence, hf, free, hb, Bool.false_eq_true, if_false, State.pc16]))

/-- TBWAIT goes on, with an acquire at cluster scope, once the phase is not the one it was given. -/
theorem execTbwait_went (g : gate (barrierIssue [o.ag, o.bg] []) h s = .go) (free : s.cBusy = false)
    (hf : s.me.barrierFault (s.ea o.ag o.off).toNat = none)
    (hph : (s.me.barrier (s.ea o.ag o.off).toNat).ph ≠ (s.g o.bg).toNat % 2) :
    exec (.tbwait h o) s = went (barrierIssue [o.ag, o.bg] []) h
      ((s.acquireCaches s.cur.core .cluster).mapMe (fun k => k.inherit .c k.doneWrites)) (s.pc + 16) :=
  (exec_tbwait h o s).trans (issueWord_went _ h _ s _ _ g slot0 (by
    simp only [hf, free, bne_iff_ne.mpr hph, Bool.not_false, Bool.and_self, if_true, State.pc16]))

end

/-- Settles O23: TBINIT's outcomes in the order of its checks (`execTbinit_badPlace`, `execTbinit_badCount`, `execTbinit_went`), then
TBARV's arrival and TBWAIT's going on. -/
theorem transactionBarrierWords : Obligations.TransactionBarrierWords := by
  unfold Obligations.TransactionBarrierWords
  intro h o s slot0 free ea pi pa target
  refine ⟨rfl, fun g ha => ?misaligned, fun g ha hr => ?pastEnd, fun g hf hn => ?badCount, fun g hf h1 h2 hh => ?init,
    fun b g hcore hcluster hfence hf hb => ?arrive, fun g hf hph => ?wait⟩
  case misaligned => exact execTbinit_badPlace h o s slot0 g _ (s.me.barrierFault_of_misaligned ea ha)
  case pastEnd => exact execTbinit_badPlace h o s slot0 g _ (s.me.barrierFault_of_past_end ea ha hr)
  case badCount => exact execTbinit_badCount h o s slot0 g hf hn
  case init => exact execTbinit_went h o s slot0 g free hf (by omega) hh
  case arrive => exact execTbarv_went h o s slot0 g free hcore hcluster hfence hf b hb
  case wait => exact execTbwait_went h o s slot0 g free hf hph

end Sys2Proof.Machine

/-! SUPPORT. Encoding and decoding a whole instruction: records, the six word formats together, and the bytes (R73, R88). -/

namespace Sys2Proof
open Sys2Proof.Laws

/-! ### Records (R88) -/

theorem pack_lt_two_pow (l : List (Nat × Nat)) (n : Nat) (hn : (l.map Prod.fst).sum = n) : pack l < 2 ^ n := hn ▸ pack_lt l

/-- A continuation word with its marks reads back its fields. -/
theorem continuation_pack (k : Nat) (l : List (Nat × Nat)) (hk : k < 4) :
    continuation k (l.map Prod.fst) (pack ((8, 0xDF) :: (2, k) :: (6, 0) :: l)) = .ok (l.map (fun f => f.2 % 2 ^ f.1)) := by
  have h := unpack_pack ((8, 0xDF) :: (2, k) :: (6, 0) :: l)
  simp only [List.map_cons] at h
  simp only [continuation, h, Nat.zero_mod, Nat.reducePow, Nat.reduceMod, Nat.mod_eq_of_lt hk]
  simp

theorem RecOps.continuation_packWord1 (r : RecOps) :
    continuation 1 [16, 16, 80] r.packWord1 = .ok [r.t0.toNat % 2 ^ 16, r.t1.toNat % 2 ^ 16, r.da.pack % 2 ^ 80] :=
  continuation_pack 1 [(16, r.t0.toNat), (16, r.t1.toNat), (80, r.da.pack)] (by decide)

theorem RecOps.continuation_packWord2 (r : RecOps) :
    continuation 2 [16, 16, 80] r.packWord2 = .ok [r.t2.toNat % 2 ^ 16, r.t3.toNat % 2 ^ 16, r.db.pack % 2 ^ 80] :=
  continuation_pack 2 [(16, r.t2.toNat), (16, r.t3.toNat), (80, r.db.pack)] (by decide)

theorem RecOps.continuation_packWord3 (r : RecOps) :
    continuation 3 [80, 32] r.packWord3 = .ok [r.dc.pack % 2 ^ 80, r.ext.toNat % 2 ^ 32] :=
  continuation_pack 3 [(80, r.dc.pack), (32, r.ext.toNat)] (by decide)

theorem RecOps.unpack_packWord0 (r : RecOps) :
    Sys2Proof.unpack [3, 1, 4, 4, 4, 2, 2, 2, 3, 1, 1, 2, 2, 1, 32, 6, 26] r.packWord0 =
      [0, r.fts.toNat % 2 ^ 1, r.ta.toNat % 2 ^ 4, r.tb.toNat % 2 ^ 4, r.tc.toNat % 2 ^ 4, r.ka.toNat % 2 ^ 2, r.kb.toNat % 2 ^ 2,
        r.kc.toNat % 2 ^ 2, r.slot.toNat % 2 ^ 3, r.sga.toNat % 2 ^ 1, r.sgb.toNat % 2 ^ 1, r.bka.toNat % 2 ^ 2, r.bkb.toNat % 2 ^ 2,
        0, r.stamp.toNat % 2 ^ 32, r.xg.toNat % 2 ^ 6, r.opx.toNat % 2 ^ 26] :=
  Sys2Proof.unpack_pack [(3, 0), (1, r.fts.toNat), (4, r.ta.toNat), (4, r.tb.toNat), (4, r.tc.toNat), (2, r.ka.toNat), (2, r.kb.toNat),
    (2, r.kc.toNat), (3, r.slot.toNat), (1, r.sga.toNat), (1, r.sgb.toNat), (2, r.bka.toNat), (2, r.bkb.toNat), (1, 0),
    (32, r.stamp.toNat), (6, r.xg.toNat), (26, r.opx.toNat)]

theorem RecOps.packWord0_lt (r : RecOps) : r.packWord0 < 2 ^ 96 := pack_lt_two_pow _ _ (by simp)

theorem RecOps.packWord1_lt (r : RecOps) : r.packWord1 < 2 ^ 128 := pack_lt_two_pow _ _ (by simp)

theorem RecOps.packWord2_lt (r : RecOps) : r.packWord2 < 2 ^ 128 := pack_lt_two_pow _ _ (by simp)

theorem RecOps.packWord3_lt (r : RecOps) : r.packWord3 < 2 ^ 128 := pack_lt_two_pow _ _ (by simp)

theorem RecOps.unpack_pack (r : RecOps) : RecOps.unpack r.pack = .ok r := by
  have words := Sys2Proof.unpack_pack [(96, r.packWord0), (128, r.packWord1), (128, r.packWord2), (128, r.packWord3)]
  simp only [List.map_cons, List.map_nil, Nat.mod_eq_of_lt r.packWord0_lt, Nat.mod_eq_of_lt r.packWord1_lt,
    Nat.mod_eq_of_lt r.packWord2_lt, Nat.mod_eq_of_lt r.packWord3_lt] at words
  simp only [RecOps.unpack, RecOps.pack, words, r.continuation_packWord1, r.continuation_packWord2, r.continuation_packWord3,
    r.unpack_packWord0, Nat.mod_eq_of_lt (Descriptor.pack_lt _), Descriptor.unpack_pack, ofNat_back, ne_eq, not_true_eq_false, or_self,
    if_false]

/-! ### Operands of every format -/

/-- Bytes of an encoding with these operands (R73). -/
def Operands.size : Operands → Nat
  | .record _ => 64
  | _ => 16

theorem Operands.unpack_pack (o : Operands) : Operands.unpack (formatOfOperands o) o.pack = .ok o := by
  cases o <;> simp [Operands.unpack, formatOfOperands, Operands.pack, RecOps.unpack_pack]

theorem Operands.pack_lt (o : Operands) : o.pack < 2 ^ (8 * o.size - 32) := by
  cases o with
  | reg o => exact pack_lt_two_pow _ _ (by simp [Operands.size])
  | imm o => exact pack_lt_two_pow _ _ (by simp [Operands.size])
  | jmp o => exact pack_lt_two_pow _ _ (by simp [Operands.size])
  | mem o => exact pack_lt_two_pow _ _ (by simp [Operands.size])
  | vec o => exact pack_lt_two_pow _ _ (by simp [Operands.size])
  | eng o => exact pack_lt_two_pow _ _ (by simp [Operands.size])
  | record r => exact pack_lt_two_pow _ _ (by simp [Operands.size])

/-- The MAJs of the records are those of format RECORD (R90). -/
theorem isRecordMaj_eq (maj : Nat) (f : Format) (hf : formatOf maj = some f) : isRecordMaj maj = decide (f = .record) := by
  by_cases h : 0xF0 ≤ maj ∧ maj ≤ 0xFB
  · simp only [formatOf, h, and_self, if_true, Option.some.injEq] at hf
    simp [isRecordMaj, h, ← hf]
  · have other : f ≠ .record := by
      rintro rfl
      simp only [formatOf, h, if_false] at hf
      repeat' split at hf
      all_goals cases hf
    simpa [isRecordMaj, other] using h

theorem decide_formatOfOperands_record (o : Operands) : (if decide (formatOfOperands o = .record) then 64 else 16) = o.size := by
  cases o <;> rfl

/-! ### Words and records as numbers and as bytes -/

/-- The opcode map and its inverse agree on every instruction. -/
theorem Instr.partsBack (i : Instr) : PartsBack.Statement i := by
  cases i
  exacts [
    PartsBack.add .., PartsBack.sub .., PartsBack.mul .., PartsBack.mulh .., PartsBack.mulhn .., PartsBack.div .., PartsBack.divn ..,
    PartsBack.rem .., PartsBack.remn .., PartsBack.neg .., PartsBack.min .., PartsBack.max .., PartsBack.minn .., PartsBack.maxn ..,
    PartsBack.and .., PartsBack.or .., PartsBack.xor .., PartsBack.andn .., PartsBack.not .., PartsBack.shl .., PartsBack.shr ..,
    PartsBack.sra .., PartsBack.rol .., PartsBack.clz .., PartsBack.ctz .., PartsBack.popc .., PartsBack.sext .., PartsBack.zext ..,
    PartsBack.andImm .., PartsBack.orImm .., PartsBack.xorImm .., PartsBack.andnImm .., PartsBack.shlImm .., PartsBack.shrImm ..,
    PartsBack.sraImm .., PartsBack.rolImm .., PartsBack.sextImm .., PartsBack.zextImm .., PartsBack.addi .., PartsBack.li ..,
    PartsBack.lea .., PartsBack.cset .., PartsBack.sel .., PartsBack.j .., PartsBack.b .., PartsBack.brq .., PartsBack.call ..,
    PartsBack.loop .., PartsBack.jr .., PartsBack.callr .., PartsBack.ret .., PartsBack.msave .., PartsBack.mrest .., PartsBack.mand ..,
    PartsBack.mor .., PartsBack.mxor .., PartsBack.mnot .., PartsBack.mset .., PartsBack.mcnt .., PartsBack.vadd .., PartsBack.vsub ..,
    PartsBack.vmul .., PartsBack.vfma .., PartsBack.vfms .., PartsBack.vmin .., PartsBack.vmax .., PartsBack.vabs .., PartsBack.vneg ..,
    PartsBack.vand .., PartsBack.vor .., PartsBack.vxor .., PartsBack.vnot .., PartsBack.vshl .., PartsBack.vshr .., PartsBack.vsra ..,
    PartsBack.vcmp .., PartsBack.vsel .., PartsBack.vcvt .., PartsBack.vwiden .., PartsBack.vnarrow .., PartsBack.vsat ..,
    PartsBack.vclamp .., PartsBack.vdot4 .., PartsBack.vred .., PartsBack.vscan .., PartsBack.vperm .., PartsBack.vshuf ..,
    PartsBack.vbcast .., PartsBack.vslide .., PartsBack.viota .., PartsBack.vcomp .., PartsBack.vexpd .., PartsBack.vld ..,
    PartsBack.vst .., PartsBack.vldx .., PartsBack.vstx .., PartsBack.vgath .., PartsBack.vscat .., PartsBack.vqpop ..,
    PartsBack.vqpush .., PartsBack.vexp2 .., PartsBack.vlog2 .., PartsBack.vrcp .., PartsBack.vrsq .., PartsBack.vtanh ..,
    PartsBack.vsigm .., PartsBack.vmerge3 .., PartsBack.vdefer .., PartsBack.vdrain .., PartsBack.vdqcnt .., PartsBack.loopp ..,
    PartsBack.brp .., PartsBack.vmov .., PartsBack.vzero .., PartsBack.ld .., PartsBack.st .., PartsBack.ldx .., PartsBack.stx ..,
    PartsBack.lda .., PartsBack.stl .., PartsBack.amo .., PartsBack.cas .., PartsBack.fence .., PartsBack.mark .., PartsBack.tksig ..,
    PartsBack.tkwait .., PartsBack.boqpush .., PartsBack.barv .., PartsBack.bwait .., PartsBack.tbinit .., PartsBack.tbarv ..,
    PartsBack.tbwait .., PartsBack.leeway .., PartsBack.remq .., PartsBack.notify .., PartsBack.waitev .., PartsBack.mma ..,
    PartsBack.mmac .., PartsBack.cmerge .., PartsBack.cspill .., PartsBack.cdrain .., PartsBack.acfg .., PartsBack.azero ..,
    PartsBack.aload .., PartsBack.adrain .., PartsBack.adrainp .., PartsBack.aarm .., PartsBack.fmtset .., PartsBack.fmtld ..,
    PartsBack.mvec .., PartsBack.mxt .., PartsBack.xcopy .., PartsBack.xgath .., PartsBack.xscat .., PartsBack.xfill ..,
    PartsBack.xpop .., PartsBack.xstat .., PartsBack.publish .., PartsBack.ntake .., PartsBack.ndecl .., PartsBack.nwait ..,
    PartsBack.reclaim .., PartsBack.rextend .., PartsBack.helmset .., PartsBack.pwin .., PartsBack.coll .., PartsBack.accw ..,
    PartsBack.rdywait .., PartsBack.sortk .., PartsBack.echoose .., PartsBack.rcsnap .., PartsBack.lattn .., PartsBack.chnew ..,
    PartsBack.chfork .., PartsBack.chflat .., PartsBack.chappend .., PartsBack.chlook .., PartsBack.chtrunc .., PartsBack.chseal ..,
    PartsBack.chfree .., PartsBack.chgive .., PartsBack.bmset .., PartsBack.bmperm .., PartsBack.bmlook .., PartsBack.rkbegin ..,
    PartsBack.acmp .., PartsBack.rkcommit .., PartsBack.rkend .., PartsBack.rkstat .., PartsBack.csrr .., PartsBack.csrw ..,
    PartsBack.csrx .., PartsBack.trap .., PartsBack.eret .., PartsBack.halt .., PartsBack.nop .., PartsBack.yield ..,
    PartsBack.mmaRecord .., PartsBack.mmacRecord .., PartsBack.xcopyRecord .., PartsBack.xgathRecord .., PartsBack.xscatRecord ..,
    PartsBack.xfillRecord .., PartsBack.publishRecord .., PartsBack.collRecord .., PartsBack.sortkRecord .., PartsBack.lattnRecord ..,
    PartsBack.vectorArithRecord .., PartsBack.vectorLogicRecord .., PartsBack.vectorConvertRecord .., PartsBack.vectorDotRecord ..,
    PartsBack.vectorMemoryRecord .., PartsBack.vectorSpecialRecord .., PartsBack.vmerge3Record .., PartsBack.recordIssue ..,
    PartsBack.engineCommandStart .., PartsBack.triggeredCommandStart .., PartsBack.commandComplete .., PartsBack.notifyRetire ..,
    PartsBack.loadAnswer .., PartsBack.l1Eviction .., PartsBack.pageWalkComplete .., PartsBack.leewayCountUpdate ..,
    PartsBack.tokenDeadlock .., PartsBack.reportedFaultDelivery .., PartsBack.blockExpiry .., PartsBack.reclaimTrapDelivery ..,
    PartsBack.noticeArrival .., PartsBack.heldNoticeEntry .., PartsBack.noticeRipe .., PartsBack.helmPullStart ..,
    PartsBack.segmentRequest .., PartsBack.segmentRead .., PartsBack.segmentLand .., PartsBack.pullCompletionArrival ..,
    PartsBack.declineArrival .., PartsBack.withdrawalArrival .., PartsBack.collSegmentApply .., PartsBack.remoteBlockServe ..,
    PartsBack.tileEnd .., PartsBack.tileEndByFault .., PartsBack.packetRead .., PartsBack.coreOffer .., PartsBack.launchComplete ..,
    PartsBack.preemptTrigger .., PartsBack.contextSave .., PartsBack.tileResume .., PartsBack.queueDrainDone ..,
    PartsBack.queueAbortDone .., PartsBack.qctlEnable .., PartsBack.qctlDrain .., PartsBack.qctlAbort .., PartsBack.qwrDoorbell ..,
    PartsBack.tigoInvalidate .., PartsBack.tlbInvalidateComplete .., PartsBack.wcmdIngress .., PartsBack.wcmdLocal ..,
    PartsBack.wcmdRelease .., PartsBack.shardBlockWrite .., PartsBack.shardLocalCheckDone .., PartsBack.shardPatrolPass ..,
    PartsBack.wfenceClear .., PartsBack.fllostClear .., PartsBack.errorCountClear .., PartsBack.unfenceCore ..,
    PartsBack.unfenceCluster .., PartsBack.unfenceStack .., PartsBack.unfenceUnit .., PartsBack.eccCorrected ..,
    PartsBack.eccUncorrectable .., PartsBack.patrolScrub .., PartsBack.ckctlSave .., PartsBack.ckctlRestore ..,
    PartsBack.checkpointQuiesced .., PartsBack.checkpointCopyDone .., PartsBack.checkpointError .., PartsBack.checkpointRestoreDone ..,
    PartsBack.tcmdLcchange .., PartsBack.tcmdQuote .., PartsBack.tcmdKeyinstall .., PartsBack.tcmdKeyclear .., PartsBack.powerOnReset ..,
    PartsBack.sfctlStartupEnd .., PartsBack.sfctlBist .., PartsBack.bistDone .., PartsBack.clkcfgWrite ..,
    PartsBack.clkcfgPendingApply .., PartsBack.pcfgWrite .., PartsBack.portTrained .., PartsBack.portTrainingTimeout ..,
    PartsBack.portFence .., PartsBack.flitForward .., PartsBack.flitReplay .., PartsBack.undeliverableReturn ..,
    PartsBack.writeOfferArrival .., PartsBack.writeOfferPull .., PartsBack.remoteWritePerform .., PartsBack.remoteWriteAck ..,
    PartsBack.remoteReadRequest .., PartsBack.hostRegisterAccess .., PartsBack.registerWrite .., PartsBack.powerManagerCheck ..,
    PartsBack.thermalStop .., PartsBack.thermalRestart .., PartsBack.chronometerTick .., PartsBack.pldmSensorRead ..,
    PartsBack.storePerformed .., PartsBack.shardIngressCheckDone .., PartsBack.stackLosesTraining .., PartsBack.baseDieError ..,
    PartsBack.powerLoss ..]
section
variable {i : Instr} {maj fn : Nat} {h : Header} {o : Operands}

theorem encode_eq (hp : i.parts = some (maj, fn, h, o)) : encode i = natBytes o.size (h.pack maj fn + 2 ^ 32 * o.pack) := by
  simp only [encode, encodeNat, Instr.size, hp]
  cases o <;> rfl

/-- An encoding fits the bytes of its word or record. -/
theorem encodeNat_lt (maj fn : Nat) (h : Header) (o : Operands) : h.pack maj fn + 2 ^ 32 * o.pack < 256 ^ o.size := by
  have low := Header.pack_lt maj fn h
  have high := o.pack_lt
  have hs : 32 ≤ 8 * o.size := by cases o <;> simp [Operands.size]
  calc h.pack maj fn + 2 ^ 32 * o.pack < 2 ^ 32 * (o.pack + 1) := by omega
    _ ≤ 2 ^ 32 * 2 ^ (8 * o.size - 32) := Nat.mul_le_mul_left _ high
    _ = 2 ^ (8 * o.size) := by rw [← Nat.pow_add, Nat.add_sub_cancel' hs]
    _ = 256 ^ o.size := by rw [Nat.pow_mul]

/-- The first byte of an encoding is its MAJ. -/
theorem Header.pack_mod_256 (maj fn : Nat) (h : Header) (x : Nat) (hm : maj < 256) : (h.pack maj fn + 2 ^ 32 * x) % 256 = maj := by
  have split : h.pack maj fn = maj % 2 ^ 8 + 2 ^ 8 * (h.pack maj fn / 2 ^ 8) := by
    have first : h.pack maj fn % 2 ^ 8 = maj % 2 ^ 8 := by
      simp only [Header.pack, Sys2Proof.pack, Nat.add_mul_mod_self_left, Nat.mod_mod]
    omega
  omega

/-- The number of a well-formed instruction's encoding decodes to it (R86). -/
theorem decodeNat_encode (hp : i.parts = some (maj, fn, h, o)) (w : i.wf = true) :
    decodeNat (h.pack maj fn + 2 ^ 32 * o.pack) = .ok i := by
  have back := i.partsBack
  simp only [PartsBack.Statement, hp] at back
  obtain ⟨hmaj, hfn, first, format, parts⟩ := back
  have low : (h.pack maj fn + 2 ^ 32 * o.pack) % 2 ^ 32 = h.pack maj fn := by
    rw [Nat.add_mul_mod_self_left, Nat.mod_eq_of_lt (Header.pack_lt maj fn h)]
  have high : (h.pack maj fn + 2 ^ 32 * o.pack) / 2 ^ 32 = o.pack := by
    rw [Nat.add_mul_div_left _ _ (Nat.two_pow_pos 32), Nat.div_eq_of_lt (Header.pack_lt maj fn h), Nat.zero_add]
  simp only [decodeNat, low, high, Header.unpack_pack maj fn h hmaj hfn, first, format, o.unpack_pack, parts, w, ne_eq,
    not_true_eq_false, if_true, if_false]

theorem decode_encode (hp : i.parts = some (maj, fn, h, o)) (w : i.wf = true) : decode (encode i) = .ok (i, []) := by
  have back := i.partsBack
  simp only [PartsBack.Statement, hp] at back
  obtain ⟨hmaj, -, -, format, -⟩ := back
  have whole := decodeNat_encode hp w
  have fits := encodeNat_lt maj fn h o
  have byte := Header.pack_mod_256 maj fn h o.pack hmaj
  rw [encode_eq hp]
  generalize h.pack maj fn + 2 ^ 32 * o.pack = n at whole fits byte
  obtain ⟨k, hk⟩ : ∃ k, o.size = k + 1 := by cases o <;> exact ⟨_, rfl⟩
  have len : (natBytes o.size n).length = o.size := natBytes_length _ _
  have record : (if isRecordMaj (BitVec.ofNat 8 n).toNat = true then 64 else 16) = o.size := by
    rw [BitVec.toNat_ofNat, byte, isRecordMaj_eq maj _ format, decide_formatOfOperands_record]
  have head : natBytes o.size n = BitVec.ofNat 8 n :: natBytes k (n / 256) := by rw [hk, natBytes]
  have take : (natBytes o.size n).take o.size = natBytes o.size n := List.take_of_length_le len.le
  have drop : (natBytes o.size n).drop o.size = [] := List.drop_of_length_le len.le
  have number : bytesNat (natBytes o.size n) = n := by rw [bytesNat_natBytes, Nat.mod_eq_of_lt fits]
  simp only [decode, head, record]
  simp only [← head, take, drop, len, number, whole, lt_irrefl, if_false]

end

end Sys2Proof

namespace Sys2Proof.Machine
open Sys2Proof

/-- Settles O54: the fields of every format read back as they were packed, and the opcode map leads back to the instruction
(`decode_encode`). -/
theorem decodeOfEncode : Obligations.DecodeOfEncode := by
  unfold Obligations.DecodeOfEncode
  intro i hp w
  obtain ⟨⟨maj, fn, h, o⟩, hparts⟩ := Option.isSome_iff_exists.mp hp
  exact decode_encode hparts w

end Sys2Proof.Machine

/-! SUPPORT. What a word leaves unchanged, put together over several updates. -/

namespace Sys2Proof.Safety
open Sys2Proof Sys2Proof.Machine

theorem SameRegisters.refl (x : Core) : SameRegisters x x := by constructor <;> rfl

theorem SameRegisters.trans {x y z : Core} (a : SameRegisters x y) (b : SameRegisters y z) : SameRegisters x z where
  v := b.v.trans a.v
  em := b.em.trans a.em
  cm := b.cm.trans a.cm
  masks := b.masks.trans a.masks
  rrb := b.rrb.trans a.rrb
  fflags := b.fflags.trans a.fflags
  frm := b.frm.trans a.frm
  aovf := b.aovf.trans a.aovf
  domain := b.domain.trans a.domain
  helmcfg := b.helmcfg.trans a.helmcfg
  pwincfg := b.pwincfg.trans a.pwincfg
  acc := b.acc.trans a.acc
  counters := b.counters.trans a.counters
  conf := b.conf.trans a.conf
  eb := b.eb.trans a.eb
  cwb := b.cwb.trans a.cwb
  cbound := b.cbound.trans a.cbound
  cdrains := b.cdrains.trans a.cdrains
  fmt := b.fmt.trans a.fmt
  granules := b.granules.trans a.granules
  counters32 := b.counters32.trans a.counters32
  routing := b.routing.trans a.routing
  blocks := b.blocks.trans a.blocks
  phase := b.phase.trans a.phase

theorem SameRegisters.mapSeq (k : Core) (q : SeqId) (f : Sequencer → Sequencer) : SameRegisters k (k.mapSeq q f) := by
  cases q <;> constructor <;> rfl

theorem SameSpecials.trans {r u w : Sequencer} (a : SameSpecials r u) (b : SameSpecials u w) : SameSpecials r w where
  shadow := b.shadow.trans a.shadow
  sg := b.sg.trans a.sg
  tvec := b.tvec.trans a.tvec
  epc := b.epc.trans a.epc
  ecause := b.ecause.trans a.ecause
  halted := b.halted.trans a.halted
  inHandler := b.inHandler.trans a.inHandler

/-- Updating a core reads memory as before where the update keeps the core's own. -/
theorem SameMemory.mapCore (s : State) (c : Nat) (f : Core → Core) (spad : (f (s.core c)).spad = (s.core c).spad)
    (l1 : (f (s.core c)).l1 = (s.core c).l1) : SameMemory s (s.mapCore c f) where
  phys _ _ := rfl
  spad d a := by
    by_cases h : d = c
    · subst h
      rw [State.core_mapCore_same, spad]
    · rw [State.core_mapCore_other s c d f h]
  cache d := by
    by_cases h : d = c
    · subst h
      rw [State.core_mapCore_same, l1]
    · rw [State.core_mapCore_other s c d f h]

theorem SameMemory.trans {s t u : State} (a : SameMemory s t) (b : SameMemory t u) : SameMemory s u where
  phys system x := (b.phys system x).trans (a.phys system x)
  spad c x := (b.spad c x).trans (a.spad c x)
  cache c := (b.cache c).trans (a.cache c)

theorem SameDevice.mapCore (s : State) (c : Nat) (f : Core → Core) : SameDevice s (s.mapCore c f) := by constructor <;> rfl

theorem SameDevice.trans {s t u : State} (a : SameDevice s t) (b : SameDevice t u) : SameDevice s u where
  chron := b.chron.trans a.chron
  queues := b.queues.trans a.queues
  groups := b.groups.trans a.groups
  shards := b.shards.trans a.shards
  ports := b.ports.trans a.ports
  routes := b.routes.trans a.routes
  faults := b.faults.trans a.faults
  trust := b.trust.trans a.trust
  mgmt := b.mgmt.trans a.mgmt
  checkpoint := b.checkpoint.trans a.checkpoint

section
variable {s t u : State} {ds : List (BitVec 6)}

theorem OnlyG.trans (a : OnlyG s t ds) (b : OnlyG t u ds) (hcur : t.cur = s.cur) : OnlyG s u ds where
  memory := a.memory.trans b.memory
  device := a.device.trans b.device
  cores c hc := (b.cores c (by rwa [hcur])).trans (a.cores c hc)
  registers := a.registers.trans b.registers
  sequencers q hq := (b.sequencers q (by rwa [hcur])).trans (a.sequencers q hq)
  specials := a.specials.trans b.specials
  others n hn := (b.others n hn).trans (a.others n hn)

theorem OnlyG.refl (s : State) (ds : List (BitVec 6)) : OnlyG s s ds where
  memory := ⟨fun _ _ => rfl, fun _ _ => rfl, fun _ => rfl⟩
  device := by constructor <;> rfl
  cores _ _ := rfl
  registers := .refl s.me
  sequencers _ _ := rfl
  specials := by constructor <;> rfl
  others _ _ := rfl

/-- What writes no g-register writes none beside those of a list. -/
theorem OnlyG.weaken (h : OnlyG s t []) : OnlyG s t ds := { h with others := fun n _ => h.others n (fun _ hd => nomatch hd) }

end

end Sys2Proof.Safety

/-! SUPPORT. Frames: what the bookkeeping of an issue, the end of a word and the writing of a g-register leave unchanged (R28, R94). -/

namespace Sys2Proof.Machine
open Sys2Proof Sys2Proof.Safety

/-- A fold whose steps keep a part of a core keeps it. -/
theorem Core.foldl_keeps {α β : Type} (part : Core → β) (f : Core → α → Core) (hf : ∀ k x, part (f k x) = part k) (l : List α) (k : Core) :
    part (l.foldl f k) = part k := by
  induction l generalizing k with
  | nil => rfl
  | cons x l ih => rw [List.foldl_cons, ih, hf]

/-! ### Frames of a core -/

/-- What changes of a core where a sequencer's word writes the g-registers ds: no architectural register but those. -/
structure CoreOnlyG (q : SeqId) (x y : Core) (ds : List (BitVec 6)) : Prop where
  spad : y.spad = x.spad
  l1 : y.l1 = x.l1
  registers : SameRegisters x y
  sequencers : ∀ p, p ≠ q → y.seq p = x.seq p
  specials : SameSpecials (x.seq q) (y.seq q)
  others : ∀ n : Nat, (∀ d ∈ ds, d.toNat ≠ n) → (y.seq q).getG n = (x.seq q).getG n

section
variable {q : SeqId} {x y z : Core} {ds : List (BitVec 6)}

theorem CoreOnlyG.trans (a : CoreOnlyG q x y ds) (b : CoreOnlyG q y z ds) : CoreOnlyG q x z ds where
  spad := b.spad.trans a.spad
  l1 := b.l1.trans a.l1
  registers := a.registers.trans b.registers
  sequencers p hp := (b.sequencers p hp).trans (a.sequencers p hp)
  specials := a.specials.trans b.specials
  others n hn := (b.others n hn).trans (a.others n hn)

/-- An update of a core that leaves its sequencers, its memory and its architectural registers. -/
theorem CoreOnlyG.of_same_seq (registers : SameRegisters x y) (spad : y.spad = x.spad) (l1 : y.l1 = x.l1) (seq : ∀ p, y.seq p = x.seq p) :
    CoreOnlyG q x y ds where
  spad := spad
  l1 := l1
  registers := registers
  sequencers p _ := seq p
  specials := by rw [seq]; constructor <;> rfl
  others n _ := by rw [seq]

theorem CoreOnlyG.refl (q : SeqId) (x : Core) (ds : List (BitVec 6)) : CoreOnlyG q x x ds :=
  .of_same_seq (.refl x) rfl rfl (fun _ => rfl)

/-- An update of the present sequencer that leaves its trap registers and other g-registers. -/
theorem CoreOnlyG.mapSeq (k : Core) (f : Sequencer → Sequencer) (specials : SameSpecials (k.seq q) (f (k.seq q)))
    (others : ∀ n : Nat, (∀ d ∈ ds, d.toNat ≠ n) → (f (k.seq q)).getG n = (k.seq q).getG n) : CoreOnlyG q k (k.mapSeq q f) ds where
  spad := by simp
  l1 := by simp
  registers := .mapSeq k q f
  sequencers p hp := k.seq_mapSeq_other q p f hp
  specials := by rwa [Core.seq_mapSeq_same]
  others n hn := by rw [Core.seq_mapSeq_same, others n hn]

theorem CoreOnlyG.foldl {α : Type} (f : Core → α → Core) (hf : ∀ k a, CoreOnlyG q k (f k a) ds) :
    ∀ (l : List α) (k : Core), CoreOnlyG q k (l.foldl f k) ds
  | [], k => .refl q k ds
  | a :: l, k => (hf k a).trans (CoreOnlyG.foldl f hf l (f k a))

/-! ### The bookkeeping of an issue -/

theorem Core.popTokens_onlyG (k : Core) (now n m : Nat) : CoreOnlyG q k (k.popTokens now n m) ds :=
  .of_same_seq (by constructor <;> rfl) rfl rfl (fun p => by cases p <;> rfl)

theorem Core.pushTokens_onlyG (k : Core) (n m : Nat) (t : Token) : CoreOnlyG q k (k.pushTokens n m t) ds :=
  .of_same_seq (by constructor <;> rfl) rfl rfl (fun p => by cases p <;> rfl)

theorem Core.reserve_onlyG (k : Core) (n : Nat) : CoreOnlyG q k (k.reserve n) ds :=
  .of_same_seq (by constructor <;> rfl) rfl rfl (fun p => by cases p <;> rfl)

theorem Core.inherit_onlyG (k : Core) (ids : List Nat) : CoreOnlyG q k (k.inherit q ids) ds :=
  .mapSeq k _ (by constructor <;> rfl) (fun _ _ => rfl)

theorem Core.takeTokens_onlyG (k : Core) (now : Nat) (pops : List (Nat × Nat)) : CoreOnlyG q k (k.takeTokens q now pops) ds :=
  (k.inherit_onlyG _).trans (.foldl _ (fun k c => k.popTokens_onlyG now c.1 c.2) pops _)

/-- The pushes of an issue: places reserved in an engine's queues, or tokens. -/
theorem Core.pushes_onlyG (k : Core) (p : Issue) (h : Header) (t : Token) :
    CoreOnlyG q k (if p.engine.isSome then ((Machine.named q h.tks).map (tokenQueue q)).foldl (fun k t => k.reserve t) k
      else (pushCounts q h p.pushes).foldl (fun k c => if c.2 = 0 then k else k.pushTokens c.1 c.2 t) k) ds := by
  split
  · exact .foldl _ (fun k c => k.reserve_onlyG c) _ k
  · refine .foldl _ (fun k c => ?_) _ k
    split
    · exact .refl q k ds
    · exact k.pushTokens_onlyG _ _ _

theorem Core.resumeCopies_onlyG (k : Core) (p : SeqId) : CoreOnlyG q k (k.resumeCopies p) ds := by
  unfold Core.resumeCopies
  split
  · exact .refl q k ds
  · split
    · exact .refl q k ds
    · split <;> exact .of_same_seq (by constructor <;> rfl) rfl rfl (fun p => by cases p <;> rfl)

theorem Core.withRound_onlyG (k : Core) (r : Round) : CoreOnlyG q k { k with round := r } ds :=
  .of_same_seq (by constructor <;> rfl) rfl rfl (fun p => by cases p <;> rfl)

end

/-! ### Frames of the state -/

section
variable {s t u : State} {ds : List (BitVec 6)}

/-- An update of the present core that writes g-registers only does so of the state. -/
theorem State.mapMe_onlyG (f : Core → Core) (h : CoreOnlyG s.cur.seq s.me (f s.me) ds) : OnlyG s (s.mapMe f) ds where
  memory := .mapCore s s.cur.core f h.spad h.l1
  device := .mapCore s s.cur.core f
  cores c hc := State.core_mapCore_other s s.cur.core c f hc
  registers := by rw [State.me_mapMe]; exact h.registers
  sequencers q hq := by rw [State.me_mapMe]; exact h.sequencers q hq
  specials := by
    simp only [State.mySeq, State.me_mapMe, State.mapMe_cur]
    exact h.specials
  others n hn := by
    simp only [State.mySeq, State.me_mapMe, State.mapMe_cur]
    exact h.others n hn

theorem State.account_onlyG (s : State) (p : Issue) (h : Header) : OnlyG s (s.account p h) ds := by
  unfold State.account
  exact State.mapMe_onlyG _ (((Core.takeTokens_onlyG s.me _ _).trans (Core.pushes_onlyG _ p h _)).trans
    (CoreOnlyG.mapSeq _ _ (by constructor <;> rfl) (fun _ _ => rfl)))

theorem State.goOn_onlyG (s : State) (n : Word) (taken : Bool) : OnlyG s (s.goOn n taken) ds := by
  unfold State.goOn State.mapMySeq
  exact State.mapMe_onlyG _ (CoreOnlyG.mapSeq s.me _ (by constructor <;> rfl) (fun _ _ => rfl))

theorem State.mapRound_onlyG (s : State) (f : Core → Round) : OnlyG s (s.mapMe (fun k => { k with round := f k })) ds :=
  State.mapMe_onlyG _ (s.me.withRound_onlyG _)

end

/-- The end of a copy of slot 0 writes no g-register. -/
theorem State.retire_onlyG (s : State) (p : Issue) (h : Header) (n : Word) (taken : Bool) (slot0 : s.cur.slot = 0) :
    OnlyG s (s.retire p h n taken) [] := by
  have accounted := s.account_onlyG p h (ds := [])
  by_cases hr : s.inRound p.once = true
  · have targeted := accounted.trans ((s.account p h).mapRound_onlyG
      (fun k => { k.round with target0 := n, taken0 := taken })) rfl
    simp only [State.retire, hr, slot0, if_true]
    split
    · exact targeted.trans (State.mapRound_onlyG _ _) rfl
    · refine (targeted.trans (State.goOn_onlyG _ _ _) rfl).trans (State.mapMe_onlyG _ ?_) rfl
      exact (Core.withRound_onlyG _ _).trans (Core.resumeCopies_onlyG _ _)
  · rw [retire_plain p h s n taken slot0 (by simpa using hr)]
    exact accounted.trans (State.goOn_onlyG _ n taken) rfl

@[simp] theorem State.goOn_pc (s : State) (n : Word) (taken : Bool) : (s.goOn n taken).pc = n := by
  simp [State.pc, State.goOn]

@[simp] theorem State.setG_cur (s : State) (d : BitVec 6) (v : Word) : (s.setG d v).cur = s.cur := by
  unfold State.setG
  split
  · rfl
  · split <;> rfl

theorem State.setG_slot0 (s : State) (d : BitVec 6) (v : Word) (slot0 : s.cur.slot = 0) :
    s.setG d v = s.mapMySeq (fun r => r.setG d.toNat v) := if_pos slot0

/-- Writing a g-register in slot 0 writes no other. -/
theorem State.setG_onlyG (s : State) (d : BitVec 6) (v : Word) (slot0 : s.cur.slot = 0) : OnlyG s (s.setG d v) [d] := by
  rw [s.setG_slot0 d v slot0]
  refine State.mapMe_onlyG _ (CoreOnlyG.mapSeq s.me _ (by constructor <;> simp) (fun n hn => ?_))
  exact Sequencer.getG_setG_other _ _ _ _ (hn d (List.mem_singleton_self d)).symm

theorem BitVec6.toNat_ne_zero {d : BitVec 6} (hd : d ≠ 0) : d.toNat ≠ 0 := fun h => hd (BitVec.eq_of_toNat_eq h)

theorem State.getG_setG_same (s : State) (d : BitVec 6) (v : Word) (slot0 : s.cur.slot = 0) (hd : d ≠ 0) :
    (s.setG d v).mySeq.getG d.toNat = v := by
  rw [s.setG_slot0 d v slot0, State.mySeq_mapMySeq, Sequencer.getG_setG_same _ _ _ (BitVec6.toNat_ne_zero hd)]

/-- Settles O6: the end of a word by `State.retire_onlyG`, a written register by `State.setG_onlyG` and then the end of the word. -/
theorem scalarFrame : Obligations.ScalarFrame := by
  unfold Obligations.ScalarFrame
  intro p h s d v n taken slot0
  have ended := (s.setG d v).retire_onlyG p h (s.pc + 16) false (by rw [State.setG_cur, slot0])
  refine ⟨s.retire_onlyG p h n taken slot0, fun hr => ?_, rfl, fun hd => ?_, ?_⟩
  · rw [retire_plain p h s n taken slot0 hr, State.goOn_pc]
  · rw [ended.others _ (fun _ hx => nomatch hx), s.getG_setG_same d v slot0 hd]
  · exact (s.setG_onlyG d v slot0).trans ended.weaken (s.setG_cur d v)

end Sys2Proof.Machine

/-! SUPPORT. The checks of issue (R79, R86, R243, R248), and the scalar words of MAJ 0x03 and 0x04 (R105, R106). -/

namespace Sys2Proof.Machine
open Sys2Proof Sys2Proof.Safety

/-! ### Words that every slot may carry out -/

theorem issueWord_went_everySlot (p : Issue) (h : Header) (body : State → Eff) (s t : State) (n : Word) (hp : p.noSpec = false)
    (g : gate p h s = .go) (hb : body s = .done t n) : issueWord p h body s = went p h t n :=
  issueWord_done p h body s t n g (by simp [hp]) hb

theorem issueWord_jumped_everySlot (p : Issue) (h : Header) (body : State → Eff) (s t : State) (n : Word) (hp : p.noSpec = false)
    (g : gate p h s = .go) (hb : body s = .jump t n) : issueWord p h body s = jumped p h t n :=
  issueWord_jump p h body s t n g (by simp [hp]) hb

theorem issueWord_trapped_everySlot (p : Issue) (h : Header) (body : State → Eff) (s : State) (i : FaultInfo) (hp : p.noSpec = false)
    (g : gate p h s = .go) (hb : body s = .trap i) : issueWord p h body s = .next (s.trapCopy p h i) :=
  issueWord_trap p h body s i g (by simp [hp]) hb

/-! ### Words with an immediate -/

/-- An IMM word that passes the checks writes its function's value of G(AG) and the immediate. -/
theorem exec_immWord_wrote {i : Instr} {h : Header} {o : ImmOps} {f : Word → Word → Word} {s : State} {v : Word}
    (hi : exec i s = immWord h o f s) (g : gate (Issue.scalar [o.ag] [o.dg]) h s = .go) (hv : f (s.g o.ag) o.imm = v) :
    exec i s = wrote (Issue.scalar [o.ag] [o.dg]) h s o.dg v :=
  hi.trans (issueWord_wrote _ h _ s o.dg v rfl g (by rw [hv]))

/-- Settles O2: each word is an IMM word (`exec_immWord_wrote`) whose function is that of the register form; LEA adds to the PC. -/
theorem immediateWords : Obligations.ImmediateWords := by
  unfold Obligations.ImmediateWords
  intro h o s a b p
  refine ⟨fun g => ?_, fun g => (exec_lea h o s).trans (issueWord_wrote _ h _ s o.dg _ rfl g rfl)⟩
  exact
    ⟨exec_immWord_wrote (exec_andImm h o s) g rfl,
     exec_immWord_wrote (exec_orImm h o s) g rfl,
     exec_immWord_wrote (exec_xorImm h o s) g rfl,
     exec_immWord_wrote (exec_andnImm h o s) g rfl,
     exec_immWord_wrote (exec_shlImm h o s) g (shl64_eq _ _),
     exec_immWord_wrote (exec_shrImm h o s) g (shr64_eq _ _),
     exec_immWord_wrote (exec_sraImm h o s) g (sra64_eq _ _),
     exec_immWord_wrote (exec_rolImm h o s) g (rol64_eq _ _),
     exec_immWord_wrote (exec_sextImm h o s) g (sextWord_eq _ _),
     exec_immWord_wrote (exec_zextImm h o s) g (zextWord_eq _ _),
     exec_immWord_wrote (exec_addi h o s) g rfl,
     exec_immWord_wrote (exec_li h o s) g rfl⟩

/-! ### Words that do not act -/

/-- Which word is at issue, ADD's issue description serves its checks. -/
theorem exec_add_issue (h : Header) (o : RegOps) (s : State) :
    exec (.add h o) s = issueWord (Issue.scalar [o.ag, o.bg] [o.dg]) h (fun s => .done (s.setG o.dg (s.g o.ag + s.g o.bg)) s.pc16) s := rfl

@[simp] theorem Core.takeTokens_pc (k : Core) (q : SeqId) (now : Nat) (pops : List (Nat × Nat)) :
    ((k.takeTokens q now pops).seq q).pc = (k.seq q).pc := by
  rw [Core.takeTokens, Core.foldl_keeps (fun k : Core => (k.seq q).pc) _ (fun k c => by cases q <;> rfl), Core.inherit, Core.seq_mapSeq_same]

theorem Core.pushes_pc (k : Core) (q : SeqId) (p : Issue) (h : Header) (t : Token) :
    ((if p.engine.isSome then ((Machine.named q h.tks).map (tokenQueue q)).foldl (fun k t => k.reserve t) k
      else (pushCounts q h p.pushes).foldl (fun k c => if c.2 = 0 then k else k.pushTokens c.1 c.2 t) k).seq q).pc = (k.seq q).pc := by
  split
  · exact Core.foldl_keeps (fun k : Core => (k.seq q).pc) _ (fun k c => by cases q <;> rfl) _ k
  · refine Core.foldl_keeps (fun k : Core => (k.seq q).pc) _ (fun k c => ?_) _ k
    split
    · rfl
    · cases q <;> rfl

/-- The bookkeeping of an issue leaves the program counter. -/
@[simp] theorem State.account_pc (s : State) (p : Issue) (h : Header) : (s.account p h).pc = s.pc := by
  simp only [State.pc, State.mySeq, State.account, State.me_mapMe, State.mapMe_cur, Core.seq_mapSeq_same, Core.pushes_pc, Core.takeTokens_pc]

/-- A rotated word is X-seq's alone (R79). -/
theorem gate_rot (p : Issue) (h : Header) (s : State) (hr : h.rot = 1) (hq : s.cur.seq ≠ .x) : gate p h s = .trap (.bare .illegal) := by
  simp [gate, hr, hq]

/-- Settles O4: issuing follows the outcome of the checks (`issueWord`), and a word without effect writes no g-register. -/
theorem wordsThatDoNotAct : Obligations.WordsThatDoNotAct := by
  unfold Obligations.WordsThatDoNotAct
  intro h o s p
  simp only [exec_add_issue]
  refine ⟨fun i g => ?trap, fun _ hr hq => gate_rot p h s hr hq, fun g => ?stay, fun g => ?skip, fun g => ?miss⟩
  case trap => simp only [issueWord, p, g]
  case stay => simp only [issueWord, p, g]
  case skip =>
    refine ⟨_, issueWord_skip p h _ s g, ?_, fun _ => ?_⟩
    · simp only [State.pc, State.mySeq_mapMySeq, Sequencer.goTo_pc]
      exact congrArg (· + 16#64) (s.account_pc _ _)
    · exact (s.account_onlyG _ _).trans (State.mapMe_onlyG _ (CoreOnlyG.mapSeq _ _ (by constructor <;> rfl) (fun _ _ => rfl))) rfl
  case miss => exact ⟨_, issueWord_miss p h _ s g, rfl⟩

/-! ### Plain words -/

theorem named_zero (q : SeqId) : Machine.named q 0 = [] := by cases q <;> decide

theorem popCounts_plain (q : SeqId) : ∀ c ∈ popCounts q .plain [], c.2 = 0 := by cases q <;> decide

theorem pushCounts_plain (q : SeqId) : ∀ c ∈ pushCounts q .plain [], c.2 = 0 := by cases q <;> decide

theorem State.popsLeft_plain (s : State) (p : Issue) (hp : p.pops = []) : ∀ c ∈ s.popsLeft p .plain, c.2 = 0 := by
  unfold State.popsLeft
  split
  · exact fun _ hc => nomatch hc
  · rw [hp]
    exact popCounts_plain _

/-- A plain word whose registers may be used meets the conditions of R243. -/
theorem gateReady_plain (p : Issue) (s : State) (stamp : p.stamp = none) (pops : p.pops = []) (pushes : p.pushes = [])
    (usable : ∀ n ∈ p.srcs ++ p.dsts, s.mySeq.usable s.cycle n = true) : gateReady p .plain s = .go := by
  have popped : (s.popsLeft p .plain).all (fun c => decide (c.2 ≤ s.me.poppable s.cycle c.1)) = true :=
    List.all_eq_true.mpr (fun c hc => by simp [s.popsLeft_plain p pops c hc])
  have room : (pushCounts s.cur.seq .plain p.pushes).any (fun c => c.2 != 0 && !s.me.hasRoom c.1 c.2) = false := by
    rw [pushes]
    exact List.any_eq_false.mpr (fun c hc => by simp [pushCounts_plain _ c hc])
  have regs : (p.srcs ++ p.dsts).all (fun n => s.mySeq.usable s.cycle n) = true := List.all_eq_true.mpr usable
  simp [gateReady, stamp, popped, room, regs]

/-- Outside a crossing, and after the cycle of the last issue, the checks are those of the word's cycle. -/
theorem gate_eq_gateTimed (p : Issue) (h : Header) (s : State) (who : p.who.contains s.cur.seq = true) (absent : p.absent = none)
    (slot0 : s.cur.slot = 0) (rot : h.rot = 0) (msrc : h.msrc = 0) (later : ∀ c, s.mySeq.lastIssue = some c → c < s.cycle)
    (same : ∀ m, s.mySeq.lastM = some m → m = (h.m == 1)) : gate p h s = gateTimed p h s := by
  simp only [gate, who, absent, slot0, rot, msrc]
  cases hc : s.mySeq.lastIssue with
  | none =>
    cases hm : s.mySeq.lastM with
    | none => simp
    | some m => simp [same m hm]
  | some c =>
    have hlt := later c hc
    cases hm : s.mySeq.lastM with
    | none => simp [hlt]
    | some m => simp [hlt, same m hm]

theorem gateTimed_plain (p : Issue) (s : State) : gateTimed p .plain s = gateReady p .plain s := rfl

/-- Settles O5: outside a crossing a plain word comes to the conditions of R243 (`gateReady_plain`). -/
theorem plainWordsIssue : Obligations.PlainWordsIssue := by
  unfold Obligations.PlainWordsIssue
  intro p s who absent stamp slot0 pops pushes interlock later usable
  have same : ∀ m, s.mySeq.lastM = some m → m = ((Header.plain).m == 1) := by
    rintro (_ | _) hm
    · rfl
    · exact absurd hm interlock
  rw [gate_eq_gateTimed p .plain s who absent slot0 rfl rfl later same, gateTimed_plain, gateReady_plain p s stamp pops pushes usable]

end Sys2Proof.Machine

/-! SUPPORT. Control transfers: where each goes, and when it traps (R28, R74, R75, R113, R155). -/

namespace Sys2Proof.Machine
open Sys2Proof Sys2Proof.Safety

/-! ### Acceptance of a target after the word's own effect -/

theorem okTarget_mapMySeq (s : State) (f : Sequencer → Sequencer) (t : Word) (hf : ∀ r, (f r).recovery = r.recovery) :
    okTarget (s.mapMySeq f) t ↔ okTarget s t := by
  refine okTarget_mapMe s _ t (fun q => ?_)
  by_cases h : q = s.cur.seq
  · subst h
    rw [Core.seq_mapSeq_same, hf]
  · rw [Core.seq_mapSeq_other _ _ _ _ h]

theorem Core.popOutcome_seq_recovery (k : Core) (p q : SeqId) : ((k.popOutcome p).seq q).recovery = (k.seq q).recovery := by
  cases p <;> cases q <;> rfl

theorem Core.popOutcome_seq_pc (k : Core) (p q : SeqId) : ((k.popOutcome p).seq q).pc = (k.seq q).pc := by
  cases p <;> cases q <;> rfl

/-- The state after slot 0's BRQ has popped an outcome. -/
def State.brqPopped (s : State) (b : Bool) : State :=
  s.mapMe (fun k => { k.popOutcome s.cur.seq with round := { k.round with outcome := b } })

theorem State.brqPopped_pc (s : State) (b : Bool) : (s.brqPopped b).pc = s.pc := by
  simp only [State.brqPopped, State.pc, State.mySeq, State.me_mapMe, State.mapMe_cur]
  exact Core.popOutcome_seq_pc _ _ _

theorem okTarget_brqPopped (s : State) (b : Bool) (t : Word) : okTarget (s.brqPopped b) t ↔ okTarget s t :=
  okTarget_mapMe s _ t (fun q => Core.popOutcome_seq_recovery _ _ q)

/-! ### J, B, LOOP, JR and BRQ -/

theorem cond_beq_one (o : JmpOps) : (o.cond == 1) = decide (o.cond.toNat = 1) := by
  rw [Bool.beq_eq_decide_eq]
  exact decide_eq_decide.mpr ⟨fun e => by rw [e]; rfl, fun e => BitVec.eq_of_toNat_eq e⟩

section
variable (h : Header) (o : JmpOps) (s : State)

theorem execLoop_body (g : gate (Issue.scalar [o.dg] [o.dg]) h s = .go) :
    exec (.loop h o) s =
      if s.g o.dg = 0 then went (Issue.scalar [o.dg] [o.dg]) h s (s.pc + 16)
      else if s.g o.dg = 1 then went (Issue.scalar [o.dg] [o.dg]) h (s.setG o.dg (s.g o.dg - 1)) (s.pc + 16)
      else if s.badTarget (s.dispTarget o.disp) = true then
        .next (s.trapCopy (Issue.scalar [o.dg] [o.dg]) h (.virt .alignment (s.dispTarget o.disp).toNat 3))
      else jumped (Issue.scalar [o.dg] [o.dg]) h (s.setG o.dg (s.g o.dg - 1)) (s.dispTarget o.disp) := by
  have one : s.g o.dg - 1 = 0 ↔ s.g o.dg = 1 := sub_eq_zero
  rw [exec_loop, execLoop]
  by_cases c0 : s.g o.dg = 0
  · rw [if_pos c0]
    exact issueWord_went_everySlot _ h _ s _ _ rfl g (by simp only [c0, if_true, State.pc16])
  · rw [if_neg c0]
    by_cases c1 : s.g o.dg = 1
    · rw [if_pos c1]
      exact issueWord_went_everySlot _ h _ s _ _ rfl g (by
        simp only [c1, sub_self, ne_eq, not_true_eq_false, if_false, State.pc16]
        rfl)
    · rw [if_neg c1]
      by_cases bad : s.badTarget (s.dispTarget o.disp) = true
      · rw [if_pos bad]
        exact issueWord_trapped_everySlot _ h _ s _ rfl g (by
          simp only [c0, one, c1, transfer, targetTrap, bad, ne_eq, not_false_eq_true, if_true, if_false])
      · rw [if_neg bad]
        exact issueWord_jumped_everySlot _ h _ s _ _ rfl g (by
          simp only [c0, one, c1, transfer, bad, ne_eq, not_false_eq_true, if_true, if_false, Bool.false_eq_true])

theorem execBrq_popped (slot0 : s.cur.slot = 0) (b : Bool) (hb : s.me.outcomeHead s.cur.seq s.cycle = some b)
    (g : gate (Issue.scalar [] []) h s = .go) :
    exec (.brq h o) s =
      if b = decide (o.cond.toNat = 1) then
        if s.badTarget (s.dispTarget o.disp) = true then
          .next (s.trapCopy (Issue.scalar [] []) h (.virt .alignment (s.dispTarget o.disp).toNat 3))
        else jumped (Issue.scalar [] []) h (s.brqPopped b) (s.dispTarget o.disp)
      else went (Issue.scalar [] []) h (s.brqPopped b) (s.pc + 16) := by
  have target : (s.brqPopped b).dispTarget o.disp = s.dispTarget o.disp := by rw [State.dispTarget, State.dispTarget, s.brqPopped_pc]
  have accepted : (s.brqPopped b).badTarget (s.dispTarget o.disp) = s.badTarget (s.dispTarget o.disp) := by
    by_cases ok : okTarget s (s.dispTarget o.disp)
    · rw [s.badTarget_of_ok _ ok, State.badTarget_of_ok _ _ ((okTarget_brqPopped s b _).mpr ok)]
    · rw [s.badTarget_of_not_ok _ ok, State.badTarget_of_not_ok _ _ (mt (okTarget_brqPopped s b _).mp ok)]
  have next : (s.brqPopped b).pc16 = s.pc + 16 := by rw [State.pc16, s.brqPopped_pc]
  have branch : ∀ e : Eff, (if b = (o.cond == 1) then transfer (s.brqPopped b) ((s.brqPopped b).dispTarget o.disp) (s.brqPopped b)
      else .done (s.brqPopped b) (s.brqPopped b).pc16) = e →
      exec (.brq h o) s = issueWord (Issue.scalar [] []) h (fun _ => e) s := by
    intro e he
    simp only [exec_brq, execBrq, issueWord, g, slot0, hb, ← he, State.brqPopped, if_true]
  rw [branch _ rfl, cond_beq_one o]
  simp only [target, next, transfer, targetTrap, accepted]
  split
  · split
    · exact issueWord_trapped_everySlot _ h _ s _ rfl g rfl
    · exact issueWord_jumped_everySlot _ h _ s _ _ rfl g rfl
  · exact issueWord_went_everySlot _ h _ s _ _ rfl g rfl

end

/-- Settles O7: a transfer whose target is accepted is taken (`transfer_ok`), any other word goes on. -/
theorem transferWords : Obligations.TransferWords := by
  unfold Obligations.TransferWords
  intro h o s target c
  refine ⟨fun g ok => ?j, fun g ok => ?b, fun g ok => ?loop, fun g ok => ?jr, fun b g ok slot0 hb => ?brq⟩
  case j => exact (exec_j h o s).trans (issueWord_jumped_everySlot _ h _ s _ _ rfl g (transfer_ok s _ s ok))
  case b =>
    split
    · refine (exec_b h o s).trans (issueWord_jumped_everySlot _ h _ s _ _ rfl g ?_)
      simp only [*, if_true]
      exact transfer_ok s _ s ok
    · refine (exec_b h o s).trans (issueWord_went_everySlot _ h _ s _ _ rfl g ?_)
      simp only [*]
      rfl
  case loop =>
    rw [execLoop_body h o s g, s.badTarget_of_ok (s.dispTarget o.disp) ok]
    rfl
  case jr => exact (exec_jr h o s).trans (issueWord_jumped_everySlot _ h _ s _ _ rfl g (transfer_ok s _ s ok))
  case brq =>
    rw [execBrq_popped h o s slot0 b hb g, s.badTarget_of_ok (s.dispTarget o.disp) ok]
    rfl

/-! ### Calls and returns -/

theorem callTo_ok (o : JmpOps) (s : State) (t : Word) (slot0 : s.cur.slot = 0) (ok : okTarget s t) (room : s.mySeq.shadow.length < 64) :
    callTo o s t = .jump ((s.mapMySeq (fun r => { r with shadow := (s.pc + 16) :: r.shadow })).setG o.dg (s.pc + 16)) t := by
  simp only [callTo, s.badTarget_of_ok t ok, not_le.mpr room, and_false, State.pushShadow, State.pc16, slot0, if_true, if_false,
    Bool.false_eq_true]

theorem callTo_bad (o : JmpOps) (s : State) (t : Word) (bad : ¬okTarget s t) : callTo o s t = .trap (.virt .alignment t.toNat 3) := by
  simp only [callTo, targetTrap, s.badTarget_of_not_ok t bad, if_true]

theorem callTo_full (o : JmpOps) (s : State) (t : Word) (slot0 : s.cur.slot = 0) (ok : okTarget s t) (full : 64 ≤ s.mySeq.shadow.length) :
    callTo o s t = .trap (.bare .controlIntegrity) := by
  simp only [callTo, s.badTarget_of_ok t ok, slot0, full, and_self, if_true, if_false, Bool.false_eq_true]

/-- Settles O8: calls by `callTo_ok`; a return pops the shadow stack, which changes no target's acceptance. -/
theorem callWords : Obligations.CallWords := by
  unfold Obligations.CallWords
  intro h o s slot0 target pushed
  refine ⟨fun g ok room => ?_, fun g ok room => ?_, fun t rest g hs ht ok quiet => ?_⟩
  · exact (exec_call h o s).trans (issueWord_jumped_everySlot _ h _ s _ _ rfl g (callTo_ok o s _ slot0 ok room))
  · exact (exec_callr h o s).trans (issueWord_jumped_everySlot _ h _ s _ _ rfl g (callTo_ok o s _ slot0 ok room))
  · refine (exec_ret h o s).trans (issueWord_jumped_everySlot _ h _ s _ _ rfl g ?_)
    subst ht
    simp only [slot0, hs, s.badTarget_of_ok _ ok, quiet, ne_eq, not_true_eq_false, false_and, if_false, Bool.false_eq_true]
    exact transfer_ok s _ _ ok

/-! ### Transfers that trap -/

theorem exec_eret_eq (h : Header) (i : ImmOps) (s : State) :
    exec (.eret h i) s = issueWord (Issue.scalar [] []) h (fun s => transfer s s.mySeq.epc
      (s.mapMe (fun k => if s.cur.slot = 0 then (s.mySeq.resumes.foldl (fun k p => k.resume p) k).mapSeq s.cur.seq
        (fun r => { r with inHandler := false, recovery := r.recovery - 1, resumes := [] }) else k))) s := rfl

section
variable (h : Header) (o : JmpOps) (s : State) (slot0 : s.cur.slot = 0)
include slot0

theorem execRet_trap (i : FaultInfo) (g : gate (Issue.scalar [o.ag] []) h s = .go)
    (hi : (match s.mySeq.shadow with
      | [] => i = .bare .controlIntegrity
      | t :: _ => (¬okTarget s t ∧ i = .virt .alignment t.toNat 3) ∨ (okTarget s t ∧ t ≠ s.g o.ag ∧ i = .bare .controlIntegrity))) :
    exec (.ret h o) s = .next (s.trapCopy (Issue.scalar [o.ag] []) h i) := by
  refine (exec_ret h o s).trans (issueWord_trapped_everySlot _ h _ s _ rfl g ?_)
  cases hs : s.mySeq.shadow with
  | nil =>
    rw [hs] at hi
    simp only [slot0, hi, ne_eq, not_true_eq_false, if_false]
  | cons t rest =>
    rw [hs] at hi
    rcases hi with ⟨bad, rfl⟩ | ⟨ok, other, rfl⟩
    · simp only [slot0, s.badTarget_of_not_ok t bad, targetTrap, ne_eq, not_true_eq_false, if_true, if_false]
    · simp only [slot0, s.badTarget_of_ok t ok, other, ne_eq, not_true_eq_false, not_false_eq_true, if_true, if_false,
        Bool.false_eq_true]

theorem execLoopp_zero_bad (g : gate { Issue.scalar [o.ag] [o.dg] with noSpec := true } h s = .go) (zero : s.g o.ag = 0)
    (bad : ¬okTarget s (s.dispTarget o.disp)) :
    exec (.loopp h o) s = .next (s.trapCopy { Issue.scalar [o.ag] [o.dg] with noSpec := true } h
      (.virt .alignment (s.dispTarget o.disp).toNat 3)) := by
  refine (exec_loopp h o s).trans (issueWord_trap _ h _ s _ g (by simp [slot0]) ?_)
  simp only [zero]
  exact transfer_bad s _ _ bad

theorem execBrp_bad (g : gate { Issue.scalar [o.dg] [o.dg] with noSpec := true } h s = .go)
    (more : (s.g o.dg).toNat % 2 ^ 32 + 1 < (s.g o.dg).toNat / 2 ^ 32 + o.imm.toNat % 256 - 1)
    (bad : ¬okTarget s (s.dispTarget o.disp)) :
    exec (.brp h o) s = .next (s.trapCopy { Issue.scalar [o.dg] [o.dg] with noSpec := true } h
      (.virt .alignment (s.dispTarget o.disp).toNat 3)) := by
  refine (exec_brp h o s).trans (issueWord_trap _ h _ s _ g (by simp [slot0]) ?_)
  simp only [more, if_true]
  exact transfer_bad s _ _ bad

end

/-- Settles O9: a target that is not accepted raises the alignment trap (`transfer_bad`, `callTo_bad`), before the checks of the shadow stack
(`callTo_full`, `execRet_trap`). -/
theorem transferTraps : Obligations.TransferTraps := by
  unfold Obligations.TransferTraps
  intro h o s slot0 p p0 pd pr pb pl plp pbrp target trapped bad
  refine ⟨fun hb => ⟨fun g => ?jr, fun g => ?callr⟩, fun t rest g hs hb => ?retTarget, fun i g hb => ?eret,
    fun hb => ⟨fun g => ?j, fun g hc => ?b, fun g hq => ?brq, fun g => ?call, fun g c0 c1 => ?loop, fun g z => ?loopp, fun g more => ?brp⟩,
    fun full => ⟨fun g ok => ?callFull, fun g ok => ?callrFull⟩, fun g hs => ?retEmpty, fun t rest g hs ok other => ?retOther⟩
  case jr => exact (exec_jr h o s).trans (issueWord_trapped_everySlot _ h _ s _ rfl g (transfer_bad s _ _ hb))
  case callr => exact (exec_callr h o s).trans (issueWord_trapped_everySlot _ h _ s _ rfl g (callTo_bad o s _ hb))
  case retTarget => exact execRet_trap h o s slot0 _ g (by rw [hs]; exact .inl ⟨hb, rfl⟩)
  case eret =>
    exact (exec_eret_eq h i s).trans (issueWord_trapped_everySlot _ h _ s _ rfl g (transfer_bad s _ _ hb))
  case j => exact (exec_j h o s).trans (issueWord_trapped_everySlot _ h _ s _ rfl g (transfer_bad s _ _ hb))
  case b =>
    refine (exec_b h o s).trans (issueWord_trapped_everySlot _ h _ s _ rfl g ?_)
    simp only [hc, if_true]
    exact transfer_bad s _ _ hb
  case brq =>
    rw [execBrq_popped h o s slot0 _ hq g, if_pos (cond_beq_one o), if_pos (s.badTarget_of_not_ok (s.dispTarget o.disp) hb)]
    rfl
  case call => exact (exec_call h o s).trans (issueWord_trapped_everySlot _ h _ s _ rfl g (callTo_bad o s _ hb))
  case loop =>
    rw [execLoop_body h o s g, if_neg c0, if_neg c1, if_pos (s.badTarget_of_not_ok (s.dispTarget o.disp) hb)]
    rfl
  case loopp => exact execLoopp_zero_bad h o s slot0 g z hb
  case brp => exact execBrp_bad h o s slot0 g more hb
  case callFull => exact (exec_call h o s).trans (issueWord_trapped_everySlot _ h _ s _ rfl g (callTo_full o s _ slot0 ok full))
  case callrFull => exact (exec_callr h o s).trans (issueWord_trapped_everySlot _ h _ s _ rfl g (callTo_full o s _ slot0 ok full))
  case retEmpty => exact execRet_trap h o s slot0 _ g (by rw [hs])
  case retOther => exact execRet_trap h o s slot0 _ g (by rw [hs]; exact .inr ⟨ok, other, rfl⟩)

end Sys2Proof.Machine

/-! SUPPORT. Pipelined loops (R155), control and status registers (R44 to R46, R127), and the system words (R128, R129). -/

namespace Sys2Proof.Machine
open Sys2Proof Sys2Proof.Safety

/-! ### Stage predicates (R155) -/

/-- The number whose bits below n are those at which p holds. -/
theorem sum_two_pow_testBit (p : Nat → Bool) (n : Nat) :
    (((List.range n).filter p).map (fun j => 2 ^ j)).sum < 2 ^ n ∧
      ∀ j, (((List.range n).filter p).map (fun j => 2 ^ j)).sum.testBit j = (decide (j < n) && p j) := by
  induction n with
  | zero => simp
  | succ n ih =>
    obtain ⟨bound, bits⟩ := ih
    have step : (((List.range (n + 1)).filter p).map (fun j => 2 ^ j)).sum =
        2 ^ n * (if p n then 1 else 0) + (((List.range n).filter p).map (fun j => 2 ^ j)).sum := by
      cases hp : p n <;> simp [List.range_succ, hp, Nat.add_comm]
    rw [step]
    refine ⟨?_, fun j => ?_⟩
    · split <;> omega
    · rw [Nat.testBit_two_pow_mul_add _ bound, bits]
      rcases lt_trichotomy j n with h | rfl | h
      · simp [h, Nat.lt_succ_of_lt h]
      · cases p j <;> simp
      · have far : (if p n then 1 else 0 : Nat).testBit (j - n) = false := by
          obtain ⟨k, hk⟩ : ∃ k, j - n = k + 1 := ⟨j - n - 1, by omega⟩
          rw [hk]
          split <;> simp [Nat.testBit_succ]
        simp [far, not_lt.mpr h.le, show ¬j < n + 1 by omega]

theorem stagePredicates_getLsbD (t p st j : Nat) (hj : j < 16) :
    (stagePredicates t p st).getLsbD j = true ↔ j < st ∧ j ≤ p ∧ p - j < t := by
  have bits := (sum_two_pow_testBit (fun j => decide (j < st) && decide (j ≤ p) && decide (p - j < t)) 16).2 j
  rw [stagePredicates, BitVec.getLsbD_ofNat, bits]
  simp [hj, and_assoc]

/-- Settles O10: LOOPP and BRP by their bodies, with an accepted target (`transfer_ok`), the predicates by `stagePredicates_getLsbD`. -/
theorem pipelinedLoopWords : Obligations.PipelinedLoopWords := by
  unfold Obligations.PipelinedLoopWords
  intro h o s slot0 target ok
  refine ⟨fun g => ⟨fun t0 => ?_, fun t0 small => ?_, fun big => ?_⟩, fun g => ⟨_, rfl, fun more => ?_, fun last => ?_⟩⟩
  · refine (exec_loopp h o s).trans (issueWord_jumped _ h _ s _ _ g slot0 ?_)
    simp only [t0]
    exact transfer_ok s _ _ ok
  · refine (exec_loopp h o s).trans (issueWord_went _ h _ s _ _ g slot0 ?_)
    simp only [t0, not_lt.mpr small, if_false, State.pc16]
  · refine (exec_loopp h o s).trans (issueWord_trap _ h _ s _ g (by simp [slot0]) ?_)
    simp only [big, if_true]
  · refine ⟨_, fun j hj => stagePredicates_getLsbD _ _ _ j hj, (exec_brp h o s).trans (issueWord_jumped _ h _ s _ _ g slot0 ?_)⟩
    simp only [more, if_true]
    exact transfer_ok s _ _ ok
  · refine (exec_brp h o s).trans (issueWord_went _ h _ s _ _ g slot0 ?_)
    simp only [not_lt.mpr last, if_false, State.pc16]

/-! ### Control and status registers -/

/-- The numbers of the table of R44. -/
def csrNumbers : List Nat :=
  [0x000, 0x001, 0x002, 0x008, 0x009, 0x00A, 0x010, 0x011, 0x012, 0x018, 0x019, 0x01A, 0x01B, 0x020, 0x028, 0x029, 0x030, 0x031, 0x032,
    0x038, 0x040, 0x041, 0x042]

/-- A write of a register that the table lets the sequencer write, with a value that it takes (R30, R44, R45). -/
def State.mayWriteCsr (s : State) (n : Nat) (x : Word) : Prop :=
  n ∈ [0x00A, 0x010, 0x011, 0x012, 0x01B, 0x030, 0x031, 0x032] ∨ (n = 0x009 ∧ s.cur.seq = .x) ∨
    (n = 0x008 ∧ x.toNat / 16 % 16 ≠ 0 ∧ x.toNat % 8 < 4)

theorem State.csr_isSome_iff (s : State) (n : Nat) : (s.csr n).isSome = true ↔ n ∈ csrNumbers := by
  unfold State.csr csrNumbers
  split <;> simp_all

theorem State.writeCsr_isSome_iff (s : State) (n : Nat) (x : Word) : (s.writeCsr n x).isSome = true ↔ s.mayWriteCsr n x := by
  unfold State.writeCsr State.mayWriteCsr
  split
  case h_1 =>
    split
    case isTrue hb => simp; omega
    case isFalse hb => simp; omega
  case h_2 => split <;> simp_all
  all_goals simp_all

theorem State.csr_some_of_mayWrite (s : State) (n : Nat) (x : Word) (w : s.mayWriteCsr n x) : ∃ v, s.csr n = some v := by
  refine Option.isSome_iff_exists.mp ((s.csr_isSome_iff n).mpr ?_)
  rcases w with w | ⟨rfl, -⟩ | ⟨rfl, -, -⟩
  · revert w
    simp only [List.mem_cons, List.not_mem_nil, or_false]
    rintro (rfl | rfl | rfl | rfl | rfl | rfl | rfl | rfl) <;> decide
  · decide
  · decide

theorem State.writeCsr_none_of_not (s : State) (n : Nat) (x : Word) (w : ¬s.mayWriteCsr n x) : s.writeCsr n x = none :=
  Option.not_isSome_iff_eq_none.mp (mt (s.writeCsr_isSome_iff n x).mp w)

section
variable (h : Header) (o : ImmOps) (s : State)

theorem execCsrr_wrote (v : Word) (g : gate (Issue.scalar [] [o.dg]) h s = .go) (hv : s.csr o.imm.toNat = some v) :
    exec (.csrr h o) s = wrote (Issue.scalar [] [o.dg]) h s o.dg v :=
  (exec_csrr h o s).trans (issueWord_wrote _ h _ s o.dg v rfl g (by simp only [hv]))

theorem execCsrr_illegal (g : gate (Issue.scalar [] [o.dg]) h s = .go) (hv : s.csr o.imm.toNat = none) :
    exec (.csrr h o) s = .next (s.trapCopy (Issue.scalar [] [o.dg]) h (.bare .illegal)) :=
  (exec_csrr h o s).trans (issueWord_trapped_everySlot _ h _ s _ rfl g (by simp only [hv]))

end

/-- Which CSR words complete, and what the others come to (R44, R127). -/
theorem csrWords_complete (h : Header) (o : ImmOps) (s : State) (slot0 : s.cur.slot = 0) :
    let n := o.imm.toNat
    let x := s.g o.ag
    let pr := Issue.scalar [] [o.dg]
    let pw : Issue := { Issue.scalar [o.ag] [] with noSpec := true }
    let px : Issue := { Issue.scalar [o.ag] [o.dg] with noSpec := true }
    (gate pr h s = .go →
      (n ∈ csrNumbers → ∃ v, s.csr n = some v ∧ exec (.csrr h o) s = wrote pr h s o.dg v) ∧
      (n ∉ csrNumbers → exec (.csrr h o) s = .next (s.trapCopy pr h (.bare .illegal)))) ∧
    (gate pw h s = .go →
      (s.mayWriteCsr n x → ∃ t, s.writeCsr n x = some t ∧ exec (.csrw h o) s = went pw h t (s.pc + 16)) ∧
      (¬s.mayWriteCsr n x → exec (.csrw h o) s = .next (s.trapCopy pw h (.bare .illegal)))) ∧
    (gate px h s = .go →
      (s.mayWriteCsr n x → ∃ v t, s.csr n = some v ∧ s.writeCsr n x = some t ∧
        exec (.csrx h o) s = went px h (t.setG o.dg v) (s.pc + 16)) ∧
      (¬s.mayWriteCsr n x → exec (.csrx h o) s = .next (s.trapCopy px h (.bare .illegal)))) := by
  intro n x pr pw px
  refine ⟨fun g => ⟨fun w => ?_, fun w => ?_⟩, fun g => ⟨fun w => ?_, fun w => ?_⟩, fun g => ⟨fun w => ?_, fun w => ?_⟩⟩
  · obtain ⟨v, hv⟩ := Option.isSome_iff_exists.mp ((s.csr_isSome_iff n).mpr w)
    exact ⟨v, hv, execCsrr_wrote h o s v g hv⟩
  · exact execCsrr_illegal h o s g (Option.not_isSome_iff_eq_none.mp (mt (s.csr_isSome_iff n).mp w))
  · obtain ⟨t, ht⟩ := Option.isSome_iff_exists.mp ((s.writeCsr_isSome_iff n x).mpr w)
    exact ⟨t, ht, (exec_csrw h o s).trans (issueWord_went _ h _ s _ _ g slot0 (by simp only [n, x] at ht; simp only [ht, State.pc16]))⟩
  · have ht := s.writeCsr_none_of_not n x w
    exact (exec_csrw h o s).trans (issueWord_trap _ h _ s _ g (by simp [slot0]) (by simp only [n, x] at ht; simp only [ht]))
  · obtain ⟨t, ht⟩ := Option.isSome_iff_exists.mp ((s.writeCsr_isSome_iff n x).mpr w)
    obtain ⟨v, hv⟩ := s.csr_some_of_mayWrite n x w
    refine ⟨v, t, hv, ht, (exec_csrx h o s).trans (issueWord_went _ h _ s _ _ g slot0 ?_)⟩
    simp only [n, x] at ht hv
    simp only [hv, ht, State.pc16]
  · have ht := s.writeCsr_none_of_not n x w
    refine (exec_csrx h o s).trans (issueWord_trap _ h _ s _ g (by simp [slot0]) ?_)
    simp only [n, x] at ht
    simp only [ht]
    split <;> simp_all

/-! ### What a register holds after a write (R44 to R46) -/

/-- A field of n low bits reads as the word's under their mask. -/
theorem ofNat_toNat_ofNat_eq_and (n : Nat) (x : Word) :
    BitVec.ofNat 64 (BitVec.ofNat n x.toNat).toNat = x &&& BitVec.ofNat 64 (2 ^ n - 1) := by
  apply BitVec.eq_of_getLsbD_eq
  intro i hi
  rw [BitVec.toNat_ofNat, BitVec.getLsbD_and, BitVec.getLsbD_ofNat, BitVec.getLsbD_ofNat, Nat.testBit_mod_two_pow,
    Nat.testBit_two_pow_sub_one, BitVec.testBit_toNat]
  cases x.getLsbD i <;> simp [hi]

theorem ofNat_toNat_or (n : Nat) (x y : BitVec n) :
    BitVec.ofNat 64 (x ||| y).toNat = BitVec.ofNat 64 x.toNat ||| y.setWidth 64 := by
  apply BitVec.eq_of_getLsbD_eq
  intro i hi
  simp [hi]

/-- DOMAIN's bits are those under 0xF7. -/
theorem domain_bits (x : Word) : BitVec.ofNat 64 (BitVec.ofNat 8 (x.toNat % 256) &&& 0xF7).toNat = x &&& 0xF7 := by
  apply BitVec.eq_of_toNat_eq
  have h : x.toNat % 256 &&& 0xF7 = x.toNat &&& 0xF7 := by
    apply Nat.eq_of_testBit_eq
    intro i
    rw [Nat.testBit_and, Nat.testBit_and, show 256 = 2 ^ 8 from rfl, Nat.testBit_mod_two_pow]
    by_cases hi : i < 8
    · simp [hi]
    · have high : (0xF7 : Nat).testBit i = false :=
        Nat.testBit_lt_two_pow ((by decide : 0xF7 < 2 ^ 8).trans_le (Nat.pow_le_pow_right (by decide) (by omega)))
      simp [high]
  have small : x.toNat &&& 0xF7 < 2 ^ 64 := Nat.and_lt_two_pow _ (by decide)
  have c8 : (0xF7 : BitVec 8).toNat = 0xF7 := rfl
  have c64 : (0xF7 : Word).toNat = 0xF7 := rfl
  rw [BitVec.toNat_ofNat, BitVec.toNat_and, BitVec.toNat_and, BitVec.toNat_ofNat, show 2 ^ 8 = 256 from rfl, Nat.mod_mod, c8, c64, h]
  exact Nat.mod_eq_of_lt small

theorem setBool_and_one (x : Word) : (some (if x.getLsbD 0 then 1 else 0) : Option Word) = some (x &&& 1) := by
  congr 1
  apply BitVec.eq_of_getLsbD_eq
  intro i hi
  rw [BitVec.getLsbD_and]
  rcases i with _ | i
  · cases x.getLsbD 0 <;> rfl
  · cases x.getLsbD 0 <;> simp

/-- Settles O11: which words complete by `csrWords_complete`; the bits that each register keeps. -/
theorem csrWords : Obligations.CsrWords := by
  unfold Obligations.CsrWords
  refine ⟨fun h o s slot0 => csrWords_complete h o s slot0, fun s x => ?_⟩
  intro now
  refine ⟨rfl, rfl, rfl, rfl, rfl, ⟨_, rfl, fun hn => ?flags, fun hn => ?flagsNow⟩, ⟨_, rfl, ?frm⟩,
    ⟨_, rfl, fun hn => ?aovf, fun hn ha => ?aovfNow⟩, ⟨_, rfl, fun hn => ?drains⟩, ⟨_, rfl, ?sg⟩, ⟨_, rfl, ?tvec⟩, ⟨_, rfl, ?epc⟩,
    ⟨_, rfl, ?ecause⟩, fun hx => ?rrb, fun hx => if_neg hx, fun h1 h2 => ?domain, fun hb => if_pos hb⟩
  case flags =>
    have hn' : ¬s.me.raisedAt = s.cycle := hn
    simp only [State.csr, State.me_mapMe, hn', if_false]
    exact (congrArg (fun y : BitVec 5 => some (BitVec.ofNat 64 y.toNat)) BitVec.or_zero).trans
      (congrArg some (ofNat_toNat_ofNat_eq_and 5 x))
  case flagsNow =>
    have hn' : s.me.raisedAt = s.cycle := hn
    simp only [State.csr, State.me_mapMe, hn', if_true, ofNat_toNat_or]
    exact congrArg (fun y => some (y ||| s.me.raisedFlags.setWidth 64)) (ofNat_toNat_ofNat_eq_and 5 x)
  case frm =>
    simp only [State.csr, State.me_mapMe]
    exact congrArg some (ofNat_toNat_ofNat_eq_and 2 x)
  case aovf =>
    have hn' : ¬s.me.raisedAt = s.cycle := hn
    simp only [State.csr, State.me_mapMe, hn', decide_false, Bool.false_and, Bool.or_false]
    exact setBool_and_one x
  case aovfNow =>
    have hn' : s.me.raisedAt = s.cycle := hn
    simp only [State.csr, State.me_mapMe, hn', ha, decide_true, Bool.and_true, Bool.or_true, if_true]
  case drains =>
    have hn' : ¬s.me.raisedAt = s.cycle := hn
    simp only [State.csr, State.me_mapMe, hn', if_false]
    exact congrArg some (add_zero x)
  case sg =>
    simp only [State.csr, State.mySeq_mapMySeq]
    exact congrArg some (ofNat_toNat_ofNat_eq_and 16 x)
  case tvec => simp only [State.csr, State.mySeq_mapMySeq]
  case epc => simp only [State.csr, State.mySeq_mapMySeq]
  case ecause => simp only [State.csr, State.mySeq_mapMySeq]
  case rrb =>
    refine ⟨_, if_pos hx, ?_⟩
    simp only [State.csr, State.me_mapMe]
    exact congrArg some (ofNat_toNat_ofNat_eq_and 9 x)
  case domain =>
    refine ⟨_, if_neg (by omega), ?_⟩
    simp only [State.csr, State.me_mapMe]
    exact congrArg some (domain_bits x)

/-! ### TRAP, ERET, HALT, NOP and YIELD -/

/-- Settles O12: each word by its body in slot 0; YIELD's by the tile and whether another queue outranks it. -/
theorem systemWords : Obligations.SystemWords := by
  unfold Obligations.SystemWords
  intro h o s slot0 p ph
  refine ⟨fun g => ?trap, fun g ok => ?eret, fun g ready => ?halt, fun g => ?nop, fun g hq => ?yieldElsewhere,
    fun t g hq ht => ⟨fun hr => ?yieldAlone, fun hr => ?yield⟩⟩
  case trap => exact (exec_trap h o s).trans (issueWord_trapped_everySlot _ h _ s _ rfl g rfl)
  case eret =>
    refine (exec_eret_eq h o s).trans (issueWord_jumped _ h _ s _ _ g slot0 ?_)
    rw [transfer_ok s _ _ ok]
    simp only [slot0, if_true]
  case halt =>
    rw [exec_halt, execHalt]
    exact issueWord_went ph h _ s _ _ g slot0 (by simp only [ready, if_true])
  case nop => exact issueWord_went p h (fun s => .done s s.pc16) s _ _ g slot0 rfl
  case yieldElsewhere =>
    rw [exec_yield, execYield]
    refine issueWord_went p h _ s _ _ g slot0 ?_
    cases ht : s.me.tile <;> simp only [hq, false_and, if_false, State.pc16]
  case yieldAlone =>
    rw [exec_yield, execYield]
    refine issueWord_went p h _ s _ _ g slot0 ?_
    simp only [ht, hr, Bool.false_eq_true, and_false, if_false, State.pc16]
  case yield =>
    rw [exec_yield, execYield]
    refine issueWord_went p h _ s _ _ g slot0 ?_
    simp only [ht, hq, hr, and_self, if_true, State.pc16]

end Sys2Proof.Machine

/-! SUPPORT. Masks (R126), the taking of traps (R94, R363), g0 (R27), what reset leaves, and that words never stop the machine. -/

namespace Sys2Proof.Machine
open Sys2Proof Sys2Proof.Safety

/-! ### Masks -/

/-- A mask word that passes the checks acts where no compare holds CM. -/
theorem maskWord_went (h : Header) (lat : Nat) (srcs dsts masks : List (BitVec 6)) (f : State → State) (s : State)
    (quiet : s.me.cmAwaited s.cycle = false) (g : gate { Issue.scalar srcs dsts with who := [.x], lat := lat } h s = .go) :
    maskWord h lat srcs dsts masks f s = went { Issue.scalar srcs dsts with who := [.x], lat := lat } h (f s) (s.pc + 16) :=
  issueWord_went_everySlot _ h _ s _ _ rfl g (by simp only [quiet, Bool.and_false, Bool.false_eq_true, if_false, State.pc16])

/-- The mask whose first min(n, 1,024) bits are set (R126). -/
theorem firstBits_getLsbD (n i : Nat) :
    (BitVec.ofNat 1024 (2 ^ (if n < 1024 then n else 1024) - 1)).getLsbD i = (decide (i < 1024) && decide (i < n)) := by
  rw [BitVec.getLsbD_ofNat, Nat.testBit_two_pow_sub_one]
  split
  · rfl
  · rcases Nat.lt_or_ge i 1024 with hi | hi
    · simp [hi, show i < n by omega]
    · simp [not_lt.mpr hi]

/-- Settles O14: each is a mask word (`maskWord_went`); MSET's bits by `firstBits_getLsbD`, MCNT's count by `onesNat_eq`. -/
theorem maskWords : Obligations.MaskWords := by
  unfold Obligations.MaskWords
  intro h o s quiet m p ps pc sets
  refine ⟨fun g => ?copies, fun g => ⟨_, firstBits_getLsbD _, ?mset⟩, fun g => ?mcnt⟩
  case copies =>
    exact
      ⟨(exec_msave h o s).trans (maskWord_went h 1 [] [] _ _ s quiet g),
       (exec_mrest h o s).trans (maskWord_went h 1 [] [] _ _ s quiet g),
       (exec_mand h o s).trans (maskWord_went h 1 [] [] _ _ s quiet g),
       (exec_mor h o s).trans (maskWord_went h 1 [] [] _ _ s quiet g),
       (exec_mxor h o s).trans (maskWord_went h 1 [] [] _ _ s quiet g),
       (exec_mnot h o s).trans (maskWord_went h 1 [] [] _ _ s quiet g)⟩
  case mset => exact (exec_mset h o s).trans (maskWord_went h 1 [o.cg] [] [o.dg] _ s quiet g)
  case mcnt =>
    rw [exec_mcnt, execMcnt, maskWord_went h 2 [] [o.cg] [o.ag] _ s quiet g, onesNat_eq]
    rfl

/-! ### Taking a trap -/

theorem State.raiseCause_unrecorded (s : State) (core : Nat) (seq : SeqId) (unit : Nat) (rep : Bool) (pc : Word) (i : FaultInfo)
    (hi : i.cause.recorded = false) : s.raiseCause core seq unit rep pc i = (s, ecauseOf i.cause rep i.loc.info false, none) := by
  have other : i.cause ≠ .dataError := fun e => by rw [e] at hi; cases hi
  simp only [State.raiseCause, hi, other, false_and, Bool.false_eq_true, if_false]

/-- The taking of a trap forgets the page walks that its word has made. -/
def Core.forgetWalks (k : Core) : Core := { k with walkFaults := [] }

@[simp] theorem Core.forgetWalks_seq (k : Core) (q : SeqId) : k.forgetWalks.seq q = k.seq q := by cases q <;> rfl

/-- The state in which a trap without a record enters its handler. -/
theorem State.takeTrap_unrecorded (s : State) (i : FaultInfo) (hi : i.cause.recorded = false) :
    s.takeTrap i = (s.mapMe Core.forgetWalks).enterHandler s.cur.core s.cur.seq s.pc
      (ecauseOf i.cause false i.loc.info false) [] := by
  have pc : (s.mapMe Core.forgetWalks).pc = s.pc := by
    simp only [State.pc, State.mySeq, State.me_mapMe, State.mapMe_cur, Core.forgetWalks_seq]
  simp only [State.takeTrap, s.raiseCause_unrecorded _ _ _ _ _ i hi]
  rw [← pc]
  rfl

theorem State.enterHandler_noHandler (s : State) (core : Nat) (q : SeqId) (epc ecause : Word) (resumes : List Nat)
    (htvec : ((s.core core).seq q).tvec = 0) : s.enterHandler core q epc ecause resumes = s.mapCore core Core.kill := by
  simp only [State.enterHandler, htvec, if_true]

@[simp] theorem State.noteCount_cores (s : State) (n : Nat) : (s.noteCount n).cores = s.cores := by
  unfold State.noteCount
  split <;> rfl

@[simp] theorem State.noteCount_hbm (s : State) (n : Nat) : (s.noteCount n).hbm = s.hbm := by
  unfold State.noteCount
  split <;> rfl

@[simp] theorem State.noteCount_l2 (s : State) (n : Nat) : (s.noteCount n).l2 = s.l2 := by
  unfold State.noteCount
  split <;> rfl

@[simp] theorem State.noteCount_chron (s : State) (n : Nat) : (s.noteCount n).chron = s.chron := by
  unfold State.noteCount
  split <;> rfl

/-- A retracted count changes what the neighbours see only. -/
theorem State.retractCount_keeps (s : State) (core : Nat) : (s.retractCount core).cores = s.cores ∧ (s.retractCount core).hbm = s.hbm ∧
    (s.retractCount core).l2 = s.l2 ∧ (s.retractCount core).chron = s.chron ∧ (s.retractCount core).cur = s.cur := by
  have cur : ∀ (t : State) (n : Nat), (t.noteCount n).cur = t.cur := fun t n => by
    unfold State.noteCount
    split <;> rfl
  unfold State.retractCount State.lowerPhase
  split
  · split <;> simp [State.forgetCount, cur]
  · exact ⟨rfl, rfl, rfl, rfl, rfl⟩

/-- The sequencer that enters its handler (R94, R363). -/
def Sequencer.entered (r : Sequencer) (epc ecause : Word) (resumes : List Nat) : Sequencer :=
  { r with epc := epc, ecause := ecause, pc := r.tvec, inHandler := true, recovery := if r.recovery ≠ 0 then r.recovery + 1 else 0,
           resumes := r.resumes ++ resumes, halted := false, segment := none, scattered := 0, drain := none, waitSince := none, waitOn := none }

/-- The core of a sequencer that enters its handler. -/
def Core.entered (k : Core) (q : SeqId) (epc ecause : Word) (resumes : List Nat) : Core :=
  ((k.abandon q).interrupt q epc).mapSeq q (fun r => r.entered epc ecause resumes)

theorem State.enterHandler_entered (s : State) (core : Nat) (q : SeqId) (epc ecause : Word) (resumes : List Nat)
    (htvec : ((s.core core).seq q).tvec ≠ 0) (loose : s.strict core = false) (uncovered : s.mgmt.sfctl.getLsbD 2 = false) :
    s.enterHandler core q epc ecause resumes =
      (if q = .c then s.retractCount core else s).mapCore core (fun k => k.entered q epc ecause resumes) := by
  simp only [State.enterHandler, htvec, loose, uncovered, Bool.false_and, Bool.or_self, Bool.false_eq_true, if_false, or_false]
  rfl

theorem Core.abandon_seq (k : Core) (p q : SeqId) : (k.abandon p).seq q = k.seq q := by
  unfold Core.abandon
  split
  · cases q <;> rfl
  · rfl

theorem Core.interrupt_seq (k : Core) (p q : SeqId) (epc : Word) : (k.interrupt p epc).seq q = k.seq q := by
  unfold Core.interrupt
  dsimp only
  split
  · cases q <;> rfl
  · rfl

theorem Core.entered_seq (k : Core) (q : SeqId) (epc ecause : Word) (resumes : List Nat) :
    (k.entered q epc ecause resumes).seq q = (k.seq q).entered epc ecause resumes := by
  rw [Core.entered, Core.seq_mapSeq_same, Core.interrupt_seq, Core.abandon_seq]

theorem State.strict_forgetWalks (s : State) (core : Nat) : (s.mapMe Core.forgetWalks).strict core = s.strict core := by
  have seqs : ∀ q, ((s.mapMe Core.forgetWalks).core core).seq q = (s.core core).seq q := fun q => by
    by_cases hc : core = s.cur.core
    · subst hc
      rw [show (s.mapMe Core.forgetWalks).core s.cur.core = _ from State.me_mapMe s _]
      exact s.me.forgetWalks_seq q
    · rw [show (s.mapMe Core.forgetWalks).core core = _ from State.core_setCore_other _ _ _ _ hc]
  simp only [State.strict, State.mapMe_mgmt, seqs]

/-- Settles O13: a cause without a record enters the handler at once (`State.takeTrap_unrecorded`), or ends the tile. -/
theorem trapEntry : Obligations.TrapEntry := by
  unfold Obligations.TrapEntry
  intro s i hi
  rw [s.takeTrap_unrecorded i hi]
  have here : (s.mapMe Core.forgetWalks).core s.cur.core = s.me.forgetWalks := State.me_mapMe s _
  have mine : ((s.mapMe Core.forgetWalks).core s.cur.core).seq s.cur.seq = s.mySeq := by
    rw [here, Core.forgetWalks_seq]
    rfl
  refine ⟨fun htvec => ?_, fun htvec loose uncovered => ?_⟩
  · rw [State.enterHandler_noHandler _ _ _ _ _ _ (by rw [mine, htvec])]
    have killed : ((s.mapMe Core.forgetWalks).mapCore s.cur.core Core.kill).me =
        Core.kill s.me.forgetWalks := by
      rw [← here]
      exact State.core_mapCore_same _ _ _
    simp only [State.mySeq, killed]
    refine ⟨rfl, ?_⟩
    show (Core.kill s.me.forgetWalks).seq s.cur.seq = s.me.seq s.cur.seq
    cases s.cur.seq <;> rfl
  · have enters := (s.mapMe Core.forgetWalks).enterHandler_entered s.cur.core s.cur.seq s.pc (ecauseOf i.cause false i.loc.info false) []
      (by rwa [mine]) (by rwa [s.strict_forgetWalks]) uncovered
    rw [enters]
    intro t
    obtain ⟨u, hu, ucores, uhbm, ul2, uchron, ucur⟩ : ∃ u : State,
        t = u.mapCore s.cur.core (fun k => k.entered s.cur.seq s.pc (ecauseOf i.cause false i.loc.info false) []) ∧
        u.cores = (s.mapMe Core.forgetWalks).cores ∧ u.hbm = s.hbm ∧ u.l2 = s.l2 ∧ u.chron = s.chron ∧
        u.cur = s.cur := by
      refine ⟨_, rfl, ?_⟩
      split
      · exact State.retractCount_keeps _ _
      · exact ⟨rfl, rfl, rfl, rfl, rfl⟩
    have ucore : ∀ c, u.core c = (s.mapMe Core.forgetWalks).core c := fun c => by
      rw [State.core, State.core, ucores]
    have entered : t.mySeq = s.mySeq.entered s.pc (ecauseOf i.cause false i.loc.info false) [] := by
      rw [hu, State.mySeq, State.me, State.mapCore_cur, ucur, State.core_mapCore_same, ucore, Core.entered_seq, mine]
    refine ⟨by rw [entered]; rfl, by rw [entered]; rfl, by rw [entered]; rfl, by rw [entered]; rfl, by rw [entered]; rfl,
      by rw [entered]; rfl, by rw [entered]; rfl, by rw [entered]; rfl, fun c hc => ?_, by rw [hu]; exact uhbm, by rw [hu]; exact ul2,
      by rw [hu]; exact uchron⟩
    rw [hu, State.core_mapCore_other _ _ _ _ hc, ucore]
    exact State.core_setCore_other _ _ _ _ hc

/-! ### g0 -/

theorem State.core_mapMySeq_id (s : State) (f : Sequencer → Sequencer) (hf : f s.mySeq = s.mySeq) (c : Nat) :
    (s.mapMySeq f).core c = s.core c := by
  by_cases hc : c = s.cur.core
  · subst hc
    rw [show (s.mapMySeq f).core s.cur.core = _ from State.me_mapMe s _, Core.mapSeq, show f (s.me.seq s.cur.seq) = s.me.seq s.cur.seq from hf]
    show Core.setSeq s.me s.cur.seq (s.me.seq s.cur.seq) = s.me
    cases s.cur.seq <;> rfl
  · exact State.core_setCore_other _ _ _ _ hc

/-- A write of g0 changes no core. -/
theorem State.core_setG_zero (s : State) (v : Word) (c : Nat) : (s.setG 0 v).core c = s.core c := by
  unfold State.setG
  split
  · exact s.core_mapMySeq_id _ (Sequencer.setG_zero _ _) c
  · rfl

/-- Settles O58: reads of g0 by definition, writes by `State.core_setG_zero`. -/
theorem gZero : Obligations.GZero := by
  unfold Obligations.GZero
  intro s v
  refine ⟨?_, ?_, ?_, fun c => s.core_setG_zero v c⟩
  · unfold State.g
    split <;> rfl
  · simp only [State.mySeq, State.me, State.setG_cur, s.core_setG_zero]
  · unfold State.setG
    split <;> rfl

/-! ### Reset -/

/-- Settles O59: nothing is listed at reset. -/
theorem resetMemoriesWf : Obligations.ResetMemoriesWf := ⟨Memory.wf_nil, Memory.wf_nil⟩

theorem Sequencer.getG_reset (n : Nat) : Sequencer.reset.getG n = 0 := by
  unfold Sequencer.getG
  split <;> rfl

theorem Core.seq_reset (q : SeqId) : Core.reset.seq q = Sequencer.reset := by cases q <;> rfl

/-- Settles O52: every core, queue, clock and port of the reset state is the one that its table lists by default. -/
theorem resetValues : Obligations.ResetValues := by
  unfold Obligations.ResetValues
  refine ⟨rfl, fun c q => ?_, fun c => ⟨rfl, rfl, rfl, rfl, rfl, rfl, fun _ => rfl⟩, fun _ => ⟨rfl, rfl⟩, fun _ => ⟨rfl, rfl⟩,
    fun _ => ⟨rfl, rfl⟩, rfl, rfl, rfl, rfl⟩
  rw [show (State.reset.core c).seq q = Sequencer.reset from Core.seq_reset q]
  exact ⟨rfl, Sequencer.getG_reset, rfl, rfl, rfl, rfl, rfl⟩

end Sys2Proof.Machine

/-! SUPPORT. A sequencer's turn up to the word that it carries out (R73, R76, R248, R363, R364). -/

namespace Sys2Proof.Machine
open Sys2Proof Sys2Proof.Safety

/-- The state in which a sequencer's word is fetched and carried out: its turn is taken from the agenda and counted. -/
def State.turnTaken (s : State) (core : Nat) (q : SeqId) (rest : List Turn) : State :=
  let k := s.core core
  let slot := if k.round.st = .running ∧ k.round.owner = q then k.round.nextSlot else 0
  let u : State := { s with agenda := rest, clock := s.clock + 1, cur := ⟨core, q, slot⟩ }
  u.mapMySeq (fun r => r.turn u.cycle)

/-- What a step makes of the word that its sequencer's turn fetches. -/
def State.finishTurn (s : State) (core : Nat) (q : SeqId) : Fetched → Host.Outcome State Fault Refusal
  | .quiet t => .next (s.settleDue core q t)
  | .word i t =>
    match exec i t with
    | .next x => .next (t.settleDue core q x)
    | e => e

theorem State.turnTaken_mySeq (s : State) (core : Nat) (q : SeqId) (rest : List Turn) :
    ∃ now, (s.turnTaken core q rest).mySeq = ((s.core core).seq q).turn now :=
  ⟨_, State.mySeq_mapMySeq _ _⟩

theorem step_seq (s : State) (core : Nat) (q : SeqId) (rest : List Turn) (ha : s.agenda = .seq core q :: rest) (hc : core < 512)
    (hp : s.mgmt.powered = true) (hh : s.mgmt.thermalHold = false) (ht : s.mgmt.temp % 256 < 105) (hm : s.mayIssue core q = true)
    (hq : s.hasTurn core q = true) :
    step s = (s.turnTaken core q rest).finishTurn core q (s.turnTaken core q rest).fetchWord := by
  have hn : s.nextTurn = (.seq core q, { s with agenda := rest, clock := s.clock + 1 }) := by
    unfold State.nextTurn
    rw [ha]
  have hhalt : ({ s with agenda := rest, clock := s.clock + 1 } : State).halts (.seq core q) = false := by
    simp [State.halts, hp, hh, ht]
  have hready : (({ s with agenda := rest, clock := s.clock + 1 } : State).mayIssue core q &&
      ({ s with agenda := rest, clock := s.clock + 1 } : State).hasTurn core q) = true := by
    rw [Bool.and_eq_true]
    exact ⟨hm, hq⟩
  unfold step State.takeTurn
  rw [hn]
  dsimp only
  rw [hhalt, if_neg Bool.false_ne_true, if_neg (by omega)]
  unfold State.seqTurn
  dsimp only
  rw [hready]
  change (match (match (s.turnTaken core q rest).fetchWord with | .quiet t => _ | .word i t => _ : Fetched) with
    | .quiet u => _ | .word i u => _ : Host.Outcome State Fault Refusal) = _
  cases hf : (s.turnTaken core q rest).fetchWord <;> rfl

theorem State.settleDue_of_not_hasDue (s : State) (core : Nat) (q : SeqId) (t : State) (h : (s.core core).hasDue q = false) :
    s.settleDue core q t = t := by
  unfold State.settleDue
  rw [h]
  rfl

theorem State.turnTaken_cores_hasDue (s : State) (core : Nat) (q : SeqId) (rest : List Turn) (h : (s.core core).hasDue q = false) :
    ((s.turnTaken core q rest).core core).hasDue q = false := by
  have hk : (s.turnTaken core q rest).core core = (s.core core).mapSeq q (fun r => r.turn (s.cycleOf core)) := State.me_mapMe _ _
  rw [← h, hk]
  have hdue : ((s.core core).mapSeq q (fun r => r.turn (s.cycleOf core))).due q = (s.core core).due q := by
    unfold Core.due Core.nextExpired
    rw [Core.seq_mapSeq_same, Core.mapSeq_blocks]
    rfl
  unfold Core.hasDue
  rw [hdue]

/-- Rows 1 to 4 of R86 where the line of the program counter is held. -/
theorem State.fetchWord_held (s : State) (r : Sequencer) (now : Nat) (l : FetchLine) (hr : s.mySeq = r.turn now)
    (hl : r.held r.pc.toNat = some l) :
    s.fetchWord =
      (if isRecordMaj ((l.bytes.drop (r.pc.toNat % 128)).headD 0).toNat && r.pc.toNat % 64 != 0 then
        .quiet (s.takeTrap (.virt .alignment r.pc.toNat 3))
      else match decode (l.bytes.drop (r.pc.toNat % 128)) with
        | .error _ => .quiet (s.takeTrap (.bare .illegal))
        | .ok (i, _) => .word i s) := by
  unfold State.fetchWord
  rw [hr]
  change (match r.held r.pc.toNat with | none => _ | some l => _ : Fetched) = _
  rw [hl]
  rfl

/-- Settles O55: the step of a sequencer's turn is `State.finishTurn` of what it fetches, and a held line gives the rows of R86. -/
theorem stepRunsDecoded : Obligations.StepRunsDecoded := by
  unfold Obligations.StepRunsDecoded
  constructor
  · intro s core q rest l i more ha hc hp hh ht k slot u v hm hq hl hd hrec
    obtain ⟨now, hnow⟩ := s.turnTaken_mySeq core q rest
    have hf : v.fetchWord = .word i v := by
      have hrow : (isRecordMaj ((l.bytes.drop ((k.seq q).pc.toNat % 128)).headD 0).toNat && (k.seq q).pc.toNat % 64 != 0) = false := by
        cases hb : isRecordMaj ((l.bytes.drop ((k.seq q).pc.toNat % 128)).headD 0).toNat
        · rfl
        · simp [hrec hb]
      rw [State.fetchWord_held v (k.seq q) now l hnow hl, hrow, hd]
      rfl
    have hs : step s = v.finishTurn core q (.word i v) := hf ▸ step_seq s core q rest ha hc hp hh ht hm hq
    constructor
    · intro hdue
      rw [hs]
      unfold State.finishTurn
      dsimp only
      cases exec i v with
      | next x => exact congrArg _ (State.settleDue_of_not_hasDue _ _ _ _ (s.turnTaken_cores_hasDue core q rest hdue))
      | fault f => rfl
      | refused r => rfl
    · intro t he
      rw [hs]
      unfold State.finishTurn
      dsimp only
      rw [he]
  · intro s core q rest l ha hc hp hh ht k slot u t bytes hm hq hl
    obtain ⟨now, hnow⟩ := s.turnTaken_mySeq core q rest
    have hf := State.fetchWord_held t (k.seq q) now l hnow hl
    have hs : step s = t.finishTurn core q t.fetchWord := step_seq s core q rest ha hc hp hh ht hm hq
    rw [hs, hf]
    refine ⟨fun hrec hal => ?_, fun e hrec he => ?_, fun hdue x => State.settleDue_of_not_hasDue _ _ _ _ (s.turnTaken_cores_hasDue core q rest hdue)⟩
    · rw [if_pos (by simp only [Bool.and_eq_true, bne_iff_ne]; exact ⟨hrec, hal⟩)]
      rfl
    · change t.finishTurn core q (if isRecordMaj (bytes.headD 0).toNat && _ then _ else match decode bytes with | .error _ => _ | .ok (i, _) => _) = _
      rw [hrec, he]
      rfl

end Sys2Proof.Machine

/-! SUPPORT. The canonical form of HBM and of the outside's memory through the model's operations: what each result of an operation says of it. -/

namespace Sys2Proof.Machine
open Sys2Proof

/-- The state that a word's body leaves, if any, has its memories in canonical form. -/
def Eff.MemWf : Eff → Prop
  | .done s _ | .jump s _ | .wait s _ => s.MemWf
  | .walk _ | .trap _ => True

/-- The state that a command's turn leaves has its memories in canonical form. -/
def Perf.MemWf : Perf → Prop
  | .wait s | .fault s _ | .go s _ => s.MemWf

/-- The state that an accepted slot leaves has its memories in canonical form. -/
def Applied.MemWf : Applied → Prop
  | .done s | .held s _ => s.MemWf

/-- The state that fetching leaves has its memories in canonical form. -/
def Fetched.MemWf : Fetched → Prop
  | .quiet s | .word _ s => s.MemWf

/-- The state that reading a line leaves, if any, has its memories in canonical form. -/
def LineRead.MemWf : LineRead → Prop
  | .line s => s.MemWf
  | .walk _ | .fault _ => True

/-- The outcome of an instruction in `s` is a next state, whose memories are in canonical form if those of `s` are. -/
def Result.Goes (s : State) (r : Result) : Prop := ∃ t, r = .next t ∧ (s.MemWf → t.MemWf)

/-- The state that an event or a turn leaves, if any, has its memories in canonical form. -/
def Result.MemWf : Result → Prop
  | .next s => s.MemWf
  | .fault _ | .refused _ => True

@[simp] theorem Eff.wf_done (s : State) (next) : (Eff.done s next).MemWf ↔ s.MemWf := Iff.rfl

@[simp] theorem Eff.wf_jump (s : State) (next) : (Eff.jump s next).MemWf ↔ s.MemWf := Iff.rfl

@[simp] theorem Eff.wf_wait (s : State) (on) : (Eff.wait s on).MemWf ↔ s.MemWf := Iff.rfl

@[simp] theorem Eff.wf_walk (va) : (Eff.walk va).MemWf := trivial

@[simp] theorem Eff.wf_trap (i) : (Eff.trap i).MemWf := trivial

@[simp] theorem Perf.wf_wait (s : State) : (Perf.wait s).MemWf ↔ s.MemWf := Iff.rfl

@[simp] theorem Perf.wf_fault (s : State) (i) : (Perf.fault s i).MemWf ↔ s.MemWf := Iff.rfl

@[simp] theorem Perf.wf_go (s : State) (c) : (Perf.go s c).MemWf ↔ s.MemWf := Iff.rfl

@[simp] theorem Applied.wf_done (s : State) : (Applied.done s).MemWf ↔ s.MemWf := Iff.rfl

@[simp] theorem Applied.wf_held (s : State) (on) : (Applied.held s on).MemWf ↔ s.MemWf := Iff.rfl

@[simp] theorem Fetched.wf_quiet (s : State) : (Fetched.quiet s).MemWf ↔ s.MemWf := Iff.rfl

@[simp] theorem Fetched.wf_word (s : State) (i) : (Fetched.word i s).MemWf ↔ s.MemWf := Iff.rfl

@[simp] theorem LineRead.wf_line (s : State) : (LineRead.line s).MemWf ↔ s.MemWf := Iff.rfl

@[simp] theorem LineRead.wf_walk (va) : (LineRead.walk va).MemWf := trivial

@[simp] theorem LineRead.wf_fault (i) : (LineRead.fault i).MemWf := trivial

@[simp] theorem Result.wf_next (s : State) : Result.MemWf (.next s) ↔ s.MemWf := Iff.rfl

@[simp] theorem Result.wf_faulted (f : Fault) : Result.MemWf (.fault f) := trivial

theorem Result.goes_next {s t : State} (h : s.MemWf → t.MemWf) : Result.Goes s (.next t) := ⟨t, rfl, h⟩

theorem State.wf_ite (c : Prop) [Decidable c] {a b : State} (ha : a.MemWf) (hb : b.MemWf) : (if c then a else b).MemWf := by
  split
  · exact ha
  · exact hb

theorem Eff.wf_ite (c : Prop) [Decidable c] {a b : Eff} (ha : a.MemWf) (hb : b.MemWf) : (if c then a else b).MemWf := by
  split
  · exact ha
  · exact hb

theorem Perf.wf_ite (c : Prop) [Decidable c] {a b : Perf} (ha : a.MemWf) (hb : b.MemWf) : (if c then a else b).MemWf := by
  split
  · exact ha
  · exact hb

theorem Result.wf_ite (c : Prop) [Decidable c] {a b : Result} (ha : Result.MemWf a) (hb : Result.MemWf b) : Result.MemWf (if c then a else b) := by
  split
  · exact ha
  · exact hb

@[simp] theorem State.MemWf.hbm {s : State} (w : s.MemWf) : s.hbm.wf = true := w.1

@[simp] theorem State.MemWf.outside {s : State} (w : s.MemWf) : s.outside.wf = true := w.2

@[simp] theorem State.wf_ite_iff (c : Prop) [Decidable c] (a b : State) :
    (if c then a else b).MemWf ↔ (c → a.MemWf) ∧ (¬c → b.MemWf) := by
  split <;> simp [*]

@[simp] theorem Eff.wf_ite_iff (c : Prop) [Decidable c] (a b : Eff) :
    (if c then a else b).MemWf ↔ (c → a.MemWf) ∧ (¬c → b.MemWf) := by
  split <;> simp [*]

@[simp] theorem Perf.wf_ite_iff (c : Prop) [Decidable c] (a b : Perf) :
    (if c then a else b).MemWf ↔ (c → a.MemWf) ∧ (¬c → b.MemWf) := by
  split <;> simp [*]

@[simp] theorem Applied.wf_ite_iff (c : Prop) [Decidable c] (a b : Applied) :
    (if c then a else b).MemWf ↔ (c → a.MemWf) ∧ (¬c → b.MemWf) := by
  split <;> simp [*]

@[simp] theorem Result.wf_ite_iff (c : Prop) [Decidable c] (a b : Result) :
    Result.MemWf (if c then a else b) ↔ (c → Result.MemWf a) ∧ (¬c → Result.MemWf b) := by
  split <;> simp [*]

/-- A state's memories are the only parts that the canonical form speaks of. -/
@[simp] theorem State.wf_mk (x1 x2 x3 x4 x5 x6 x7 x8 hbm x10 x11 x12 x13 x14 x15 outside x17 x18 x19 x20 x21 x22 x23 x24 x25 x26 x27 x28 x29 x30
    x31 x32 x33 x34 x35 x36 x37 x38 x39 x40 x41) :
    State.MemWf (State.mk x1 x2 x3 x4 x5 x6 x7 x8 hbm x10 x11 x12 x13 x14 x15 outside x17 x18 x19 x20 x21 x22 x23 x24 x25 x26 x27 x28 x29 x30 x31
        x32 x33 x34 x35 x36 x37 x38 x39 x40 x41)
      ↔ hbm.wf = true ∧ outside.wf = true := Iff.rfl

/-- A change of a state's other parts leaves the canonical form of its memories. -/
@[simp] theorem State.wf_with (s : State) (x1 x2 x3 x4 x5 x6 x7 x8 x10 x11 x12 x13 x14 x15 x17 x18 x19 x20 x21 x22 x23 x24 x25 x26 x27 x28 x29 x30
    x31 x32 x33 x34 x35 x36 x37 x38 x39 x40 x41) :
    State.MemWf (State.mk x1 x2 x3 x4 x5 x6 x7 x8 s.hbm x10 x11 x12 x13 x14 x15 s.outside x17 x18 x19 x20 x21 x22 x23 x24 x25 x26 x27 x28 x29 x30
        x31 x32 x33 x34 x35 x36 x37 x38 x39 x40 x41)
      ↔ s.MemWf := Iff.rfl

/-! The changes of cores and sequencers leave the memories. -/

@[simp] theorem State.wf_setCore_iff (s : State) (c k) : (s.setCore c k).MemWf ↔ s.MemWf := Iff.rfl

@[simp] theorem State.wf_mapCore_iff (s : State) (c f) : (s.mapCore c f).MemWf ↔ s.MemWf := Iff.rfl

@[simp] theorem State.wf_setMe_iff (s : State) (k) : (s.setMe k).MemWf ↔ s.MemWf := Iff.rfl

@[simp] theorem State.wf_mapMe_iff (s : State) (f) : (s.mapMe f).MemWf ↔ s.MemWf := Iff.rfl

@[simp] theorem State.wf_mapMySeq_iff (s : State) (f) : (s.mapMySeq f).MemWf ↔ s.MemWf := Iff.rfl

/-! ### What an operation of two results has left -/

@[simp] theorem State.wf_fst_ite_iff {α : Type} (c : Prop) [Decidable c] (p q : State × α) :
    (if c then p else q).1.MemWf ↔ (c → p.1.MemWf) ∧ (¬c → q.1.MemWf) := by
  split <;> simp [*]

/-- A fold whose first result is a state keeps the canonical form where each of its steps does. -/
theorem State.wf_foldl_fst {α β : Type} (f : State × β → α → State × β) (h : ∀ p x, p.1.MemWf → (f p x).1.MemWf) :
    ∀ (l : List α) (p : State × β), p.1.MemWf → (l.foldl f p).1.MemWf
  | [], _, w => w
  | x :: r, p, w => State.wf_foldl_fst f h r (f p x) (h p x w)


theorem State.MemWf.of_fst {α : Type} {p : State × α} {t : State} {a : α} (h : p.1.MemWf) (e : p = (t, a)) : t.MemWf := by
  rw [e] at h
  exact h

theorem State.MemWf.of_snd {α : Type} {p : α × State} {t : State} {a : α} (h : p.2.MemWf) (e : p = (a, t)) : t.MemWf := by
  rw [e] at h
  exact h

theorem Eff.MemWf.of_eq {p q : Eff} (h : p.MemWf) (e : p = q) : q.MemWf := e ▸ h

theorem Perf.MemWf.of_eq {p q : Perf} (h : p.MemWf) (e : p = q) : q.MemWf := e ▸ h

theorem Applied.MemWf.of_eq {p q : Applied} (h : p.MemWf) (e : p = q) : q.MemWf := e ▸ h

theorem Applied.wf_ite (c : Prop) [Decidable c] {a b : Applied} (ha : a.MemWf) (hb : b.MemWf) : (if c then a else b).MemWf := by
  split
  · exact ha
  · exact hb

/-! ### The operations of `Machine/Ops` -/

@[simp] theorem State.wf_mapCore {s : State} (w : s.MemWf) (c f) : (s.mapCore c f).MemWf := w

@[simp] theorem State.wf_mapCores {s : State} (w : s.MemWf) (f) : (s.mapCores f).MemWf := w

@[simp] theorem State.wf_setMe {s : State} (w : s.MemWf) (k) : (s.setMe k).MemWf := w

@[simp] theorem State.wf_mapMe {s : State} (w : s.MemWf) (f) : (s.mapMe f).MemWf := w

@[simp] theorem State.wf_mapMySeq {s : State} (w : s.MemWf) (f) : (s.mapMySeq f).MemWf := w

@[simp] theorem State.wf_setG {s : State} (w : s.MemWf) (n v) : (s.setG n v).MemWf := by
  unfold State.setG
  split <;> simp [w]

@[simp] theorem State.wf_fresh {s : State} (w : s.MemWf) : s.fresh.2.MemWf := w

@[simp] theorem State.wf_free {s : State} (w : s.MemWf) : s.free.2.MemWf := w

@[simp] theorem State.wf_startWalk {s : State} (w : s.MemWf) (core asid va) : (s.startWalk core asid va).MemWf := by
  unfold State.startWalk
  simp [w]

@[simp] theorem State.wf_tlbFill {s : State} (w : s.MemWf) (core e) : (s.tlbFill core e).MemWf := w

@[simp] theorem State.wf_writeBack {s : State} (w : s.MemWf) (l) : (s.writeBack l).MemWf := by
  unfold State.writeBack
  refine State.wf_foldl _ (fun t x w => ?_) _ _ w
  split
  · exact State.wf_physWrite _ _ _ _ w
  · exact w

@[simp] theorem State.wf_allocLine {s : State} (w : s.MemWf) (core pa) : (s.allocLine core pa).1.MemWf := by
  grind [State.allocLine, State.wf_writeBack]

@[simp] theorem State.wf_fillLine {s : State} (w : s.MemWf) (core pa) : (s.fillLine core pa).MemWf := by
  grind [State.fillLine, State.wf_mapCore, State.wf_allocLine]

@[simp] theorem State.wf_passBytes {s : State} (w : s.MemWf) (pas) : (s.passBytes pas).MemWf := by
  unfold State.passBytes
  refine State.wf_foldl _ (fun t x w => ?_) _ _ w
  split
  · exact State.wf_passByte _ _ w
  · exact w

@[simp] theorem State.wf_prepareLoad {s : State} (w : s.MemWf) (core scope pas) : (s.prepareLoad core scope pas).MemWf := by
  unfold State.prepareLoad
  refine State.wf_foldl _ (fun t x w => ?_) _ _ (State.wf_ite _ (State.wf_passBytes w pas) w)
  refine State.wf_ite _ ?_ w
  split
  · exact State.wf_ite _ (State.wf_mapCore w _ _) (State.wf_fillLine w _ _)
  · exact State.wf_fillLine w _ _

@[simp] theorem State.wf_storeByte {s : State} (w : s.MemWf) (core scope pa b) : (s.storeByte core scope pa b).MemWf := by
  grind [State.storeByte, State.wf_physWrite, State.wf_allocLine, State.wf_mapCore]

theorem State.wf_storeBytes (core scope) : ∀ (pas bs) {s : State}, s.MemWf → (s.storeBytes core scope pas bs).MemWf
  | [], _, _, w => by
    unfold State.storeBytes
    exact w
  | _ :: _, [], _, w => w
  | pa :: ps, b :: bs, _, w => State.wf_storeBytes core scope ps bs (State.wf_storeByte w core scope pa b)

@[simp] theorem State.wf_releaseCaches {s : State} (w : s.MemWf) (core scope) : (s.releaseCaches core scope).MemWf := by
  unfold State.releaseCaches
  refine State.wf_ite _ w ?_
  have back : ((s.core core).l1.foldl (fun s l => s.writeBack l) s).MemWf := State.wf_foldl _ (fun t l w => State.wf_writeBack w l) _ _ w
  exact State.wf_ite _ (State.wf_l2Flush _ (State.wf_mapCore back _ _)) (State.wf_mapCore back _ _)

@[simp] theorem State.wf_acquireCaches {s : State} (w : s.MemWf) (core scope) : (s.acquireCaches core scope).MemWf := by
  unfold State.acquireCaches
  simp [w]

@[simp] theorem State.wf_writeBackBytes {s : State} (w : s.MemWf) (core pas) : (s.writeBackBytes core pas).MemWf := by
  unfold State.writeBackBytes
  refine State.wf_foldl _ (fun t x w => ?_) _ _ w
  split
  · exact State.wf_ite _ (State.wf_mapCore (State.wf_physWrite _ _ _ _ w) _ _) w
  · exact w

@[simp] theorem State.wf_dropClean {s : State} (w : s.MemWf) (core pas) : (s.dropClean core pas).MemWf := by
  unfold State.dropClean
  refine State.wf_foldl _ (fun t x w => ?_) _ _ w
  split
  · exact State.wf_ite _ (State.wf_mapCore w _ _) w
  · exact w

@[simp] theorem State.wf_logFault {s : State} (w : s.MemWf) (rec launch) : (s.logFault rec launch).1.MemWf := by
  grind [State.logFault, State.wf_physWriteBytes, State.wf_mk, State.MemWf.hbm, State.MemWf.outside]

@[simp] theorem State.wf_raiseCause {s : State} (w : s.MemWf) (core seq unit rep issuePc i) :
    (s.raiseCause core seq unit rep issuePc i).1.MemWf := by
  grind [State.raiseCause, State.wf_releaseCaches, State.wf_logFault, State.wf_mk, State.MemWf.hbm, State.MemWf.outside]

@[simp] theorem State.wf_noteCount {s : State} (w : s.MemWf) (cluster) : (s.noteCount cluster).MemWf := by
  unfold State.noteCount
  simp [w]

@[simp] theorem State.wf_forgetCount {s : State} (w : s.MemWf) (cluster launch) : (s.forgetCount cluster launch).MemWf := by
  unfold State.forgetCount
  simp [w]

@[simp] theorem State.wf_lowerPhase {s : State} (w : s.MemWf) (core) : (s.lowerPhase core).MemWf := by
  unfold State.lowerPhase
  split <;> simp [w]

@[simp] theorem State.wf_retractCount {s : State} (w : s.MemWf) (core) : (s.retractCount core).MemWf := by
  unfold State.retractCount
  simp [w]

@[simp] theorem State.wf_enterHandler {s : State} (w : s.MemWf) (core q epc ecause resumes) : (s.enterHandler core q epc ecause resumes).MemWf := by
  grind [State.enterHandler, State.wf_mapCore, State.wf_logFault, State.wf_releaseCaches, State.wf_retractCount]

@[simp] theorem State.wf_takeTrap {s : State} (w : s.MemWf) (i) : (s.takeTrap i).MemWf := by
  grind [State.takeTrap, State.wf_raiseCause, State.wf_mapMe, State.wf_enterHandler]

@[simp] theorem State.wf_reportTo {s : State} (w : s.MemWf) (core seq unit issuePc i stops) :
    (s.reportTo core seq unit issuePc i stops).1.MemWf := by
  unfold State.reportTo
  simp [w]

@[simp] theorem State.wf_deliver {s : State} (w : s.MemWf) (core q) : (s.deliver core q).MemWf := by
  unfold State.deliver
  split <;> simp [w]

@[simp] theorem State.wf_post {s : State} (w : s.MemWf) (m) : (s.post m).MemWf := w

@[simp] theorem State.wf_unpost {s : State} (w : s.MemWf) (id) : (s.unpost id).MemWf := w

/-! ### The operations of `Machine/Operands` -/

@[simp] theorem State.wf_squash {s : State} (w : s.MemWf) : s.squash.MemWf := w

@[simp] theorem State.wf_holdFault {s : State} (w : s.MemWf) (i pc) : (s.holdFault i pc).MemWf := w

@[simp] theorem State.wf_setMaskReg {s : State} (w : s.MemWf) (code m) : (s.setMaskReg code m).MemWf := w

@[simp] theorem State.wf_setV {s : State} (w : s.MemWf) (n x bytes) : (s.setV n x bytes).MemWf := by
  unfold State.setV
  split <;> simp [w]

@[simp] theorem State.wf_slotStore {s : State} (w : s.MemWf) (sp a data) : (s.slotStore sp a data).MemWf := by
  unfold State.slotStore
  simp [w]

@[simp] theorem State.wf_xstore {s : State} (w : s.MemWf) (a data) : (s.xstore a data).MemWf := by
  unfold State.xstore
  simp [w]

/-! ### The operations of `Machine/Flags` -/

@[simp] theorem State.wf_raiseFlags {s : State} (w : s.MemWf) (f) : (s.raiseFlags f).MemWf := by
  unfold State.raiseFlags
  simp [w]

@[simp] theorem State.wf_raiseAovf {s : State} (w : s.MemWf) (b) : (s.raiseAovf b).MemWf := by
  unfold State.raiseAovf
  simp [w]

/-! ### The operations of `Machine/Issue` -/

@[simp] theorem State.wf_markWait {s : State} (w : s.MemWf) (on) : (s.markWait on).MemWf := w

@[simp] theorem State.wf_account {s : State} (w : s.MemWf) (p h) : (s.account p h).MemWf := w

@[simp] theorem State.wf_goOn {s : State} (w : s.MemWf) (next taken) : (s.goOn next taken).MemWf := w

@[simp] theorem State.wf_retire {s : State} (w : s.MemWf) (p h next taken) : (s.retire p h next taken).MemWf := by
  grind [State.retire, State.wf_account, State.wf_mapMe, State.wf_squash, State.wf_goOn]

@[simp] theorem State.wf_trapCopy {s : State} (w : s.MemWf) (p h i) : (s.trapCopy p h i).MemWf := by
  grind [State.trapCopy, State.wf_mapMySeq, State.wf_takeTrap, State.wf_squash, State.wf_holdFault, State.wf_retire]

@[simp] theorem State.wf_missWord {s : State} (w : s.MemWf) (p h) : (s.missWord p h).MemWf := by
  grind [State.missWord, State.wf_mapMe, State.wf_goOn, State.wf_account, State.wf_mapMySeq, State.wf_takeTrap, State.wf_mk, State.MemWf.hbm,
      State.MemWf.outside]

theorem goes_issueWord (p h body) (s) (hbody : ∀ u : State, u.MemWf → (body u).MemWf) : Result.Goes s (issueWord p h body s) := by
  unfold issueWord
  split
  · exact Result.goes_next fun w => State.wf_ite _ (State.wf_takeTrap w _) (State.wf_trapCopy w _ _ _)
  · exact Result.goes_next id
  · exact Result.goes_next fun w => State.wf_mapMySeq (State.wf_mapMe (State.wf_markWait w _) _) _
  · exact Result.goes_next fun w => State.wf_mapMySeq (State.wf_markWait w _) _
  · exact Result.goes_next fun w => State.wf_missWord w _ _
  · exact Result.goes_next fun w => State.wf_mapMySeq (State.wf_account w _ _) _
  · split
    · exact Result.goes_next fun w => State.wf_trapCopy w _ _ _
    · have wt : s.MemWf → (body s).MemWf := hbody s
      split
      next t next e => exact Result.goes_next fun w => State.wf_retire (Eff.MemWf.of_eq (wt w) e) _ _ _ _
      next t next e => exact Result.goes_next fun w => State.wf_retire (Eff.MemWf.of_eq (wt w) e) _ _ _ _
      next i e => exact Result.goes_next fun w => State.wf_trapCopy w _ _ _
      next va e => exact Result.goes_next fun w => State.wf_markWait (State.wf_startWalk w _ _ _) _
      next t on e =>
        split
        · split
          · exact Result.goes_next id
          · exact Result.goes_next fun w => State.wf_missWord w _ _
        · exact Result.goes_next fun w => State.wf_markWait (Eff.MemWf.of_eq (wt w) e) _

@[simp] theorem State.wf_enterAs {s : State} (w : s.MemWf) (port c size since rank) : (s.enterAs port c size since rank).MemWf := by
  unfold State.enterAs
  split <;> simp [w]

@[simp] theorem State.wf_enter {s : State} (w : s.MemWf) (port c size) : (s.enter port c size).MemWf := by
  grind [State.enter, State.wf_enterAs]

/-! ### The operations of `Machine/LaunchOps` -/

@[simp] theorem State.wf_setQueue {s : State} (w : s.MemWf) (q x) : (s.setQueue q x).MemWf := w

@[simp] theorem State.wf_mapQueue {s : State} (w : s.MemWf) (q f) : (s.mapQueue q f).MemWf := w

@[simp] theorem State.wf_settleYields {s : State} (w : s.MemWf) : s.settleYields.MemWf := w

/-! ### The operations of `Machine/Fifo` -/

@[simp] theorem State.wf_combine {s : State} (w : s.MemWf) (core) : (s.combine core).MemWf := w

@[simp] theorem State.wf_commandTokens {s : State} (w : s.MemWf) (core c) : (s.commandTokens core c).MemWf := by
  unfold State.commandTokens
  simp [w]

@[simp] theorem State.wf_faultCommand {s : State} (w : s.MemWf) (core port c i) : (s.faultCommand core port c i).MemWf := by
  grind [State.faultCommand, State.wf_squash, State.wf_holdFault, State.wf_mapCore, State.wf_reportTo, State.wf_mk, State.MemWf.hbm,
      State.MemWf.outside]

@[simp] theorem State.wf_commandRelease {s : State} (w : s.MemWf) (core scope virt) : (s.commandRelease core scope virt).MemWf := by
  unfold State.commandRelease
  simp [w]

/-! ### The operations of `Machine/Records` -/

theorem goes_recordWord (i port who lanes h r body) (s) (hbody : ∀ u : State, u.MemWf → (body u).MemWf) :
    Result.Goes s (recordWord i port who lanes h r body s) := by
  unfold recordWord
  exact goes_issueWord _ _ _ _ fun u w => by
    grind [State.wf_enter, Eff.MemWf]

theorem goes_plainRecord (i port who lanes h r) (s) : Result.Goes s (plainRecord i port who lanes h r s) := by
  unfold plainRecord
  exact goes_recordWord (hbody := fun u w => by simp [w]) ..

@[simp] theorem State.wf_withSpans {s : State} (w : s.MemWf) {entry : Eff} (we : entry.MemWf) (c spans) : (s.withSpans c spans entry).MemWf := by
  unfold State.withSpans
  dsimp only
  split
  · exact w
  · split
    · exact State.wf_mapMe we _
    · exact we

@[simp] theorem State.wf_enterWith {s : State} (w : s.MemWf) (port c size spans) : (s.enterWith port c size spans).MemWf := by
  grind [State.enterWith, State.wf_withSpans, State.wf_enter]

/-! ### The operations of `Machine/Integer` -/

theorem goes_regWord (h o lat f) (s) : Result.Goes s (regWord h o lat f s) := by
  unfold regWord
  exact goes_issueWord _ _ _ _ fun u w => by simp [w]

theorem goes_immWord (h o f) (s) : Result.Goes s (immWord h o f s) := by
  unfold immWord
  exact goes_issueWord _ _ _ _ fun u w => by simp [w]

theorem goes_execLea (h o) (s) : Result.Goes s (execLea h o s) := by
  unfold execLea
  exact goes_issueWord _ _ _ _ fun u w => by simp [w]

theorem goes_execSel (h o) (s) : Result.Goes s (execSel h o s) := by
  unfold execSel
  exact goes_issueWord _ _ _ _ fun u w => by simp [w]

/-! ### The operations of `Machine/Control` -/

@[simp] theorem wf_targetTrap (t) : (targetTrap t).MemWf := by
  grind [targetTrap, Eff.MemWf]

@[simp] theorem wf_transfer (s : State) (t : Word) {go : State} (w : go.MemWf) : (transfer s t go).MemWf := by
  unfold transfer
  split
  · simp [targetTrap]
  · exact w

theorem goes_execJ (h o) (s) : Result.Goes s (execJ h o s) := by
  unfold execJ
  exact goes_issueWord _ _ _ _ fun u w => by
    grind [wf_transfer]

theorem goes_execB (h o) (s) : Result.Goes s (execB h o s) := by
  unfold execB
  exact goes_issueWord _ _ _ _ fun u w => by
    grind [wf_transfer, Eff.MemWf]

theorem goes_execBrq (h o) (s) : Result.Goes s (execBrq h o s) := by
  unfold execBrq
  exact goes_issueWord _ _ _ _ fun u w => by
    grind [wf_transfer, State.wf_mapMe, Eff.MemWf]

theorem goes_execLoop (h o) (s) : Result.Goes s (execLoop h o s) := by
  unfold execLoop
  exact goes_issueWord _ _ _ _ fun u w => by
    grind [wf_transfer, State.wf_setG, Eff.MemWf]

theorem goes_execJr (h o) (s) : Result.Goes s (execJr h o s) := by
  unfold execJr
  exact goes_issueWord _ _ _ _ fun u w => by
    grind [wf_transfer]

@[simp] theorem State.wf_pushShadow {s : State} (w : s.MemWf) (a) : (s.pushShadow a).MemWf := by
  unfold State.pushShadow
  simp [w]

@[simp] theorem wf_callTo {s : State} (w : s.MemWf) (o t) : (callTo o s t).MemWf := by
  grind [callTo, wf_targetTrap, State.wf_setG, State.wf_pushShadow, Eff.MemWf]

theorem goes_execCall (h o) (s) : Result.Goes s (execCall h o s) := by
  unfold execCall
  exact goes_issueWord _ _ _ _ fun u w => by
    grind [wf_callTo]

theorem goes_execCallr (h o) (s) : Result.Goes s (execCallr h o s) := by
  unfold execCallr
  exact goes_issueWord _ _ _ _ fun u w => by
    grind [wf_callTo]

@[simp] theorem State.wf_endRun {s : State} (w : s.MemWf) : s.endRun.1.MemWf := by
  unfold State.endRun
  dsimp only
  split <;> simp [w]

theorem goes_execRet (h o) (s) : Result.Goes s (execRet h o s) := by
  unfold execRet
  exact goes_issueWord _ _ _ _ fun u w => by
    grind [wf_transfer, wf_targetTrap, State.wf_mapMySeq, State.wf_endRun, Eff.MemWf]

theorem goes_execLoopp (h o) (s) : Result.Goes s (execLoopp h o s) := by
  unfold execLoopp
  exact goes_issueWord _ _ _ _ fun u w => by
    grind [wf_transfer, State.wf_mapMySeq, State.wf_setG, Eff.MemWf]

theorem goes_execBrp (h o) (s) : Result.Goes s (execBrp h o s) := by
  unfold execBrp
  exact goes_issueWord _ _ _ _ fun u w => by
    grind [State.wf_mapMe, State.wf_setG, wf_transfer, State.wf_mapMySeq, Eff.MemWf]

theorem State.wf_writeCsr {s : State} (w : s.MemWf) (n x) : ∀ t, s.writeCsr n x = some t → t.MemWf := by
  unfold State.writeCsr
  split <;> simp [w]

theorem goes_execCsrr (h o) (s) : Result.Goes s (execCsrr h o s) := by
  unfold execCsrr
  exact goes_issueWord _ _ _ _ fun u w => by
    split <;> simp [w]

theorem goes_execCsrw (h o) (s) : Result.Goes s (execCsrw h o s) := by
  unfold execCsrw
  exact goes_issueWord _ _ _ _ fun u w => by
    grind [State.wf_writeCsr, Eff.MemWf]

theorem goes_execCsrx (h o) (s) : Result.Goes s (execCsrx h o s) := by
  unfold execCsrx
  exact goes_issueWord _ _ _ _ fun u w => by
    grind [State.wf_writeCsr, State.wf_setG, Eff.MemWf]

theorem goes_execTrap (h o) (s) : Result.Goes s (execTrap h o s) := by
  unfold execTrap
  exact goes_issueWord _ _ _ _ fun u w => by simp

theorem goes_execEret (h o) (s) : Result.Goes s (execEret h o s) := by
  unfold execEret
  exact goes_issueWord _ _ _ _ fun u w => by
    grind [State.wf_mapMe, wf_transfer]

theorem goes_execHalt (h o) (s) : Result.Goes s (execHalt h o s) := by
  unfold execHalt
  exact goes_issueWord _ _ _ _ fun u w => by
    split <;> simp [w]

theorem goes_execNop (h o) (s) : Result.Goes s (execNop h o s) := by
  unfold execNop
  exact goes_issueWord _ _ _ _ fun u w => by simp [w]

theorem goes_execYield (h o) (s) : Result.Goes s (execYield h o s) := by
  unfold execYield
  exact goes_issueWord _ _ _ _ fun u w => by
    grind [State.wf_mapMe, Eff.MemWf]

theorem goes_maskWord (h lat srcs dsts masks f) (s) (hf : ∀ u : State, u.MemWf → (f u).MemWf) :
    Result.Goes s (maskWord h lat srcs dsts masks f s) := by
  unfold maskWord
  exact goes_issueWord _ _ _ _ fun u w => by
    grind [Eff.MemWf]

theorem goes_execMsave (h o) (s) : Result.Goes s (execMsave h o s) := by
  unfold execMsave
  exact goes_issueWord _ _ _ _ fun u w => by
    split <;> simp [w]

theorem goes_execMrest (h o) (s) : Result.Goes s (execMrest h o s) := by
  unfold execMrest
  exact goes_issueWord _ _ _ _ fun u w => by
    split <;> simp [w]

theorem goes_execMand (h o) (s) : Result.Goes s (execMand h o s) := by
  unfold execMand
  exact goes_issueWord _ _ _ _ fun u w => by
    split <;> simp [w]

theorem goes_execMor (h o) (s) : Result.Goes s (execMor h o s) := by
  unfold execMor
  exact goes_issueWord _ _ _ _ fun u w => by
    split <;> simp [w]

theorem goes_execMxor (h o) (s) : Result.Goes s (execMxor h o s) := by
  unfold execMxor
  exact goes_issueWord _ _ _ _ fun u w => by
    split <;> simp [w]

theorem goes_execMnot (h o) (s) : Result.Goes s (execMnot h o s) := by
  unfold execMnot
  exact goes_issueWord _ _ _ _ fun u w => by
    split <;> simp [w]

theorem goes_execMset (h o) (s) : Result.Goes s (execMset h o s) := by
  unfold execMset
  exact goes_issueWord _ _ _ _ fun u w => by
    split <;> simp [w]

theorem goes_execMcnt (h o) (s) : Result.Goes s (execMcnt h o s) := by
  unfold execMcnt
  exact goes_issueWord _ _ _ _ fun u w => by
    split <;> simp [w]

/-! ### The operations of `Machine/Registers` -/

@[simp] theorem State.wf_setPort {s : State} (w : s.MemWf) (p x) : (s.setPort p x).MemWf := w

@[simp] theorem State.wf_mapPort {s : State} (w : s.MemWf) (p f) : (s.mapPort p f).MemWf := w

@[simp] theorem State.wf_writePcfg {s : State} (w : s.MemWf) (p v) : (s.writePcfg p v).MemWf := by
  unfold State.writePcfg
  simp [w]

@[simp] theorem wf_execPcfgWrite {s : State} (w : s.MemWf) (port value) : Result.MemWf (execPcfgWrite port value s) := by
  unfold execPcfgWrite
  split <;> simp [w]

@[simp] theorem wf_execPortTrained {s : State} (w : s.MemWf) (port peer) : Result.MemWf (execPortTrained port peer s) := by
  grind [execPortTrained, State.wf_mapPort, Result.MemWf]

@[simp] theorem wf_execPortTrainingTimeout {s : State} (w : s.MemWf) (port) : Result.MemWf (execPortTrainingTimeout port s) := by
  grind [execPortTrainingTimeout, State.wf_mapPort, Result.MemWf]

@[simp] theorem State.wf_setClock {s : State} (w : s.MemWf) (die c) : (s.setClock die c).MemWf := w

@[simp] theorem State.wf_writeClkcfg {s : State} (w : s.MemWf) (die v) : (s.writeClkcfg die v).MemWf := by
  unfold State.writeClkcfg
  dsimp only
  split <;> simp [w]

@[simp] theorem wf_execClkcfgWrite {s : State} (w : s.MemWf) (die value) : Result.MemWf (execClkcfgWrite die value s) := by
  unfold execClkcfgWrite
  split <;> simp [w]

@[simp] theorem wf_execClkcfgPendingApply {s : State} (w : s.MemWf) (die) : Result.MemWf (execClkcfgPendingApply die s) := by
  grind [execClkcfgPendingApply, State.wf_setClock, Result.MemWf]

@[simp] theorem State.wf_writeSfctl {s : State} (w : s.MemWf) (v) : (s.writeSfctl v).MemWf := w

@[simp] theorem wf_execSfctlStartupEnd {s : State} (w : s.MemWf) : Result.MemWf (execSfctlStartupEnd s) := w

@[simp] theorem wf_execSfctlBist {s : State} (w : s.MemWf) : Result.MemWf (execSfctlBist s) := w

@[simp] theorem wf_execBistDone {s : State} (w : s.MemWf) : Result.MemWf (execBistDone s) := w

@[simp] theorem State.wf_writeRoute {s : State} (w : s.MemWf) (d v) : (s.writeRoute d v).MemWf := by
  unfold State.writeRoute
  simp [w]

@[simp] theorem State.wf_writeLinkOrManagement {s : State} (w : s.MemWf) (off v) : (s.writeLinkOrManagement off v).MemWf := by
  unfold State.writeLinkOrManagement
  split
  · refine State.wf_ite _ ?_ w
    exact State.wf_writeRoute (State.wf_writeRoute w _ _) _ _
  · split
    · split <;> simp [w]
    · exact State.wf_ite _ (State.wf_ite _ w w) (State.wf_ite _ w (State.wf_ite _ (State.wf_writePcfg w _ _) w))

@[simp] theorem State.wf_writeRegister {s : State} (w : s.MemWf) (off v) : (s.writeRegister off v).MemWf := by
  unfold State.writeRegister
  simp [w]

/-! ### The operations of `Machine/ScalarMemory` -/

@[simp] theorem State.wf_addReads {s : State} (w : s.MemWf) (core owner pas) : (s.addReads core owner pas).MemWf := w

@[simp] theorem State.wf_queueLoad {s : State} (w : s.MemWf) (a reg) : (s.queueLoad a reg).MemWf := w

@[simp] theorem State.wf_queueStore {s : State} (w : s.MemWf) (a) : (s.queueStore a).MemWf := w

theorem goes_loadWord (h o acquire) (s) : Result.Goes s (loadWord h o acquire s) := by
  unfold loadWord
  exact goes_issueWord _ _ _ _ fun u w => by
    grind [State.wf_setG, State.wf_queueLoad, Eff.MemWf]

theorem goes_storeWord (h o release) (s) : Result.Goes s (storeWord h o release s) := by
  unfold storeWord
  exact goes_issueWord _ _ _ _ fun u w => by
    grind [State.wf_writeRegister, State.wf_slotStore, State.wf_mapMe, State.wf_queueStore, Eff.MemWf]

theorem goes_execLdx (h o) (s) : Result.Goes s (execLdx h o s) := by
  unfold execLdx
  exact goes_issueWord _ _ _ _ fun u w => by
    grind [State.wf_queueLoad, Eff.MemWf]

theorem goes_execStx (h o) (s) : Result.Goes s (execStx h o s) := by
  unfold execStx
  exact goes_issueWord _ _ _ _ fun u w => by
    grind [State.wf_slotStore, State.wf_queueStore, Eff.MemWf]

@[simp] theorem State.wf_rmw {s : State} (w : s.MemWf) (scope ord pas f) : (s.rmw scope ord pas f).1.MemWf := by
  grind [State.rmw, State.wf_releaseCaches, State.wf_prepareLoad, State.wf_storeBytes, State.wf_acquireCaches]

theorem goes_atomicWord (h o srcs f) (s) : Result.Goes s (atomicWord h o srcs f s) := by
  unfold atomicWord
  exact goes_issueWord _ _ _ _ fun u w => by
    grind [State.wf_reportTo, State.wf_rmw, State.wf_setG, Eff.MemWf]

@[simp] theorem State.wf_fenceCaches {s : State} (w : s.MemWf) (core ord scope) : (s.fenceCaches core ord scope).MemWf := by
  grind [State.fenceCaches, State.wf_releaseCaches, State.wf_acquireCaches]

theorem goes_execFence (h o) (s) : Result.Goes s (execFence h o s) := by
  unfold execFence
  exact goes_issueWord _ _ _ _ fun u w => by
    grind [State.wf_fenceCaches, State.wf_queueStore, State.wf_mapMySeq, Eff.MemWf]

theorem goes_execMark (h o) (s) : Result.Goes s (execMark h o s) := by
  unfold execMark
  exact goes_issueWord _ _ _ _ fun u w => by simp [w]

@[simp] theorem State.wf_loadFault {s : State} (w : s.MemWf) (core a f) : (s.loadFault core a f).MemWf := by
  grind [State.loadFault, State.wf_reportTo, State.wf_holdFault, State.wf_mk, State.MemWf.hbm, State.MemWf.outside]

@[simp] theorem wf_loadAnswer {s : State} (w : s.MemWf) (core id) : (loadAnswer s core id).MemWf := by
  unfold loadAnswer
  dsimp only
  split
  · exact w
  · next a _ =>
    have wr : (s.releaseCaches core ((s.core core).markScope a)).MemWf := by simp [w]
    split
    · exact w
    · split
      · exact State.wf_loadFault (State.wf_mapCore wr _ _) _ _ _
      · split
        · simp [wr]
        · rw [State.wf_mapCore_iff, State.wf_with]
          refine State.wf_setV ?_ _ _ _
          rw [State.wf_with]
          refine State.wf_foldl_fst _ (fun p x wp => ?_) _ _ ?_
          · simp [wp]
          · exact wr
        · exact State.wf_mapCore wr _ _

@[simp] theorem State.wf_storeVirtual {s : State} (w : s.MemWf) (core asid scope va data) : (s.storeVirtual core asid scope va data).MemWf := by
  unfold State.storeVirtual
  exact State.wf_foldl _ (fun t x w => by split <;> simp [w]) _ _ w

@[simp] theorem State.wf_offerWrite {s : State} (w : s.MemWf) (core id) : (s.offerWrite core id).MemWf := by
  unfold State.offerWrite
  exact State.wf_foldl _ (fun t x w => by simp [w]) _ _ w

@[simp] theorem wf_storePerformed {s : State} (w : s.MemWf) (core id) : (storePerformed s core id).MemWf := by
  unfold storePerformed
  dsimp only
  split
  · exact w
  · next a _ =>
    split
    · exact w
    · have wo : ((if a.release = true then s.releaseCaches core a.scope else s).mapCore core (fun k => { k with
          stores := k.stores.filter (fun b => b.id != id)
          posted := k.posted.map (fun e => if e.id = id then { e with sent := true } else e) })).MemWf := by
        split <;> simp [w]
      have wp := State.wf_offerWrite wo core id
      split
      · exact State.wf_ite _ (State.wf_mapCore wp _ _) (State.wf_storeVirtual wp _ _ _ _ _)
      · refine State.wf_foldl _ (fun t x wt => ?_) _ _ (State.wf_foldl _ (fun t x wt => ?_) _ _ wp)
        · exact State.wf_ite _ (State.wf_mapCore wt _ _) (State.wf_storeVirtual wt _ _ _ _ _)
        · exact State.wf_ite _ (State.wf_mapCore wt _ _) (State.wf_storeVirtual wt _ _ _ _ _)
      · exact State.wf_fenceCaches wp _ _ _
      · exact wp

@[simp] theorem wf_onCore (core f) (hf : (f ()).MemWf) : Result.MemWf (onCore core f) := by
  grind [onCore, Result.MemWf]

@[simp] theorem wf_execLoadAnswer {s : State} (w : s.MemWf) (core id) : Result.MemWf (execLoadAnswer core id s) := by
  grind [execLoadAnswer, wf_onCore, wf_loadAnswer]

@[simp] theorem wf_execStorePerformed {s : State} (w : s.MemWf) (core id) : Result.MemWf (execStorePerformed core id s) := by
  grind [execStorePerformed, wf_onCore, wf_storePerformed]

@[simp] theorem wf_execL1Eviction {s : State} (w : s.MemWf) (core line) : Result.MemWf (execL1Eviction core line s) := by
  grind [execL1Eviction, wf_onCore, State.wf_mapCore, State.wf_writeBack]

/-! ### The operations of `Machine/Sync` -/

theorem goes_tokenWord (h o push) (s) : Result.Goes s (tokenWord h o push s) := by
  unfold tokenWord
  dsimp only
  split
  · exact Result.goes_next fun w => State.wf_takeTrap w _
  · exact goes_issueWord _ _ _ _ fun u w => w

theorem goes_execBoqpush (h o) (s) : Result.Goes s (execBoqpush h o s) := by
  unfold execBoqpush
  exact goes_issueWord _ _ _ _ fun u w => by
    grind [State.wf_mapMe, Eff.MemWf]

@[simp] theorem State.wf_setGroup {s : State} (w : s.MemWf) (n g) : (s.setGroup n g).MemWf := w

theorem goes_execBarv (h o) (s) : Result.Goes s (execBarv h o s) := by
  unfold execBarv
  exact goes_issueWord _ _ _ _ fun u w => by
    grind [State.wf_releaseCaches, State.wf_setGroup, State.wf_setG, Eff.MemWf]

theorem goes_execBwait (h o) (s) : Result.Goes s (execBwait h o s) := by
  unfold execBwait
  exact goes_issueWord _ _ _ _ fun u w => by
    grind [State.wf_acquireCaches, Eff.MemWf]

theorem goes_execTbinit (h o) (s) : Result.Goes s (execTbinit h o s) := by
  unfold execTbinit
  exact goes_issueWord _ _ _ _ fun u w => by
    grind [State.wf_mapMe, Eff.MemWf]

theorem goes_execTbarv (h o) (s) : Result.Goes s (execTbarv h o s) := by
  unfold execTbarv
  exact goes_issueWord _ _ _ _ fun u w => by
    grind [State.wf_mapCore, State.wf_releaseCaches, State.wf_setG, Eff.MemWf]

theorem goes_execTbwait (h o) (s) : Result.Goes s (execTbwait h o s) := by
  unfold execTbwait
  exact goes_issueWord _ _ _ _ fun u w => by
    grind [State.wf_mapMe, State.wf_acquireCaches, Eff.MemWf]

theorem goes_execLeeway (h o) (s) : Result.Goes s (execLeeway h o s) := by
  unfold execLeeway
  exact goes_issueWord _ _ _ _ fun u w => by
    grind [State.wf_noteCount, State.wf_mapMe, State.wf_setG, Eff.MemWf]

@[simp] theorem wf_execLeewayCountUpdate {s : State} (w : s.MemWf) (cluster) : Result.MemWf (execLeewayCountUpdate cluster s) := by
  unfold execLeewayCountUpdate
  split <;> simp [w]

theorem goes_execRemq (h o) (s) : Result.Goes s (execRemq h o s) := by
  unfold execRemq
  exact goes_issueWord _ _ _ _ fun u w => by
    grind [State.wf_releaseCaches, State.wf_mapMe, State.wf_mapCore, Eff.MemWf, State.wf_mk, State.MemWf.hbm, State.MemWf.outside]

theorem goes_execNotify (h o) (s) : Result.Goes s (execNotify h o s) := by
  unfold execNotify
  exact goes_issueWord _ _ _ _ fun u w => by
    grind [State.wf_enter]

theorem goes_execWaitev (h o) (s) : Result.Goes s (execWaitev h o s) := by
  unfold execWaitev
  exact goes_issueWord _ _ _ _ fun u w => by
    grind [State.wf_acquireCaches, State.wf_mapMe, State.wf_combine, State.wf_setG, Eff.MemWf]

@[simp] theorem wf_execNotifyRetire {s : State} (w : s.MemWf) (core port) : Result.MemWf (execNotifyRetire core port s) := by
  grind [execNotifyRetire, State.wf_mapCore, State.wf_combine, State.wf_commandTokens, Result.MemWf]

/-! ### The operations of `Machine/Vector` -/

@[simp] theorem VRun.wf_write (r : VRun) {s : State} (w : s.MemWf) (n w idx f) : (r.write n w idx f s).MemWf := by
  grind [VRun.write, State.wf_raiseFlags, State.wf_setV]

@[simp] theorem VRun.wf_lanes (r : VRun) {s : State} (w : s.MemWf) (n w f) : (r.lanes n w f s).MemWf := by
  grind [VRun.lanes, VRun.wf_write]

@[simp] theorem VRun.wf_whole (r : VRun) {s : State} (w : s.MemWf) (n w f) : (r.whole n w f s).MemWf := by
  grind [VRun.whole, State.wf_setV]

@[simp] theorem wf_vArith {s : State} (w : s.MemWf) (fn r o) : (vArith fn r o s).MemWf := by
  unfold vArith
  simp [w]

@[simp] theorem wf_vLogic {s : State} (w : s.MemWf) (fn r o) : (vLogic fn r o s).MemWf := by
  unfold vLogic
  simp [w]

@[simp] theorem wf_vSelect {s : State} (w : s.MemWf) (r o) : (vSelect r o s).MemWf := by
  unfold vSelect
  simp [w]

@[simp] theorem wf_vConvertBy {s : State} (w : s.MemWf) (f r o) : (vConvertBy f r o s).MemWf := by
  unfold vConvertBy
  dsimp only
  split
  · exact State.wf_foldl _ (fun t x w => VRun.wf_write r w _ _ _ _) _ _ w
  · split <;> exact VRun.wf_lanes r w _ _ _

@[simp] theorem wf_vConvert {s : State} (w : s.MemWf) (r o) : (vConvert r o s).MemWf := by
  unfold vConvert
  simp [w]

@[simp] theorem wf_vNarrow {s : State} (w : s.MemWf) (r o) : (vNarrow r o s).MemWf := by
  unfold vNarrow
  simp [w]

@[simp] theorem wf_vSaturate {s : State} (w : s.MemWf) (r o) : (vSaturate r o s).MemWf := by
  unfold vSaturate
  simp [w]

@[simp] theorem wf_vClamp {s : State} (w : s.MemWf) (r o) : (vClamp r o s).MemWf := by
  unfold vClamp
  simp [w]

@[simp] theorem wf_vDot {s : State} (w : s.MemWf) (r o) : (vDot r o s).MemWf := by
  unfold vDot
  simp [w]

@[simp] theorem wf_vReduce {s : State} (w : s.MemWf) (r o) : (vReduce r o s).MemWf := by
  unfold vReduce
  simp [w]

@[simp] theorem wf_vScan {s : State} (w : s.MemWf) (r o) : (vScan r o s).MemWf := by
  unfold vScan
  simp [w]

@[simp] theorem wf_vPermute {s : State} (w : s.MemWf) (fn r o) : (vPermute fn r o s).MemWf := by
  unfold vPermute
  split <;> simp [w]

@[simp] theorem wf_vSpecial {s : State} (w : s.MemWf) (fn r o) : (vSpecial fn r o s).MemWf := by
  unfold vSpecial
  simp [w]

@[simp] theorem wf_vMerge {s : State} (w : s.MemWf) (r o) : (vMerge r o s).MemWf := by
  grind [vMerge, VRun.wf_lanes]

@[simp] theorem wf_vMove {s : State} (w : s.MemWf) (fn r o) : (vMove fn r o s).MemWf := by
  unfold vMove
  simp [w]

@[simp] theorem wf_vectorEffect {s : State} (w : s.MemWf) (maj fn r o) : (vectorEffect maj fn r o s).MemWf := by
  unfold vectorEffect
  split <;> simp [w]

theorem wf_vCmp {s : State} (w : s.MemWf) (r o) : ∀ t, vCmp r o s = some t → t.MemWf := by
  grind [vCmp, State.wf_raiseFlags, State.wf_setMaskReg, State.wf_mapMe]

theorem wf_vQpop {s : State} (w : s.MemWf) (r o) : ∀ t, vQpop r o s = some t → t.MemWf := by
  unfold vQpop
  dsimp only
  split <;> simp [w]

theorem wf_vQpush {s : State} (w : s.MemWf) (r o) : ∀ t, vQpush r o s = some t → t.MemWf := by
  unfold vQpush
  simp [w]

theorem wf_vDefer {s : State} (w : s.MemWf) (r o) : ∀ t, vDefer r o s = some t → t.MemWf := by
  unfold vDefer
  dsimp only
  split <;> simp [w]

@[simp] theorem wf_vDrain {s : State} (w : s.MemWf) (r o) : (vDrain r o s).1.MemWf := by
  unfold vDrain
  simp [w]

theorem goes_vectorWord (i maj fn h o) (s) : Result.Goes s (vectorWord i maj fn h o s) := by
  unfold vectorWord
  exact goes_issueWord _ _ _ _ fun u w => by
    grind [State.wf_enter, State.wf_mapMySeq, Eff.MemWf]

/-! ### The operations of `Machine/VectorMemory` -/

@[simp] theorem State.wf_postLane {s : State} (w : s.MemWf) (a x l) : (s.postLane a x l).MemWf := by
  unfold State.postLane
  simp [w]

@[simp] theorem State.wf_postLanes (a x) : ∀ (l) {s : State}, s.MemWf → (s.postLanes a x l).1.MemWf
  | [], _, w => w
  | l :: r, s, w => by
    unfold State.postLanes
    split
    · exact State.wf_postLanes a x r (State.wf_mapMySeq (State.wf_postLane w a x l) _)
    · exact w

@[simp] theorem State.wf_queueVector {s : State} (w : s.MemWf) (a bytes deadline) : (s.queueVector a bytes deadline).1.MemWf := by
  grind [State.queueVector, State.wf_mapMe, State.wf_queueStore, State.wf_queueLoad]

theorem goes_vectorMemoryWord (i fn h o) (s) : Result.Goes s (vectorMemoryWord i fn h o s) := by
  unfold vectorMemoryWord
  refine goes_issueWord _ _ _ _ fun u w => ?_
  dsimp only
  split
  · exact w
  · split
    · exact w
    · split
      · trivial
      · trivial
      · split
        · exact w
        · split
          · exact w
          · split
            next t rest e => exact State.MemWf.of_fst (State.wf_postLanes _ _ _ w) e
            next t e =>
              have wt : t.MemWf := State.MemWf.of_fst (State.wf_postLanes _ _ _ w) e
              split
              · exact State.wf_enter (State.wf_queueVector wt _ _ _) _ _ _
              · exact State.wf_enter wt _ _ _

@[simp] theorem State.wf_fillStore {s : State} (w : s.MemWf) (core asid own a x) : (s.fillStore core asid own a x).MemWf := by
  unfold State.fillStore
  dsimp only
  split
  · exact w
  · refine State.wf_ite _ w ?_
    exact State.wf_foldl _ (fun t x w => State.wf_slotStore w _ _ _) _ _ (State.wf_foldl _ (fun t x w => State.wf_slotStore w _ _ _) _ _ w)

/-! ### The operations of `Machine/VectorUnit` -/

@[simp] theorem State.wf_vecTimed {s : State} (w : s.MemWf) (maj fn r o port extra) : (s.vecTimed maj fn r o port extra).MemWf := w

@[simp] theorem wf_performVectorWord {s : State} (w : s.MemWf) (port maj fn h o c) : (performVectorWord s port maj fn h o c).MemWf := by
  unfold performVectorWord
  dsimp only
  split
  · split
    next t e =>
      rw [Perf.wf_go]
      exact State.wf_vecTimed (wf_vCmp w _ _ t e) _ _ _ _ _ _
    next => exact w
  · rw [Perf.wf_go]
    exact State.wf_vecTimed (State.wf_mapMe (State.wf_ite _ (State.wf_fillStore w _ _ _ _ _) (State.wf_mapMe w _)) _) _ _ _ _ _ _
  · split
    next t e =>
      rw [Perf.wf_go]
      exact State.wf_vecTimed (wf_vQpop w _ _ t e) _ _ _ _ _ _
    next => exact w
  · split
    next t e =>
      rw [Perf.wf_go]
      exact State.wf_vecTimed (wf_vQpush w _ _ t e) _ _ _ _ _ _
    next => exact w
  · split
    next t e =>
      rw [Perf.wf_go]
      exact State.wf_vecTimed (wf_vDefer w _ _ t e) _ _ _ _ _ _
    next => exact w
  · refine Perf.wf_ite _ w ?_
    exact State.wf_vecTimed (State.wf_mapMe (wf_vDrain w _ _) _) _ _ _ _ _ _
  · exact Perf.wf_ite _ w (State.wf_vecTimed (State.wf_mapMe w _) _ _ _ _ _ _)
  · exact State.wf_vecTimed (wf_vectorEffect w _ _ _ _) _ _ _ _ _ _

@[simp] theorem wf_performMemoryIssue {s : State} (w : s.MemWf) (fn h r c run i a d) : (performMemoryIssue s fn h r c run i a d).MemWf := by
  grind [performMemoryIssue, State.wf_startWalk, State.wf_queueVector, State.wf_mapMe, State.wf_fillStore, State.wf_vecTimed, State.wf_mk,
      State.MemWf.hbm, State.MemWf.outside, Perf.MemWf]

@[simp] theorem wf_performVectorIssue {s : State} (w : s.MemWf) (port maj fn h r c) : (performVectorIssue s port maj fn h r c).MemWf := by
  grind [performVectorIssue, wf_performMemoryIssue, State.wf_vecTimed, wf_vectorEffect, State.wf_mk, State.MemWf.hbm, State.MemWf.outside,
      Perf.MemWf]

theorem goes_vectorRecordWord (i h r who) (s) : Result.Goes s (vectorRecordWord i h r who s) := by
  unfold vectorRecordWord
  split
  · exact goes_recordWord _ _ _ _ _ _ _ _ fun u w => w
  · exact goes_plainRecord _ _ _ _ _ _ _

theorem goes_execVectorMemoryRecord (fn h r) (s) : Result.Goes s (execVectorMemoryRecord fn h r s) := by
  unfold execVectorMemoryRecord
  exact goes_issueWord _ _ _ _ fun u w => by
    grind [State.wf_enter, Eff.MemWf, State.wf_mk, State.MemWf.hbm, State.MemWf.outside]

/-! ### The operations of `Machine/Matrix` -/

theorem goes_matrixWord (i h o noSpec absent spans) (s) : Result.Goes s (matrixWord i h o noSpec absent spans s) := by
  unfold matrixWord
  exact goes_issueWord _ _ _ _ fun u w => by
    grind [State.wf_enterWith]

theorem goes_execAcfg (h o) (s) : Result.Goes s (execAcfg h o s) := by
  unfold execAcfg
  exact goes_issueWord _ _ _ _ fun u w => by
    grind [State.wf_setMe, Eff.MemWf]

theorem goes_execAload (h o) (s) : Result.Goes s (execAload h o s) := by
  unfold execAload
  exact goes_issueWord _ _ _ _ fun u w => by
    grind [State.wf_enterWith]

theorem goes_execMvec (h o) (s) : Result.Goes s (execMvec h o s) := by
  unfold execMvec
  exact goes_issueWord _ _ _ _ fun u w => by
    grind [State.wf_enterWith, Eff.MemWf]

theorem goes_matrixRecord (i h r rows bad) (s) : Result.Goes s (matrixRecord i h r rows bad s) := by
  unfold matrixRecord
  exact goes_issueWord _ _ _ _ fun u w => by
    grind [State.wf_enterWith]

/-! ### The operations of `Machine/MatrixUnit` -/

@[simp] theorem State.wf_withCounting {s : State} (w : s.MemWf) (x) : (s.withCounting x).MemWf := by
  unfold State.withCounting
  simp [w]

@[simp] theorem State.wf_drainBank {s : State} (w : s.MemWf) : s.drainBank.MemWf := by
  unfold State.drainBank
  simp [w]

@[simp] theorem wf_mmaIssue {s : State} (w : s.MemWf) (c tile t a b) : (mmaIssue s c tile t a b).MemWf := by
  grind [mmaIssue, State.wf_mapMe, State.wf_raiseAovf, State.wf_setMe, State.wf_raiseFlags, Perf.MemWf]

@[simp] theorem wf_mmacIssue {s : State} (w : s.MemWf) (c t a b) : (mmacIssue s c t a b).MemWf := by
  grind [mmacIssue, State.wf_mapMe, State.wf_withCounting, Perf.MemWf]

@[simp] theorem State.wf_matrixDone {s : State} (w : s.MemWf) (c busy wrote) : (s.matrixDone c busy wrote).MemWf := w

@[simp] theorem wf_performMatrixWord {s : State} (w : s.MemWf) (fn h o c) : (performMatrixWord s fn h o c).MemWf := by
  unfold performMatrixWord
  dsimp only
  split
  · have wm := wf_mmaIssue w c (o.tile.toNat + c.slot) (engTypes o) (c.vals.getD 0 0).toNat (c.vals.getD 1 0).toNat
    split
    next t d e => exact (Perf.wf_go t d).1 (Perf.MemWf.of_eq wm e)
    next => exact wm
  · have wm := wf_mmacIssue w c (engTypes o) (c.vals.getD 0 0).toNat (c.vals.getD 1 0).toNat
    split
    next t d e => exact (Perf.wf_go t d).1 (Perf.MemWf.of_eq wm e)
    next => exact wm
  · refine Perf.wf_ite _ w ?_
    split
    · exact w
    · split
      · exact w
      · refine Perf.wf_ite _ w (Perf.wf_ite _ w ?_)
        simp [w]
  · refine Perf.wf_ite _ w ?_
    split <;> simp [w]
  · simp [w]
  · simp [w]
  · refine Perf.wf_ite _ w ?_
    split
    · exact w
    · exact State.wf_matrixDone (State.wf_mapMe (State.wf_raiseAovf (State.wf_raiseFlags (State.wf_setMe w _) _) _) _) _ _ _
  · refine Perf.wf_ite _ w ?_
    split
    · exact w
    · refine State.wf_matrixDone (State.wf_raiseFlags (State.wf_xstore (State.wf_ite _ (State.wf_drainBank w) w) _ _) _) _ _ _
  · split <;> simp [w]
  · simp [w]
  · refine Perf.wf_ite _ w ?_
    split <;> simp [w]
  · refine Perf.wf_ite _ w ?_
    exact State.wf_matrixDone (State.wf_ite _ (State.wf_mapMe (State.wf_setV w _ _ _) _) (State.wf_setV w _ _ _)) _ _ _
  · refine Perf.wf_ite _ w ?_
    split
    · exact w
    · refine Perf.wf_ite _ w ?_
      simp [w]
  · exact w

@[simp] theorem wf_performMatrixIssue {s : State} (w : s.MemWf) (fn r c) : (performMatrixIssue s fn r c).MemWf := by
  grind [performMatrixIssue, wf_mmacIssue, wf_mmaIssue, State.wf_mk, State.MemWf.hbm, State.MemWf.outside, Perf.MemWf]

/-! ### The operations of `Machine/Transfer` -/

@[simp] theorem State.wf_engWrite {s : State} (w : s.MemWf) (core slot system sp writes) : (s.engWrite core slot system sp writes).1.MemWf := by
  unfold State.engWrite
  dsimp only
  split
  · exact State.wf_foldl _ (fun t x w => State.wf_slotStore w _ _ _) _ _ w
  · split
    · exact w
    · exact State.wf_foldl _ (fun t x w => State.wf_physWrite _ _ _ _ w) _ _ w

@[simp] theorem State.wf_postPiece {s : State} (w : s.MemWf) (core port c) : (s.postPiece core port c).1.MemWf := by
  grind [State.postPiece, State.wf_post, State.wf_mapCore]

@[simp] theorem State.wf_deferCommand {s : State} (w : s.MemWf) (c) : (s.deferCommand c).MemWf := by
  unfold State.deferCommand
  simp [w]

theorem goes_engineWord (i port who noSpec defers h o cmd spans) (s) : Result.Goes s (engineWord i port who noSpec defers h o cmd spans s) := by
  unfold engineWord
  exact goes_issueWord _ _ _ _ fun u w => by
    grind [State.wf_deferCommand, State.wf_enterWith, Eff.MemWf]

theorem goes_engineRecord (i port who h r spans) (s) : Result.Goes s (engineRecord i port who h r spans s) := by
  unfold engineRecord
  exact goes_issueWord _ _ _ _ fun u w => by
    grind [State.wf_enterWith]

@[simp] theorem State.wf_moveUnits {s : State} (w : s.MemWf) (core m) : (s.moveUnits core m).1.MemWf := by
  unfold State.moveUnits
  simp [w]

theorem goes_transferWord (i fn h o) (s) : Result.Goes s (transferWord i fn h o s) := by
  unfold transferWord
  split
  · exact goes_issueWord _ _ _ _ fun u w => w
  · exact goes_engineWord ..

@[simp] theorem wf_performTransferWord {s : State} (w : s.MemWf) (fn o c) : (performTransferWord s fn o c).MemWf := by
  grind [performTransferWord, State.wf_moveUnits, Perf.MemWf]

theorem State.wf_credit {s : State} (w : s.MemWf) (core bar bytes) : ∀ t, s.credit core bar bytes = some t → t.MemWf := by
  unfold State.credit
  dsimp only
  split <;> simp [w]

@[simp] theorem State.wf_deferIssue {s : State} (w : s.MemWf) (c j) : (s.deferIssue c j).MemWf := by
  grind [State.deferIssue, State.wf_deferCommand, State.wf_mk, State.MemWf.hbm, State.MemWf.outside]

@[simp] theorem wf_performTransferIssue {s : State} (w : s.MemWf) (fn r c) : (performTransferIssue s fn r c).MemWf := by
  grind [performTransferIssue, State.wf_deferIssue, State.wf_moveUnits, Perf.MemWf]

theorem goes_execXpop (h o) (s) : Result.Goes s (execXpop h o s) := by
  unfold execXpop
  exact goes_issueWord _ _ _ _ fun u w => by
    grind [State.wf_setG, State.wf_acquireCaches, State.wf_mapMe, Eff.MemWf]

theorem goes_execXstat (h o) (s) : Result.Goes s (execXstat h o s) := by
  unfold execXstat
  exact goes_issueWord _ _ _ _ fun u w => by simp [w]

/-! ### The operations of `Machine/Fabric` -/

@[simp] theorem State.wf_mapCoreWith {s : State} (w : s.MemWf) (core p f) : (s.mapCoreWith core p f).MemWf := by
  unfold State.mapCoreWith
  simp [w]

@[simp] theorem State.wf_told {s : State} (w : s.MemWf) (prod bid consumer) : (s.told prod bid consumer).MemWf := by
  unfold State.told
  simp [w]

@[simp] theorem State.wf_lowerCount {s : State} (w : s.MemWf) (prod bid consumer pulled) : (s.lowerCount prod bid consumer pulled).MemWf := by
  unfold State.lowerCount
  simp [w]

@[simp] theorem State.wf_reportWith {s : State} (w : s.MemWf) (core p seq unit issuePc i) : (s.reportWith core p seq unit issuePc i).MemWf := by
  grind [State.reportWith, State.wf_logFault, State.wf_releaseCaches, State.wf_mapCoreWith]

@[simp] theorem State.wf_noticeReturned {s : State} (w : s.MemWf) (bits consumer i) : (s.noticeReturned bits consumer i).MemWf := by
  grind [State.noticeReturned, State.wf_lowerCount, State.wf_faultCommand, State.wf_reportWith]

@[simp] theorem State.wf_publishBlock {s : State} (w : s.MemWf) (core slot c b tag pri addr range) :
    (s.publishBlock core slot c b tag pri addr range).MemWf := by
  unfold State.publishBlock
  exact State.wf_foldl _ (fun t x w => by simp [w]) _ _ w

theorem goes_execPublish (h o) (s) : Result.Goes s (execPublish h o s) := by
  unfold execPublish
  exact goes_issueWord _ _ _ _ fun u w => by
    grind [State.wf_deferCommand, State.wf_enterWith, Eff.MemWf]

@[simp] theorem State.wf_publish {s : State} (w : s.MemWf) (core c p) : (s.publish core c p).1.MemWf := by
  grind [State.publish, State.wf_mapCore, State.wf_publishBlock, Perf.MemWf]

@[simp] theorem wf_performPublish {s : State} (w : s.MemWf) (c) : (performPublish s c).MemWf := by
  grind [performPublish, State.wf_publish, State.wf_mapCore, Perf.MemWf]

@[simp] theorem wf_performPublishIssue {s : State} (w : s.MemWf) (r c) : (performPublishIssue s r c).MemWf := by
  grind [performPublishIssue, State.wf_deferIssue, State.wf_publish, Perf.MemWf]

@[simp] theorem wf_performAdrainp {s : State} (w : s.MemWf) (o c) : (performAdrainp s o c).MemWf := by
  grind [performAdrainp, State.wf_drainBank, State.wf_free, State.wf_mapMe, State.wf_publishBlock, Perf.MemWf]

@[simp] theorem State.wf_withdraw {s : State} (w : s.MemWf) (core bid) : (s.withdraw core bid).MemWf := by
  unfold State.withdraw
  exact State.wf_foldl _ (fun t x w => State.wf_post w _) _ _ (State.wf_foldl _ (fun t x w => State.wf_post w _) _ _ w)

theorem goes_acceptedWord (h o f) (s) (hf : ∀ u : State, u.MemWf → (f u).1.MemWf) : Result.Goes s (acceptedWord h o f s) := by
  unfold acceptedWord
  exact goes_issueWord _ _ _ _ fun u w => by
    grind [State.wf_mapMe, State.wf_releaseCaches, State.wf_reportTo, Eff.MemWf]

theorem goes_execReclaim (h o) (s) : Result.Goes s (execReclaim h o s) := by
  unfold execReclaim
  refine goes_acceptedWord _ _ _ _ fun u w => ?_
  dsimp only
  split
  · exact w
  · split
    · exact w
    · rw [State.wf_fst_ite_iff]
      exact ⟨fun _ => w, fun _ => State.wf_mapMe (State.wf_withdraw w _ _) _⟩

theorem goes_execRextend (h o) (s) : Result.Goes s (execRextend h o s) := by
  unfold execRextend
  refine goes_acceptedWord _ _ _ _ fun u w => ?_
  dsimp only
  split
  · exact w
  · split
    · exact w
    · split <;> exact w

@[simp] theorem wf_execBlockExpiry {s : State} (w : s.MemWf) (core slot) : Result.MemWf (execBlockExpiry core slot s) := by
  grind [execBlockExpiry, State.wf_mapCore, Result.MemWf]

@[simp] theorem wf_execReclaimTrapDelivery {s : State} (w : s.MemWf) (core) : Result.MemWf (execReclaimTrapDelivery core s) := by
  grind [execReclaimTrapDelivery, State.wf_deliver, Result.MemWf]

@[simp] theorem wf_execReportedFaultDelivery {s : State} (w : s.MemWf) (core seq) : Result.MemWf (execReportedFaultDelivery core seq s) := by
  grind [execReportedFaultDelivery, State.wf_deliver, Result.MemWf]

@[simp] theorem wf_execPullCompletionArrival {s : State} (w : s.MemWf) (msg) : Result.MemWf (execPullCompletionArrival msg s) := by
  grind [execPullCompletionArrival, State.wf_lowerCount, State.wf_unpost, Result.MemWf]

@[simp] theorem wf_execDeclineArrival {s : State} (w : s.MemWf) (msg) : Result.MemWf (execDeclineArrival msg s) := by
  grind [execDeclineArrival, State.wf_lowerCount, State.wf_unpost, Result.MemWf]

/-! ### The operations of `Machine/Helm` -/

@[simp] theorem State.wf_enterNotice {s : State} (w : s.MemWf) (core bits dev asid withdrawn) :
    (s.enterNotice core bits dev asid withdrawn).MemWf := w

@[simp] theorem State.wf_acceptNotice {s : State} (w : s.MemWf) (core bits dev asid withdrawn) :
    (s.acceptNotice core bits dev asid withdrawn).MemWf := by
  grind [State.acceptNotice, State.wf_post, State.wf_enterNotice]

@[simp] theorem State.wf_useWithdrawals {s : State} (w : s.MemWf) (bits dev consumer) : (s.useWithdrawals bits dev consumer).MemWf := w

@[simp] theorem State.wf_refuseFenced {s : State} (w : s.MemWf) (bits con dev asid) : (s.refuseFenced bits con dev asid).MemWf := by
  unfold State.refuseFenced
  simp [w]

@[simp] theorem wf_execNoticeArrival {s : State} (w : s.MemWf) (msg) : Result.MemWf (execNoticeArrival msg s) := by
  grind [execNoticeArrival, State.wf_useWithdrawals, State.wf_refuseFenced, State.wf_unpost, State.wf_post, State.wf_acceptNotice, State.wf_mk,
      State.MemWf.hbm, State.MemWf.outside, Result.MemWf]

@[simp] theorem wf_execHeldNoticeEntry {s : State} (w : s.MemWf) (core) : Result.MemWf (execHeldNoticeEntry core s) := by
  grind [execHeldNoticeEntry, State.wf_refuseFenced, State.wf_unpost, State.wf_acceptNotice, Result.MemWf]

@[simp] theorem State.wf_requestSegment {s : State} (w : s.MemWf) (core n) : (s.requestSegment core n).MemWf := w

@[simp] theorem wf_execHelmPullStart {s : State} (w : s.MemWf) (core) : Result.MemWf (execHelmPullStart core s) := by
  grind [execHelmPullStart, State.wf_post, State.wf_mapCore, State.wf_requestSegment, Result.MemWf]

@[simp] theorem State.wf_withLoadReads {s : State} (w : s.MemWf) (core) : (s.withLoadReads core).MemWf := by
  unfold State.withLoadReads
  exact State.wf_foldl _ (fun t x w => by simp [w]) _ _ w

@[simp] theorem wf_execSegmentRequest {s : State} (w : s.MemWf) (core) : Result.MemWf (execSegmentRequest core s) := by
  grind [execSegmentRequest, State.wf_withLoadReads, State.wf_mapCore, State.wf_requestSegment, Result.MemWf]

@[simp] theorem State.wf_answerRead {s : State} (w : s.MemWf) (core n) : (s.answerRead core n).MemWf := by
  unfold State.answerRead
  split <;> simp [w]

@[simp] theorem wf_execNoticeRipe {s : State} (w : s.MemWf) (core entry) : Result.MemWf (execNoticeRipe core entry s) := by
  unfold execNoticeRipe
  split <;> simp [w]

@[simp] theorem wf_execSegmentRead {s : State} (w : s.MemWf) (msg) : Result.MemWf (execSegmentRead msg s) := by
  grind [execSegmentRead, State.wf_unpost, State.wf_post, Result.MemWf]

@[simp] theorem State.wf_addDrain {s : State} (w : s.MemWf) (core bits) : (s.addDrain core bits).MemWf := by
  unfold State.addDrain
  dsimp only
  split
  · exact w
  · split
    · exact w
    · exact State.wf_mapCore (State.wf_reportTo ((State.wf_setCore_iff _ _ _).2 w) _ _ _ _ _ _) _ _

@[simp] theorem State.wf_pullComplete {s : State} (w : s.MemWf) (core n) : (s.pullComplete core n).MemWf := by
  grind [State.pullComplete, State.wf_addDrain, State.wf_mapCore, State.wf_post]

@[simp] theorem State.wf_landSegment {s : State} (w : s.MemWf) (core n seg data withdrawn) : (s.landSegment core n seg data withdrawn).MemWf := by
  grind [State.landSegment, State.wf_mapCore, State.wf_pullComplete]

@[simp] theorem wf_execSegmentLand {s : State} (w : s.MemWf) (core) : Result.MemWf (execSegmentLand core s) := by
  grind [execSegmentLand, State.wf_landSegment, State.wf_unpost, Result.MemWf]

@[simp] theorem State.wf_withdrawPosts {s : State} (w : s.MemWf) (dev prod bid con) : (s.withdrawPosts dev prod bid con).MemWf := w

@[simp] theorem wf_execWithdrawalArrival {s : State} (w : s.MemWf) (msg) : Result.MemWf (execWithdrawalArrival msg s) := by
  grind [execWithdrawalArrival, State.wf_mapCoreWith, State.wf_withdrawPosts, State.wf_unpost, State.wf_mk, State.MemWf.hbm, State.MemWf.outside,
      Result.MemWf]

@[simp] theorem wf_execCollSegmentApply {s : State} (w : s.MemWf) (core) : Result.MemWf (execCollSegmentApply core s) := by
  unfold execCollSegmentApply
  split <;> simp [w]

theorem goes_portWord (i who h o) (s) : Result.Goes s (portWord i who h o s) := by
  unfold portWord
  exact goes_engineWord ..

@[simp] theorem wf_performNtake {s : State} (w : s.MemWf) (c) : (performNtake s c).MemWf := by
  unfold performNtake
  dsimp only
  split <;> simp [w]

@[simp] theorem wf_performNdecl {s : State} (w : s.MemWf) (c) : (performNdecl s c).MemWf := by
  grind [performNdecl, State.wf_post, State.wf_mapMe, Perf.MemWf]

@[simp] theorem wf_performNwait {s : State} (w : s.MemWf) (c) : (performNwait s c).MemWf := by
  grind [performNwait, State.wf_mapMe, Perf.MemWf]

@[simp] theorem wf_performHelmset {s : State} (w : s.MemWf) (c) : (performHelmset s c).MemWf := by
  unfold performHelmset
  dsimp only
  split <;> simp [w]

@[simp] theorem wf_performPwin {s : State} (w : s.MemWf) (c) : (performPwin s c).MemWf := by
  grind [performPwin, State.wf_mapMe, Perf.MemWf]

/-! ### The operations of `Machine/Collective` -/

@[simp] theorem State.wf_emitTransfer {s : State} (w : s.MemWf) (core c t opidx) : (s.emitTransfer core c t opidx).MemWf := by
  grind [State.emitTransfer, State.wf_publishBlock, Perf.MemWf]

@[simp] theorem wf_performColl {s : State} (w : s.MemWf) (c) : (performColl s c).MemWf := by
  grind [performColl, State.wf_emitTransfer, State.wf_mapMe, Perf.MemWf]

@[simp] theorem wf_performCollIssue {s : State} (w : s.MemWf) (r c) : (performCollIssue s r c).MemWf := by
  grind [performCollIssue, State.wf_emitTransfer, Perf.MemWf]

@[simp] theorem wf_performAccw {s : State} (w : s.MemWf) (o c) : (performAccw s o c).MemWf := by
  grind [performAccw, State.wf_mapMe, Perf.MemWf]

theorem goes_execRdywait (h o) (s) : Result.Goes s (execRdywait h o s) := by
  unfold execRdywait
  exact goes_issueWord _ _ _ _ fun u w => by
    split <;> simp [w]

/-! ### The operations of `Machine/Chart` -/

@[simp] theorem State.wf_structureWrite {s : State} (w : s.MemWf) (bytes) : (s.structureWrite bytes).MemWf := by
  unfold State.structureWrite
  exact State.wf_dropClean (State.wf_foldl _ (fun t x w => State.wf_physWrite _ _ _ _ w) _ _ w) _ _

@[simp] theorem State.wf_setRos {s : State} (w : s.MemWf) (q b) : (s.setRos q b).MemWf := by
  unfold State.setRos
  split
  · exact State.wf_l2Write _ _ _ w
  · exact w

/-- A step over the structures keeps the canonical form of the memories. -/
def Tx.Keeps {α : Type} (x : Tx α) : Prop := ∀ s : State, s.MemWf → ∀ v t, x.run s = .ok (v, t) → t.MemWf

theorem Tx.keeps_pure {α : Type} (v : α) : Tx.Keeps (pure v : Tx α) := by
  intro s w v t h
  cases h
  exact w

theorem Tx.keeps_bind {α β : Type} {x : Tx α} {f : α → Tx β} (hx : x.Keeps) (hf : ∀ a, (f a).Keeps) : Tx.Keeps (x >>= f) := by
  intro s w v t h
  cases hs : x.run s with
  | error i =>
    rw [StateT.run_bind, hs] at h
    cases h
  | ok r =>
    rw [StateT.run_bind, hs] at h
    exact hf r.1 r.2 (hx s w r.1 r.2 hs) v t h

theorem Tx.keeps_fault {α : Type} (i : FaultInfo) : Tx.Keeps (txFault i : Tx α) := by
  intro s w v t h
  cases h

theorem Tx.keeps_read {α : Type} (f : State → α) : Tx.Keeps (txRead f) := by
  intro s w v t h
  cases h
  exact w

theorem Tx.keeps_modify {f : State → State} (hf : ∀ s, s.MemWf → (f s).MemWf) : Tx.Keeps (txModify f) := by
  intro s w v t h
  cases h
  exact hf s w

theorem Tx.keeps_check (f : State → Option FaultInfo) : Tx.Keeps (txCheck f) := by
  intro s w v t h
  change (match f s with | some i => Except.error i | none => .ok ((), s)) = .ok (v, t) at h
  split at h
  · cases h
  · cases h
    exact w

theorem Tx.keeps_ite {α : Type} (c : Prop) [Decidable c] {x y : Tx α} (hx : x.Keeps) (hy : y.Keeps) : Tx.Keeps (if c then x else y) := by
  split
  · exact hx
  · exact hy

theorem Tx.keeps_forM {α : Type} {f : α → Tx PUnit} (hf : ∀ a, (f a).Keeps) : ∀ l : List α, Tx.Keeps (l.forM f)
  | [] => Tx.keeps_pure _
  | a :: l => Tx.keeps_bind (hf a) fun _ => Tx.keeps_forM hf l

theorem keeps_rdv (a n) : (rdv a n).Keeps := by
  unfold rdv
  exact Tx.keeps_bind (Tx.keeps_check _) fun _ => Tx.keeps_read _

theorem keeps_misaligned {α} (a) : (misaligned a : Tx α).Keeps := Tx.keeps_fault _

theorem keeps_malformed {α} (a) : (malformed a : Tx α).Keeps := Tx.keeps_fault _

theorem keeps_wrBytes (a data) : (wrBytes a data).Keeps := by
  unfold wrBytes
  exact Tx.keeps_bind (Tx.keeps_check _) fun _ => Tx.keeps_modify fun s w => State.wf_structureWrite w _

theorem keeps_wrv (a n x) : (wrv a n x).Keeps := keeps_wrBytes _ _

theorem keeps_wrEntry (a e) : (wrEntry a e).Keeps := keeps_wrv _ _ _

theorem keeps_wrOverlay (e k t) : (wrOverlay e k t).Keeps := keeps_wrv _ _ _

theorem keeps_clearOverlay (e k) : (clearOverlay e k).Keeps := keeps_wrv _ _ _

theorem keeps_rdEntry (a) : (rdEntry a).Keeps := by
  grind [rdEntry, Tx.keeps_bind, Tx.keeps_pure, keeps_rdv, keeps_misaligned, keeps_malformed]

theorem keeps_rdOverlay (e k) : (rdOverlay e k).Keeps := by
  grind [rdOverlay, Tx.keeps_bind, Tx.keeps_pure, keeps_rdv, keeps_malformed]

theorem keeps_viewFrom : ∀ (n k lvl) (e : ChartEntry), (viewFrom k lvl n e).Keeps
  | 0, _, _, _ => Tx.keeps_pure _
  | n + 1, k, lvl, e => by
    have ih := keeps_viewFrom n
    grind [viewFrom, Tx.keeps_bind, Tx.keeps_pure, keeps_rdEntry, keeps_rdOverlay]

theorem keeps_viewEntry (e k) : (viewEntry e k).Keeps := by
  grind [viewEntry, Tx.keeps_pure, keeps_viewFrom]

theorem keeps_rdPool (a) : (rdPool a).Keeps := by
  grind [rdPool, Tx.keeps_bind, Tx.keeps_pure, keeps_rdv, keeps_misaligned, keeps_malformed]

theorem keeps_refAddr (p q) : (refAddr p q).Keeps := by
  grind [refAddr, Tx.keeps_pure, keeps_malformed]

theorem keeps_addRef (p q) : (addRef p q).Keeps := by
  grind [addRef, Tx.keeps_bind, keeps_rdv, keeps_wrv, keeps_refAddr]

theorem keeps_pushPage (p q) : (pushPage p q).Keeps := by
  grind [pushPage, Tx.keeps_bind, keeps_rdv, keeps_wrv, keeps_malformed]

theorem keeps_popPage (p) : (popPage p).Keeps := by
  grind [popPage, Tx.keeps_bind, Tx.keeps_pure, keeps_rdv, keeps_wrv, keeps_refAddr]

theorem keeps_liveOwned (e ro) : (liveOwned e ro).Keeps := by
  grind [liveOwned, Tx.keeps_bind, Tx.keeps_pure, Tx.keeps_read]

theorem keeps_zeroOverlay (o c) : (zeroOverlay o c).Keeps := keeps_wrBytes _ _

theorem keeps_forkChart (child ovl cap parent p) : (forkChart child ovl cap parent p).Keeps := by
  unfold forkChart
  refine Tx.keeps_bind (keeps_zeroOverlay _ _) fun _ => ?_
  split
  · refine Tx.keeps_bind (keeps_viewEntry _ _) fun r => ?_
    split
    · split
      · grind [Tx.keeps_bind, Tx.keeps_pure, keeps_wrOverlay, keeps_rdPool, keeps_addRef, keeps_wrEntry]
      · grind [Tx.keeps_bind, Tx.keeps_pure, keeps_wrEntry]
    · grind [Tx.keeps_bind, Tx.keeps_pure, keeps_wrEntry]
  · grind [Tx.keeps_bind, Tx.keeps_pure, keeps_wrEntry]

theorem keeps_setRos (q b) : Tx.Keeps (txModify (fun s => s.setRos q b)) := Tx.keeps_modify fun _ w => State.wf_setRos w _ _

theorem keeps_dropRef (p q) : (dropRef p q).Keeps := by
  unfold dropRef
  refine Tx.keeps_bind (keeps_refAddr _ _) fun a => Tx.keeps_bind (keeps_rdv _ _) fun n => Tx.keeps_bind (keeps_wrv _ _ _) fun _ => ?_
  split
  · exact Tx.keeps_bind (keeps_setRos _ _) fun _ => keeps_pushPage _ _
  · exact Tx.keeps_pure _

theorem keeps_rdSlots (a n) : (rdSlots a n).Keeps := by
  grind [rdSlots, Tx.keeps_bind, Tx.keeps_pure, keeps_rdv]

theorem keeps_rdFields (a) : (rdFields a).Keeps := by
  grind [rdFields, Tx.keeps_bind, Tx.keeps_pure, keeps_rdv, keeps_misaligned, keeps_malformed]

theorem keeps_rdMap (a) : (rdMap a).Keeps := by
  grind [rdMap, Tx.keeps_bind, Tx.keeps_pure, keeps_rdFields, keeps_rdSlots]

theorem keeps_rdCounts (a) : (rdCounts a).Keeps := by
  grind [rdCounts, Tx.keeps_bind, Tx.keeps_pure, keeps_rdFields, keeps_rdSlots, keeps_malformed]

theorem keeps_freeChart : ∀ n a, (freeChart n a).Keeps
  | 0, _ => Tx.keeps_pure _
  | n + 1, a => by
    have ih := keeps_freeChart n
    unfold freeChart
    refine Tx.keeps_bind (keeps_rdEntry _) fun e => ?_
    split
    · exact keeps_wrEntry _ _
    · have overlays : ∀ k, Tx.Keeps (do
          let t ← rdOverlay e k
          if t.v then
            let pl ← rdPool e.pool
            dropRef pl t.ppn
            clearOverlay e k : Tx PUnit) := fun k => by
        grind [Tx.keeps_bind, Tx.keeps_pure, keeps_rdOverlay, keeps_rdPool, keeps_dropRef, keeps_clearOverlay]
      refine Tx.keeps_bind (Tx.keeps_forM overlays _) fun _ => Tx.keeps_bind (keeps_wrv _ _ _) fun _ => ?_
      simp only [ne_eq, ite_not]
      grind [Tx.keeps_bind, Tx.keeps_pure, keeps_rdEntry, keeps_wrEntry, keeps_rdCounts, keeps_wrv]

theorem keeps_flatChart (a e) : (flatChart a e).Keeps := by
  unfold flatChart
  have own : ∀ k, Tx.Keeps (do
      let own ← if k < e.cap then rdOverlay e k else pure (PageEntry.parse 0)
      if !own.v then
        match ← viewEntry e k with
        | some (t, _) =>
          wrOverlay e k t
          let pl ← rdPool e.pool
          addRef pl t.ppn
        | none => pure () : Tx PUnit) := fun k => by
    grind [Tx.keeps_bind, Tx.keeps_pure, keeps_rdOverlay, keeps_rdPool, keeps_viewEntry, keeps_addRef, keeps_wrOverlay]
  refine Tx.keeps_bind (Tx.keeps_forM own _) fun _ => ?_
  grind [Tx.keeps_bind, Tx.keeps_pure, keeps_rdEntry, keeps_wrEntry, keeps_freeChart]

theorem keeps_chartNew (a ovl pool cap) : (chartNew a ovl pool cap).Keeps := by
  unfold chartNew
  split
  · exact keeps_misaligned _
  · split
    · exact keeps_misaligned _
    · split
      · exact Tx.keeps_fault _
      · refine Tx.keeps_bind (keeps_rdPool _) fun _ => Tx.keeps_bind (keeps_rdEntry _) fun e => ?_
        split
        · exact Tx.keeps_pure _
        · exact Tx.keeps_bind (Tx.keeps_read _) fun own => Tx.keeps_bind (keeps_zeroOverlay _ _) fun _ =>
            Tx.keeps_bind (keeps_wrEntry _ _) fun _ => Tx.keeps_pure _

theorem keeps_chartFork (child ovl parent cap) : (chartFork child ovl parent cap).Keeps := by
  unfold chartFork
  simp only [ne_eq, ite_not, Bool.not_eq_true']
  split
  · split
    · split
      · exact Tx.keeps_fault _
      · refine Tx.keeps_bind (keeps_rdEntry _) fun p => Tx.keeps_bind (keeps_liveOwned _ _) fun r => ?_
        split
        · exact Tx.keeps_pure _
        · split
          · exact Tx.keeps_pure _
          · split
            · exact Tx.keeps_pure _
            · refine Tx.keeps_bind (keeps_rdEntry _) fun c => ?_
              split
              · exact Tx.keeps_pure _
              · exact Tx.keeps_bind (keeps_forkChart _ _ _ _ _) fun _ => Tx.keeps_pure _
    · exact keeps_misaligned _
  · exact keeps_misaligned _

theorem keeps_chartFlat (a) : (chartFlat a).Keeps := by
  grind [chartFlat, Tx.keeps_bind, Tx.keeps_pure, keeps_rdEntry, keeps_liveOwned, keeps_flatChart]

theorem keeps_viewFills (e) : ∀ n, (viewFills e n).Keeps
  | 0 => Tx.keeps_pure _
  | n + 1 => by
    have ih := keeps_viewFills e n
    grind [viewFills, Tx.keeps_bind, Tx.keeps_pure, keeps_viewEntry]

theorem keeps_trimPages (e pl fills t) : ∀ n, (trimPages e pl fills t n).Keeps
  | 0 => Tx.keeps_pure _
  | n + 1 => by
    have ih := keeps_trimPages e pl fills t n
    grind [trimPages, Tx.keeps_bind, Tx.keeps_pure, keeps_rdOverlay, keeps_dropRef, keeps_clearOverlay]

theorem keeps_chartTrunc (a t) : (chartTrunc a t).Keeps := by
  unfold chartTrunc
  refine Tx.keeps_bind (keeps_rdEntry _) fun e => Tx.keeps_bind (keeps_liveOwned _ _) fun r => ?_
  split
  · exact Tx.keeps_pure _
  · split
    · exact Tx.keeps_pure _
    · split
      · exact Tx.keeps_pure _
      · refine Tx.keeps_bind (keeps_viewFills _ _) fun fills => ?_
        split
        · exact Tx.keeps_pure _
        · refine Tx.keeps_bind (keeps_rdPool _) fun pl => Tx.keeps_bind (keeps_trimPages _ _ _ _ _) fun n => ?_
          split
          · grind [Tx.keeps_bind, Tx.keeps_pure, keeps_viewEntry, keeps_wrOverlay, keeps_wrEntry]
          · grind [Tx.keeps_bind, Tx.keeps_pure, keeps_wrEntry]

theorem keeps_chartSeal (a ro) : (chartSeal a ro).Keeps := by
  unfold chartSeal
  refine Tx.keeps_bind (keeps_rdEntry _) fun e => Tx.keeps_bind (keeps_liveOwned _ _) fun r => ?_
  split
  · exact Tx.keeps_pure _
  · have rest : Tx.Keeps (do
        if ro then
          (List.range e.cap).forM (fun k => do
            let t ← rdOverlay e k
            if t.v then
              wrOverlay e k { t with ros := true }
              txModify (fun s => s.setRos t.ppn true))
          wrEntry a { e with ro := true }
        pure (chartResult .done 0) : Tx Nat) := by
      split
      · refine Tx.keeps_bind (Tx.keeps_forM (fun k => Tx.keeps_bind (keeps_rdOverlay _ _) fun t => ?_) _) fun _ =>
          Tx.keeps_bind (keeps_wrEntry _ _) fun _ => Tx.keeps_pure _
        split
        · exact Tx.keeps_bind (keeps_wrOverlay _ _ _) fun _ => keeps_setRos _ _
        · exact Tx.keeps_pure _
      · exact Tx.keeps_pure _
    dsimp only at rest ⊢
    split
    · refine Tx.keeps_bind (keeps_viewEntry _ _) fun v => ?_
      split
      · split
        · split
          · exact Tx.keeps_bind (keeps_rdPool _) fun pl => Tx.keeps_bind (keeps_addRef _ _) fun _ =>
              Tx.keeps_bind (keeps_wrOverlay _ _ _) fun _ => rest
          · exact Tx.keeps_bind (keeps_wrOverlay _ _ _) fun _ => rest
        · exact rest
      · exact rest
    · exact rest

theorem keeps_chartFree (a) : (chartFree a).Keeps := by
  grind [chartFree, Tx.keeps_bind, Tx.keeps_pure, keeps_rdEntry, keeps_liveOwned, keeps_freeChart]

theorem keeps_chartGive (a t) : (chartGive a t).Keeps := by
  grind [chartGive, Tx.keeps_bind, Tx.keeps_pure, Tx.keeps_fault, keeps_rdEntry, keeps_liveOwned, keeps_wrEntry]

theorem keeps_wrPage (pa data) : (wrPage pa data).Keeps := by
  unfold wrPage
  exact Tx.keeps_bind (Tx.keeps_check _) fun _ => Tx.keeps_modify fun s w => State.wf_structureWrite w _

theorem keeps_remember (a n) : (remember a n).Keeps := Tx.keeps_read _

theorem Tx.keeps_either {α β : Type} (c : Prop) [Decidable c] {x y : Tx α} {f : α → Tx β} (hx : x.Keeps) (hy : y.Keeps)
    (hf : ∀ a, (f a).Keeps) : Tx.Keeps (if c then x >>= f else y >>= f) :=
  Tx.keeps_ite c (Tx.keeps_bind hx hf) (Tx.keeps_bind hy hf)

theorem keeps_appendToken (a slot raw) : (appendToken a slot raw).Keeps := by
  unfold appendToken
  refine Tx.keeps_bind (keeps_rdEntry _) fun e => Tx.keeps_bind (keeps_liveOwned _ _) fun r => ?_
  split
  · exact Tx.keeps_pure _
  · refine Tx.keeps_bind (keeps_rdPool _) fun pl => ?_
    extract_lets d vals m done sc withView
    have hdone : ∀ u, (done u).Keeps := fun u => Tx.keeps_pure _
    have hview : ∀ view, (withView view).Keeps := fun view => by
      refine Tx.keeps_bind (keeps_remember _ _) fun before => ?_
      extract_lets fresh withLast
      have hlast : ∀ last, (withLast last).Keeps := fun last => by
        refine Tx.keeps_either _ (keeps_remember _ _) (Tx.keeps_pure _) fun next => ?_
        split
        · exact Tx.keeps_pure _
        · split
          · exact Tx.keeps_pure _
          · beta_reduce
            extract_lets write take
            have hwrite : ∀ x, (write x).Keeps := fun x => by
              refine Tx.keeps_bind (keeps_wrPage _ _) fun _ => Tx.keeps_bind (keeps_wrPage _ _) fun _ =>
                Tx.keeps_bind (keeps_wrOverlay _ _ _) fun _ => Tx.keeps_bind (Tx.keeps_read _) fun epoch =>
                Tx.keeps_bind (keeps_wrEntry _ _) fun _ => ?_
              split
              · exact Tx.keeps_bind (Tx.keeps_modify fun _ w => w) hdone
              · exact hdone ()
            split
            · have htake : ∀ u, (take u).Keeps := fun u =>
                Tx.keeps_bind (keeps_popPage _) fun q => Tx.keeps_bind (Tx.keeps_pure _) hwrite
              split
              · split
                · exact Tx.keeps_bind (keeps_wrOverlay _ _ _) htake
                · exact htake ()
              · exact htake ()
            · split
              · exact Tx.keeps_bind (Tx.keeps_pure _) hwrite
              · exact Tx.keeps_bind (Tx.keeps_pure _) hwrite
      exact Tx.keeps_either _ (keeps_remember _ _) (Tx.keeps_pure _) hlast
    exact Tx.keeps_either _ (Tx.keeps_pure _) (keeps_viewEntry _ _) hview

theorem keeps_pushBack (l) : (pushBack l).Keeps := by
  exact Tx.keeps_forM (fun p => Tx.keeps_bind (keeps_rdPool _) fun _ => keeps_dropRef _ _) _

theorem keeps_mapSet (a e s) : (mapSet a e s).Keeps := by
  grind [mapSet, Tx.keeps_bind, Tx.keeps_pure, Tx.keeps_fault, keeps_misaligned, keeps_rdMap, keeps_wrv]

theorem keeps_rdEntries : ∀ l, (rdEntries l).Keeps
  | [] => Tx.keeps_pure _
  | a :: l => by
    have ih := keeps_rdEntries l
    grind [rdEntries, Tx.keeps_bind, Tx.keeps_pure, keeps_rdEntry]

theorem keeps_permute (m sel) : ∀ n nsp seen, (permute m sel n nsp seen).Keeps
  | 0, _, _ => Tx.keeps_pure _
  | n + 1, nsp, seen => by
    have ih := keeps_permute m sel n
    grind [permute, Tx.keeps_bind, Tx.keeps_pure, keeps_misaligned, keeps_wrv, keeps_rdEntry, keeps_forkChart, keeps_flatChart, keeps_wrEntry]

theorem keeps_mapPermute (a sel selAt) : (mapPermute a sel selAt).Keeps := by
  unfold mapPermute
  refine Tx.keeps_bind (keeps_rdCounts _) fun m => ?_
  dsimp only
  split
  · exact Tx.keeps_fault _
  · split
    · exact keeps_malformed _
    · refine Tx.keeps_bind (keeps_rdEntries _) fun es => Tx.keeps_bind (keeps_rdEntries _) fun spares =>
        Tx.keeps_bind (Tx.keeps_read _) fun own => ?_
      split
      · exact Tx.keeps_pure _
      · split
        · exact Tx.keeps_pure _
        · split
          · exact Tx.keeps_pure _
          · split
            · exact Tx.keeps_pure _
            · refine Tx.keeps_bind (keeps_permute _ _ _ _ _) fun new => Tx.keeps_bind (Tx.keeps_forM (fun o => ?_) _) fun _ =>
                Tx.keeps_bind (Tx.keeps_forM (fun o => keeps_wrv _ _ _) _) fun _ => Tx.keeps_pure _
              split
              · exact Tx.keeps_pure _
              · exact keeps_freeChart _ _

@[simp] theorem State.wf_withoutAppends {s : State} (w : s.MemWf) (core j) : (s.withoutAppends core j).MemWf := by
  unfold State.withoutAppends
  exact State.wf_foldl _ (fun t x w => State.wf_foldl _ (fun t u w => State.wf_physWriteBytes _ _ _ _ w) _ _ w) _ _ w

@[simp] theorem State.wf_removeAppends {s : State} (w : s.MemWf) (core j settle) : (s.removeAppends core j settle).MemWf := by
  unfold State.removeAppends
  extract_lets mine gone u t pushed spec settled
  have wt : t.MemWf := State.wf_withoutAppends w core j
  have wp : pushed.MemWf := by
    dsimp only [pushed]
    split
    next v x e => exact keeps_pushBack _ t wt v x e
    next => exact wt
  have hspec : ∀ t chart, t.MemWf → (spec t chart).MemWf := fun t chart wt => by
    dsimp only [spec]
    split
    next v x e => exact Tx.keeps_bind (keeps_rdEntry chart) (fun e => keeps_wrEntry _ _) t wt v x e
    next => exact wt
  have ws : settled.MemWf := State.wf_foldl spec hspec _ _ wp
  exact ws

@[simp] theorem State.wf_appendAll (slot lst src) : ∀ (n i) {s : State}, s.MemWf → (s.appendAll slot lst src n i).1.MemWf
  | 0, _, _, w => w
  | n + 1, i, s, w => by
    unfold State.appendAll
    extract_lets core a higher t
    have wt : t.MemWf := by
      dsimp only [t]
      split
      · exact State.wf_removeAppends (State.wf_mapMe w _) _ _ _
      · exact w
    split
    · exact wt
    · split
      · exact wt
      next o u e => exact State.wf_ite _ (State.wf_squash wt) wt
      next u e =>
        have wu : u.MemWf := keeps_appendToken _ _ _ t wt _ _ e
        split
        · exact State.wf_squash wt
        · exact State.wf_appendAll slot lst src n (i + 1) wu

/-! ### The operations of `Machine/ChartUnit` -/

theorem goes_chartWord (i noSpec h o spans) (s) : Result.Goes s (chartWord i noSpec h o spans s) := by
  unfold chartWord
  exact goes_engineWord ..

theorem wf_runChart {s : State} (w : s.MemWf) (c) {f : Tx Nat} (hf : f.Keeps) : (runChart s c f).MemWf := by
  unfold runChart
  split
  next => exact w
  next v t e => exact hf s w v t e

@[simp] theorem State.wf_chartOutput {s : State} (w : s.MemWf) (c at_ data) : (s.chartOutput c at_ data).MemWf := by
  unfold State.chartOutput
  simp [w]

@[simp] theorem wf_performChappend {s : State} (w : s.MemWf) (o c) : (performChappend s o c).MemWf := by
  grind [performChappend, State.wf_appendAll, Perf.MemWf]

@[simp] theorem wf_performChlook {s : State} (w : s.MemWf) (c) : (performChlook s c).MemWf := by
  grind [performChlook, State.wf_chartOutput, Perf.MemWf]

@[simp] theorem wf_performBmperm {s : State} (w : s.MemWf) (c) : (performBmperm s c).MemWf := by
  unfold performBmperm
  refine wf_runChart w c ?_
  exact Tx.keeps_bind (keeps_rdCounts _) fun m => Tx.keeps_bind (Tx.keeps_check _) fun _ => Tx.keeps_bind (Tx.keeps_read _) fun sel =>
    keeps_mapPermute _ _ _

@[simp] theorem wf_performBmlook {s : State} (w : s.MemWf) (c) : (performBmlook s c).MemWf := by
  grind [performBmlook, State.wf_chartOutput, Perf.MemWf]

@[simp] theorem wf_performChartWord {s : State} (w : s.MemWf) (fn o c) : (performChartWord s fn o c).MemWf := by
  unfold performChartWord
  dsimp only
  split
  · exact wf_runChart w c (keeps_chartNew _ _ _ _)
  · exact wf_runChart w c (keeps_chartFork _ _ _ _)
  · exact wf_runChart w c (keeps_chartFlat _)
  · exact wf_performChappend w o c
  · exact wf_performChlook w c
  · exact wf_runChart w c (keeps_chartTrunc _ _)
  · exact wf_runChart w c (keeps_chartSeal _ _)
  · exact wf_runChart w c (keeps_chartFree _)
  · exact wf_runChart w c (keeps_chartGive _ _)

@[simp] theorem wf_performMapWord {s : State} (w : s.MemWf) (fn c) : (performMapWord s fn c).MemWf := by
  unfold performMapWord
  split
  · exact wf_runChart w c (keeps_mapSet _ _ _)
  · exact wf_performBmperm w c
  · exact wf_performBmlook w c

/-! ### The operations of `Machine/MemorySide` -/

@[simp] theorem wf_inputFault {s : State} (w : s.MemWf) (f) : (inputFault s f).MemWf := by
  unfold inputFault
  simp [w]

theorem State.wf_putOutput {s : State} (w : s.MemWf) (c slot sp at_ opidx data) :
    ∀ t, s.putOutput c slot sp at_ opidx data = .inl t → t.1.MemWf := by
  unfold State.putOutput
  split <;> simp [w]

theorem wf_finishOutput {s : State} (w : s.MemWf) (c slot sp at_ opidx data after) (hafter : ∀ (u : State) (c : Command), u.MemWf → (after u
    c).1.MemWf) :
    (finishOutput s c slot sp at_ opidx data after).MemWf := by
  unfold finishOutput
  refine Perf.wf_ite _ w ?_
  split
  next => exact w
  next r e => exact hafter r.1 r.2 (State.wf_putOutput w _ _ _ _ _ _ r e)

@[simp] theorem State.wf_select {s : State} (w : s.MemWf) (c slot t row sp dst p after) (hafter : ∀ (u : State) (c : Command), u.MemWf → (after u
    c).1.MemWf) : (s.select c slot t row sp dst p after).MemWf := by
  grind [State.select, wf_inputFault, wf_finishOutput, Perf.MemWf]

@[simp] theorem wf_performSortk {s : State} (w : s.MemWf) (o c) : (performSortk s o c).MemWf := by
  grind [performSortk, State.wf_select]

@[simp] theorem wf_performSortkIssue {s : State} (w : s.MemWf) (r c) : (performSortkIssue s r c).MemWf := by
  grind [performSortkIssue, State.wf_select, State.wf_mk, State.MemWf.hbm, State.MemWf.outside, Eff.MemWf, Perf.MemWf, Applied.MemWf,
      LineRead.MemWf, Fetched.MemWf]

@[simp] theorem wf_performEchoose {s : State} (w : s.MemWf) (o c) : (performEchoose s o c).MemWf := by
  grind [performEchoose, wf_inputFault, wf_finishOutput, State.wf_mapMe, Perf.MemWf]

@[simp] theorem wf_performRcsnap {s : State} (w : s.MemWf) (o c) : (performRcsnap s o c).MemWf := by
  grind [performRcsnap, wf_finishOutput, State.wf_mapMe]

@[simp] theorem State.wf_attend {s : State} (w : s.MemWf) (c slot t query entry dst after) (hafter : ∀ (u : State) (c : Command), u.MemWf → (after
    u c).1.MemWf) : (s.attend c slot t query entry dst after).MemWf := by
  grind [State.attend, wf_inputFault, wf_finishOutput, Perf.MemWf]

@[simp] theorem wf_performLattn {s : State} (w : s.MemWf) (o c) : (performLattn s o c).MemWf := by
  grind [performLattn, State.wf_attend]

@[simp] theorem wf_performLattnIssue {s : State} (w : s.MemWf) (r c) : (performLattnIssue s r c).MemWf := by
  grind [performLattnIssue, State.wf_attend, State.wf_mk, State.MemWf.hbm, State.MemWf.outside, Eff.MemWf, Perf.MemWf, Applied.MemWf,
      LineRead.MemWf, Fetched.MemWf]

@[simp] theorem wf_performMemorySide {s : State} (w : s.MemWf) (fn o c) : (performMemorySide s fn o c).MemWf := by
  unfold performMemorySide
  split
  · exact wf_performSortk w o c
  · exact wf_performEchoose w o c
  · exact wf_performRcsnap w o c
  · exact wf_performLattn w o c

/-! ### The operations of `Machine/Reckoner` -/

theorem goes_roundWord (who srcs dsts h body) (s) (hbody : ∀ u : State, u.MemWf → (body u).MemWf) :
    Result.Goes s (roundWord who srcs dsts h body s) := by
  unfold roundWord
  exact goes_issueWord _ _ _ _ fun u w => by
    grind []

theorem goes_execRkbegin (h o) (s) : Result.Goes s (execRkbegin h o s) := by
  unfold execRkbegin
  refine goes_roundWord _ _ _ _ _ _ fun u w => ?_
  dsimp only
  split
  · trivial
  · split
    · trivial
    · split
      · trivial
      · split
        · trivial
        · exact State.wf_pushShadow (State.wf_mapMe w _) _

theorem goes_execAcmp (h o) (s) : Result.Goes s (execAcmp h o s) := by
  unfold execAcmp
  exact goes_issueWord _ _ _ _ fun u w => by
    split <;> simp [w]

theorem Applied.wf_andThen {a : Applied} (wa : a.MemWf) {f} (hf : ∀ u : State, u.MemWf → (f u).MemWf) : (a.andThen f).MemWf := by
  cases a with
  | done s => exact hf s wa
  | held s on => exact wa

@[simp] theorem State.wf_ownerStore {s : State} (w : s.MemWf) (x) : (s.ownerStore x).MemWf := by
  grind [State.ownerStore, State.wf_mapMe, State.wf_queueStore, Applied.MemWf]

theorem State.wf_applyStores (j) : ∀ (l) {s : State}, s.MemWf → (s.applyStores j l).MemWf
  | [], _, w => w
  | x :: rest, s, w => by
    unfold State.applyStores
    split
    next t e => exact State.wf_applyStores j rest (Applied.MemWf.of_eq (State.wf_ownerStore w x) e)
    next => exact w

theorem State.wf_applyResults (j) : ∀ (l) {s : State}, s.MemWf → (s.applyResults j l).MemWf
  | [], _, w => w
  | x :: rest, s, w => by
    unfold State.applyResults
    split
    · exact State.wf_applyResults j rest w
    · exact w

theorem State.wf_applyDeferred (j) : ∀ (l) {s : State}, s.MemWf → (s.applyDeferred j l).MemWf
  | [], _, w => w
  | c :: rest, s, w => by
    unfold State.applyDeferred
    dsimp only
    split
    · exact w
    · split
      · exact w
      · split
        · exact w
        · refine State.wf_applyDeferred j rest ?_
          rw [State.wf_with]
          exact w

@[simp] theorem State.wf_applySlot {s : State} (w : s.MemWf) (j) : (s.applySlot j).MemWf := by
  unfold State.applySlot
  dsimp only
  refine Applied.wf_andThen (State.wf_applyStores _ _ ?_) fun u wu => Applied.wf_andThen (State.wf_applyResults _ _ wu) fun v wv => ?_
  · exact State.wf_mapMe w _
  · exact State.wf_applyDeferred _ _ wv

@[simp] theorem State.wf_applySlots {s : State} (w : s.MemWf) : ∀ n, (s.applySlots n).MemWf
  | 0 => w
  | n + 1 => Applied.wf_andThen (State.wf_applySlots w n) fun _ wu => State.wf_applySlot wu _

@[simp] theorem wf_closeRound {s : State} (w : s.MemWf) (a dest) : (closeRound s a dest).MemWf := by
  grind [closeRound, State.wf_mapMySeq, State.wf_applySlots, State.wf_removeAppends, State.wf_mapMe, State.wf_setG, State.wf_reportTo, Eff.MemWf,
      Applied.MemWf]

theorem goes_execRkcommit (h o) (s) : Result.Goes s (execRkcommit h o s) := by
  unfold execRkcommit
  refine goes_roundWord _ _ _ _ _ _ fun u w => ?_
  exact Eff.wf_ite _ (wf_closeRound w _ _) trivial

theorem goes_execRkend (h o) (s) : Result.Goes s (execRkend h o s) := by
  unfold execRkend
  refine goes_roundWord _ _ _ _ _ _ fun u w => ?_
  split
  · exact w
  · trivial
  · exact wf_closeRound w _ _

theorem goes_execRkstat (h o) (s) : Result.Goes s (execRkstat h o s) := by
  unfold execRkstat
  exact goes_issueWord _ _ _ _ fun u w => by simp [w]

/-! ### The operations of `Machine/Engine` -/

@[simp] theorem State.wf_performWord {s : State} (w : s.MemWf) (port c) : (s.performWord port c).MemWf := by
  grind [State.performWord, wf_performAdrainp, wf_performMatrixWord, wf_performTransferWord, wf_performPublish, wf_performNtake, wf_performNdecl,
      wf_performNwait, wf_performHelmset, wf_performPwin, wf_performColl, wf_performAccw, wf_performMemorySide, wf_performChartWord,
      wf_performMapWord, wf_performVectorWord, Perf.MemWf]

@[simp] theorem State.wf_performIssue {s : State} (w : s.MemWf) (port c) : (s.performIssue port c).MemWf := by
  grind [State.performIssue, wf_performMatrixIssue, wf_performTransferIssue, wf_performPublishIssue, wf_performCollIssue, wf_performSortkIssue,
      wf_performLattnIssue, wf_performVectorIssue, Perf.MemWf]

@[simp] theorem State.wf_issueFault {s : State} (w : s.MemWf) (core port c f) : (s.issueFault core port c f).1.MemWf := by
  grind [State.issueFault, State.wf_squash, State.wf_holdFault, State.wf_mapCore, State.wf_faultCommand, State.wf_mk, State.MemWf.hbm,
      State.MemWf.outside]

@[simp] theorem State.wf_postOut {s : State} (w : s.MemWf) (core port c) : (s.postOut core port c).MemWf := by
  grind [State.postOut, State.wf_postPiece, State.wf_mapCore, State.wf_issueFault, State.wf_credit]

@[simp] theorem State.wf_missCommand {s : State} (w : s.MemWf) (core port c) : (s.missCommand core port c).MemWf := by
  unfold State.missCommand
  simp [w]

@[simp] theorem State.wf_readFirst {s : State} (w : s.MemWf) (core port c pas) : (s.readFirst core port c pas).MemWf := by
  unfold State.readFirst
  split <;> simp [w]

@[simp] theorem State.wf_ownReads {s : State} (w : s.MemWf) (core id) : (s.ownReads core id).MemWf := w

@[simp] theorem State.wf_usedReads {t : State} (w : t.MemWf) (s core id) : (t.usedReads s core id).MemWf := w

@[simp] theorem State.wf_work {s : State} (w : s.MemWf) (core port c) : (s.work core port c).MemWf := by
  unfold State.work
  extract_lets cur back isRecord x t missing
  have wb : ∀ u, u.MemWf → (back u).MemWf := fun u w => State.wf_usedReads w s core c.id
  have wt : t.MemWf := State.wf_ownReads w core c.id
  split
  · exact w
  · split
    · exact State.wf_readFirst w _ _ _ _
    · split
      · exact w
      · have wp : (if isRecord then t.performIssue port c else t.performWord port c).MemWf :=
          Perf.wf_ite _ (State.wf_performIssue wt _ _) (State.wf_performWord wt _ _)
        split
        next u e =>
          split
          · exact State.wf_missCommand w _ _ _
          · rw [State.wf_with]
            exact State.wf_mapCore (Perf.MemWf.of_eq wp e) _ _
        next u f e =>
          have wu : u.MemWf := Perf.MemWf.of_eq wp e
          have wi : ({ u with noted := [] }.issueFault core port c f).1.MemWf := State.wf_issueFault ((State.wf_with _ ..).2 wu) core port c f
          split
          next v d ev => exact wb _ (State.wf_mapCore (State.MemWf.of_fst wi ev) _ _)
          next v ev => exact wb _ (State.MemWf.of_fst wi ev)
        next u d e =>
          have wu : u.MemWf := Perf.MemWf.of_eq wp e
          exact wb _ (State.wf_postOut ((State.wf_with _ ..).2 wu) _ _ _)

@[simp] theorem State.startCommand.wf_go {s : State} (w : s.MemWf) (core port c) : (State.startCommand.go s core port c).MemWf := by
  unfold State.startCommand.go
  dsimp only
  refine State.wf_work ?_ _ _ _
  simp [w]

@[simp] theorem State.wf_startCommand {s : State} (w : s.MemWf) (core port c) : (s.startCommand core port c).MemWf := by
  unfold State.startCommand
  dsimp only
  split
  · exact State.wf_postOut w _ _ _
  · split
    · exact State.wf_ite _ w (State.wf_work w _ _ _)
    · split
      · exact State.wf_ite _ w (State.wf_ite _ (State.wf_missCommand w _ _ _) (State.startCommand.wf_go w _ _ _))
      · exact State.wf_ite _ w (State.startCommand.wf_go w _ _ _)

@[simp] theorem wf_onPort (core port f) (hf : (f ()).MemWf) : Result.MemWf (onPort core port f) := by
  grind [onPort, Result.MemWf]

@[simp] theorem State.wf_takeUp {s : State} (w : s.MemWf) (core port) : (s.takeUp core port).MemWf := w

@[simp] theorem State.wf_flushOut {s : State} (w : s.MemWf) (core port c) : (s.flushOut core port c).MemWf := by
  unfold State.flushOut
  simp [w]

@[simp] theorem wf_execEngineCommandStart {s : State} (w : s.MemWf) (core port) : Result.MemWf (execEngineCommandStart core port s) := by
  grind [execEngineCommandStart, wf_onPort, State.wf_flushOut, State.wf_missCommand, State.wf_startCommand, State.wf_takeUp]

@[simp] theorem wf_execRecordIssue {s : State} (w : s.MemWf) (core port) : Result.MemWf (execRecordIssue core port s) := by
  grind [execRecordIssue, wf_onPort, State.wf_flushOut, State.wf_startCommand, State.wf_takeUp]

@[simp] theorem wf_execTriggeredCommandStart {s : State} (w : s.MemWf) (core port) : Result.MemWf (execTriggeredCommandStart core port s) := by
  grind [execTriggeredCommandStart, wf_onPort, State.wf_startCommand]

@[simp] theorem State.wf_complete {s : State} (w : s.MemWf) (core port c r) : (s.complete core port c r).MemWf := by
  grind [State.complete, State.wf_mapCore, State.wf_commandTokens, State.wf_dropClean]

@[simp] theorem wf_execCommandComplete {s : State} (w : s.MemWf) (core port) : Result.MemWf (execCommandComplete core port s) := by
  unfold execCommandComplete
  refine wf_onPort _ _ _ ?_
  dsimp only
  split
  · exact State.wf_ite _ (State.wf_mapCore w _ _) w
  · split
    · exact w
    · split
      · exact w
      · refine State.wf_ite _ w (State.wf_ite _ w ?_)
        split
        · exact State.wf_complete w _ _ _ _
        · split
          next t e => exact State.wf_complete (State.wf_credit w _ _ _ t e) _ _ _ _
          next => exact State.wf_faultCommand w _ _ _ _

/-! ### The operations of `Machine/Translation` -/

@[simp] theorem wf_execPageWalkComplete {s : State} (w : s.MemWf) (walk) : Result.MemWf (execPageWalkComplete walk s) := by
  grind [execPageWalkComplete, State.wf_tlbFill, State.wf_mapCore, State.wf_mk, State.MemWf.hbm, State.MemWf.outside, Result.MemWf]

@[simp] theorem wf_execTigoInvalidate {s : State} (w : s.MemWf) (bytes) : Result.MemWf (execTigoInvalidate bytes s) := by
  unfold execTigoInvalidate
  split <;> simp [w]

@[simp] theorem wf_execTlbInvalidateComplete {s : State} (w : s.MemWf) : Result.MemWf (execTlbInvalidateComplete s) := by
  unfold execTlbInvalidateComplete
  split
  · exact w
  · split
    · exact w
    · simp only [Result.wf_next, State.wf_with]
      exact State.wf_mapCores (State.wf_foldl _ (fun t x w => State.wf_releaseCaches w x.1 .device) s.cores s w) _

/-! ### The operations of `Machine/Tiles` -/

@[simp] theorem State.wf_setGranules {s : State} (w : s.MemWf) (core n) : (s.setGranules core n).MemWf := by
  unfold State.setGranules
  exact State.wf_foldl _ (fun t x w => by simp [w]) _ _ w

@[simp] theorem State.wf_startTile {s : State} (w : s.MemWf) (core l n) : (s.startTile core l n).MemWf := by
  grind [State.startTile, State.wf_forgetCount, State.wf_setGranules, State.wf_mapCore]

@[simp] theorem State.wf_mapLaunch {s : State} (w : s.MemWf) (q lseq f) : (s.mapLaunch q lseq f).MemWf := w

@[simp] theorem State.wf_declineNotices {s : State} (w : s.MemWf) (core notices) : (s.declineNotices core notices).MemWf := by
  unfold State.declineNotices
  exact State.wf_foldl _ (fun t x w => by split <;> simp [w]) _ _ w

@[simp] theorem State.wf_dropPulls {s : State} (w : s.MemWf) (core) : (s.dropPulls core).MemWf := w

@[simp] theorem State.wf_leaveGroups {s : State} (w : s.MemWf) (core launch) : (s.leaveGroups core launch).MemWf := by
  unfold State.leaveGroups
  exact State.wf_foldl _ (fun t x w => by simp [w]) _ _ w

@[simp] theorem State.wf_discardRound {s : State} (w : s.MemWf) (core) : (s.discardRound core).MemWf := by
  unfold State.discardRound
  split <;> simp [w]

@[simp] theorem State.wf_leaveTile {s : State} (w : s.MemWf) (core) : (s.leaveTile core).MemWf := by
  grind [State.leaveTile, State.wf_discardRound, State.wf_dropPulls, State.wf_declineNotices, State.wf_noteCount, State.wf_mapCore,
      State.wf_leaveGroups]

@[simp] theorem wf_execTileEnd {s : State} (w : s.MemWf) (core) : Result.MemWf (execTileEnd core s) := by
  grind [execTileEnd, State.wf_mapLaunch, State.wf_leaveTile, Result.MemWf]

@[simp] theorem State.wf_dropTile {s : State} (w : s.MemWf) (core) : (s.dropTile core).MemWf := by
  unfold State.dropTile
  dsimp only
  refine State.wf_mapCore (State.wf_foldl _ (fun t x w => State.wf_mapCore (State.wf_withdraw w _ _) _ _) _ _ ?_) _ _
  refine State.wf_foldl _ (fun t x w => State.wf_mapCoreWith w _ _ _) _ _ ?_
  exact State.wf_discardRound (State.wf_dropPulls (State.wf_declineNotices w _ _) _) _

@[simp] theorem State.wf_endStopped {s : State} (w : s.MemWf) (core f) : (s.endStopped core f).MemWf := by
  grind [State.endStopped, State.wf_mapCore, State.wf_dropTile, State.wf_mapLaunch, State.wf_leaveTile]

@[simp] theorem wf_execTileEndByFault {s : State} (w : s.MemWf) (core) : Result.MemWf (execTileEndByFault core s) := by
  grind [execTileEndByFault, State.wf_settleYields, State.wf_endStopped, State.wf_mapLaunch, Result.MemWf]

@[simp] theorem wf_execRemoteBlockServe {s : State} (w : s.MemWf) (core) : Result.MemWf (execRemoteBlockServe core s) := by
  unfold execRemoteBlockServe
  split
  · trivial
  · dsimp only
    split
    · exact w
    · split
      · exact w
      · split
        · split
          · exact w
          · exact State.wf_ite _ (State.wf_acquireCaches (State.wf_mapCoreWith (State.wf_mapCore w _ _) _ _ _) _ _) (State.wf_mapCore w _ _)
        · split
          · exact w
          · split
            · exact State.wf_reportTo (State.wf_mapCore w _ _) _ _ _ _ _ _
            next i ei =>
              split
              · exact w
              · split
                next t n e =>
                  rw [Result.wf_next, State.wf_with]
                  refine State.wf_mapCore (Eff.MemWf.of_eq ?_ e) _ _
                  exact State.wf_withSpans ((State.wf_with s ..).2 w) (State.wf_enterAs ((State.wf_with s ..).2 w) _ _ _ _ _) _ _
                · exact w
                · exact w

/-! ### The operations of `Machine/Launches` -/

@[simp] theorem State.wf_faultQueue {s : State} (w : s.MemWf) (q code) : (s.faultQueue q code).MemWf := w

@[simp] theorem State.wf_askPacket {s : State} (w : s.MemWf) (q a) : (s.askPacket q a).MemWf := w

@[simp] theorem State.wf_answerRing {s : State} (w : s.MemWf) (q) : (s.answerRing q).MemWf := by
  unfold State.answerRing
  split <;> simp [w]

@[simp] theorem State.wf_writeRecord {s : State} (w : s.MemWf) (a data launch) : (s.writeRecord a data launch).MemWf := by
  grind [State.writeRecord, State.wf_post, State.wf_physWriteBytes, State.wf_mk, State.MemWf.hbm, State.MemWf.outside]

@[simp] theorem wf_execPacketRead {s : State} (w : s.MemWf) (queue) : Result.MemWf (execPacketRead queue s) := by
  grind [execPacketRead, State.wf_askPacket, State.wf_writeRecord, State.wf_mapQueue, State.wf_settleYields, State.wf_faultQueue, State.wf_mk,
      State.MemWf.hbm, State.MemWf.outside, Result.MemWf]

theorem State.wf_serveLevel (level queues cands) : ∀ (n) {s : State}, s.MemWf → ∀ t, s.serveLevel level queues cands n = some t → t.2.MemWf
  | 0, _, _, _, h => nomatch h
  | n + 1, s, w, t, h => by
    unfold State.serveLevel at h
    dsimp only at h
    split at h
    · cases h
      exact State.wf_mapQueue w _ _
    · split at h
      · cases h
      · exact State.wf_serveLevel level queues cands n (State.wf_mapQueue ((State.wf_with s ..).2 w) _ _) t h

theorem State.wf_arbitrate {s : State} (w : s.MemWf) (core) : ∀ t, s.arbitrate core = some t → t.2.MemWf := by
  intro t h
  unfold State.arbitrate at h
  dsimp only at h
  split at h
  · cases h
    exact w
  · split at h
    · cases h
    · exact State.wf_serveLevel _ _ _ _ w t h

@[simp] theorem State.wf_countDecision {s : State} (w : s.MemWf) (q) : (s.countDecision q).MemWf := by
  unfold State.countDecision
  simp [w]

@[simp] theorem State.wf_dispatch {s : State} (w : s.MemWf) (core l) : (s.dispatch core l).MemWf := by
  grind [State.dispatch, State.wf_settleYields, State.wf_mapLaunch, State.wf_startTile]

@[simp] theorem State.wf_setMembership {s : State} (w : s.MemWf) (l die) : (s.setMembership l die).MemWf := by
  grind [State.setMembership, State.wf_mapLaunch, State.wf_setGroup]

@[simp] theorem wf_execCoreOffer {s : State} (w : s.MemWf) (core) : Result.MemWf (execCoreOffer core s) := by
  unfold execCoreOffer
  split
  · trivial
  · split
    · exact w
    · split
      · exact w
      next q t e =>
        have wt : t.MemWf := State.wf_arbitrate w core _ e
        split
        · exact w
        · split
          · exact w
          · dsimp only
            split
            · split
              · exact State.wf_setMembership w _ _
              · exact State.wf_countDecision (State.wf_dispatch (State.wf_setMembership wt _ _) _ _) _
            · exact State.wf_countDecision (State.wf_dispatch wt _ _) _

@[simp] theorem State.wf_discardContexts {s : State} (w : s.MemWf) (p) : (s.discardContexts p).MemWf := by
  unfold State.discardContexts
  dsimp only
  rw [State.wf_with]
  refine State.wf_foldl _ (fun t x w => State.wf_leaveGroups w _ _) _ _ (State.wf_foldl _ (fun t x w => ?_) _ _ w)
  refine State.wf_foldl _ (fun t y w => State.wf_mapCoreWith w _ _ _) _ _ (State.wf_declineNotices ?_ _ _)
  exact State.wf_foldl _ (fun t b w => State.wf_withdraw w _ _) _ _ w

@[simp] theorem State.wf_finishLaunch {s : State} (w : s.MemWf) (queue lseq) : (s.finishLaunch queue lseq).MemWf := w

@[simp] theorem wf_execLaunchComplete {s : State} (w : s.MemWf) (queue lseq) : Result.MemWf (execLaunchComplete queue lseq s) := by
  grind [execLaunchComplete, State.wf_writeRecord, State.wf_discardContexts, State.wf_finishLaunch, Result.MemWf]

@[simp] theorem wf_execPreemptTrigger {s : State} (w : s.MemWf) (queue) : Result.MemWf (execPreemptTrigger queue s) := by
  grind [execPreemptTrigger, State.wf_mapCore, State.wf_retractCount, Result.MemWf]

@[simp] theorem State.wf_writeArea {s : State} (w : s.MemWf) (pa) : (s.writeArea pa).MemWf := by
  unfold State.writeArea
  split <;> simp [w]

@[simp] theorem wf_execContextSave {s : State} (w : s.MemWf) (core) : Result.MemWf (execContextSave core s) := by
  grind [execContextSave, State.wf_writeArea, State.wf_mapCore, State.wf_noteCount, State.wf_mk, State.MemWf.hbm, State.MemWf.outside, Result.MemWf]

@[simp] theorem wf_execTileResume {s : State} (w : s.MemWf) (core) : Result.MemWf (execTileResume core s) := by
  unfold execTileResume
  split
  · trivial
  · split
    · exact w
    · split
      · exact w
      next q t e =>
        have wt : t.MemWf := State.wf_arbitrate w core _ e
        split
        · exact w
        next x ex =>
          refine State.wf_countDecision (State.wf_ite _ (State.wf_mapCore ?_ _ _) ?_) _
          all_goals exact State.wf_lowerPhase (State.wf_mapCore ((State.wf_with _ ..).2 (State.wf_setGranules wt _ _)) _ _) _

@[simp] theorem State.wf_abortQueue {s : State} (w : s.MemWf) (q) : (s.abortQueue q).MemWf := by
  unfold State.abortQueue
  dsimp only
  refine State.wf_settleYields (State.wf_mapQueue (State.wf_foldl _ (fun t c w => ?_) _ _ ?_) _ _)
  · exact State.wf_mapCore (State.wf_retractCount w _) _ _
  · exact (State.wf_with _ ..).2 (State.wf_discardContexts w _)

@[simp] theorem wf_execQctlEnable {s : State} (w : s.MemWf) (queue) : Result.MemWf (execQctlEnable queue s) := by
  grind [execQctlEnable, State.wf_mapQueue, State.wf_mapCores, Result.MemWf]

@[simp] theorem wf_execQctlDrain {s : State} (w : s.MemWf) (queue) : Result.MemWf (execQctlDrain queue s) := by
  grind [execQctlDrain, State.wf_settleYields, State.wf_mapQueue, Result.MemWf]

@[simp] theorem wf_execQctlAbort {s : State} (w : s.MemWf) (queue) : Result.MemWf (execQctlAbort queue s) := by
  grind [execQctlAbort, State.wf_abortQueue, Result.MemWf]

@[simp] theorem wf_execQueueDrainDone {s : State} (w : s.MemWf) (queue) : Result.MemWf (execQueueDrainDone queue s) := by
  grind [execQueueDrainDone, State.wf_mapQueue, Result.MemWf]

@[simp] theorem wf_execQueueAbortDone {s : State} (w : s.MemWf) (queue) : Result.MemWf (execQueueAbortDone queue s) := by
  unfold execQueueAbortDone
  split
  · trivial
  · split
    · exact w
    · have wt := State.wf_foldl (fun (s : State) c => s.endStopped c (fun l => l)) (fun t c w => State.wf_endStopped w _ _)
        ((s.cores.filter (fun x => match x.2.tile with
          | some t => t.queue == queue && t.killed
          | none => false)).map (fun x => x.1)) s w
      exact State.wf_ite _ (State.wf_mapQueue wt _ _) wt

@[simp] theorem wf_execQwrDoorbell {s : State} (w : s.MemWf) (queue value) : Result.MemWf (execQwrDoorbell queue value s) := by
  unfold execQwrDoorbell
  split <;> simp [w]

/-! ### The operations of `Machine/Shards` -/

@[simp] theorem State.wf_writeEntry {s : State} (w : s.MemWf) (e lo data) : (s.writeEntry e lo data).MemWf := by
  grind [State.writeEntry, State.wf_physWriteBytes]

@[simp] theorem State.wf_quarantine {s : State} (w : s.MemWf) (e cause) : (s.quarantine e cause).MemWf := by
  unfold State.quarantine
  exact State.wf_foldl _ (fun t q w => State.wf_abortQueue w q) _ _ ((State.wf_with _ ..).2 (State.wf_writeEntry w _ _ _))

@[simp] theorem wf_execWfenceClear {s : State} (w : s.MemWf) (index value) : Result.MemWf (execWfenceClear index value s) := by
  unfold execWfenceClear
  split <;> simp [w]

@[simp] theorem State.wf_wcmdResult {s : State} (w : s.MemWf) (r) : (s.wcmdResult r).MemWf := w

@[simp] theorem State.wf_tagFrames {s : State} (w : s.MemWf) (base len tag) : (s.tagFrames base len tag).MemWf := w

@[simp] theorem State.wf_flushRange {s : State} (w : s.MemWf) (lo len) : (s.flushRange lo len).MemWf := by
  unfold State.flushRange
  refine State.wf_foldl _ (fun t c w => State.wf_passByte _ _ w) _ _ (State.wf_foldl _ (fun t x w => ?_) _ _ w)
  exact State.wf_mapCore (State.wf_foldl _ (fun t l w => State.wf_writeBack w l) _ _ w) _ _

@[simp] theorem State.wf_registerShard {s : State} (w : s.MemWf) (e ingress) : (s.registerShard e ingress).MemWf := by
  grind [State.registerShard, State.wf_wcmdResult, State.wf_tagFrames, State.wf_flushRange, State.wf_writeEntry, State.wf_mk, State.MemWf.hbm,
      State.MemWf.outside]

@[simp] theorem wf_execWcmdIngress {s : State} (w : s.MemWf) (entry) : Result.MemWf (execWcmdIngress entry s) := by
  unfold execWcmdIngress
  split <;> simp [w]

@[simp] theorem wf_execWcmdLocal {s : State} (w : s.MemWf) (entry) : Result.MemWf (execWcmdLocal entry s) := by
  unfold execWcmdLocal
  split <;> simp [w]

@[simp] theorem State.wf_zeroHbm {s : State} (w : s.MemWf) (lo len) : (s.zeroHbm lo len).MemWf :=
  ⟨Memory.wf_clear _ _ _ w.1, w.2⟩

@[simp] theorem wf_execWcmdRelease {s : State} (w : s.MemWf) (entry) : Result.MemWf (execWcmdRelease entry s) := by
  grind [execWcmdRelease, State.wf_wcmdResult, State.wf_writeEntry, State.wf_tagFrames, State.wf_zeroHbm, State.wf_mk, State.MemWf.hbm,
      State.MemWf.outside, Result.MemWf]

@[simp] theorem State.wf_validate {s : State} (w : s.MemWf) (e) : (s.validate e).MemWf := by
  unfold State.validate
  simp [w]

@[simp] theorem State.wf_shardBlocks {s : State} (w : s.MemWf) (e addr data) : (s.shardBlocks e addr data).MemWf := by
  grind [State.shardBlocks, State.wf_quarantine, State.wf_physWriteBytes, State.wf_mk, State.MemWf.hbm, State.MemWf.outside]

@[simp] theorem wf_execShardBlockWrite {s : State} (w : s.MemWf) (addr data) : Result.MemWf (execShardBlockWrite addr data s) := by
  unfold execShardBlockWrite
  split <;> simp [w]

@[simp] theorem wf_execShardIngressCheckDone {s : State} (w : s.MemWf) (entry) : Result.MemWf (execShardIngressCheckDone entry s) := by
  grind [execShardIngressCheckDone, State.wf_quarantine, State.wf_validate, State.wf_mk, State.MemWf.hbm, State.MemWf.outside, Result.MemWf]

@[simp] theorem wf_execShardLocalCheckDone {s : State} (w : s.MemWf) (entry) : Result.MemWf (execShardLocalCheckDone entry s) := by
  grind [execShardLocalCheckDone, State.wf_quarantine, State.wf_validate, Result.MemWf]

@[simp] theorem wf_execShardPatrolPass {s : State} (w : s.MemWf) : Result.MemWf (execShardPatrolPass s) := by
  unfold execShardPatrolPass
  split
  · exact w
  · refine State.wf_foldl _ (fun t e w => ?_) _ _ ((State.wf_with s ..).2 w)
    exact State.wf_ite _ w (State.wf_ite _ (State.wf_quarantine w _ _) (State.wf_ite _ (State.wf_writeEntry w _ _ _) (State.wf_quarantine w _ _)))

/-! ### The operations of `Machine/Links` -/

@[simp] theorem wf_onNumberedPort (port f) (hf : (f ()).MemWf) : Result.MemWf (onNumberedPort port f) := by
  grind [onNumberedPort, Result.MemWf]

@[simp] theorem State.wf_credited {s : State} (w : s.MemWf) (port) : (s.credited port).MemWf := w

@[simp] theorem wf_execFlitForward {s : State} (w : s.MemWf) (msg) : Result.MemWf (execFlitForward msg s) := by
  grind [execFlitForward, State.wf_mapPort, State.wf_unpost, Result.MemWf]

@[simp] theorem State.wf_acceptFlit {s : State} (w : s.MemWf) (port) : (s.acceptFlit port).MemWf := w

@[simp] theorem State.wf_linkCredit {s : State} (w : s.MemWf) (port lane) : (s.linkCredit port lane).MemWf := w

@[simp] theorem wf_execFlitReplay {s : State} (w : s.MemWf) (port) : Result.MemWf (execFlitReplay port s) := by
  grind [execFlitReplay, wf_onNumberedPort, State.wf_mapPort]

@[simp] theorem wf_execWriteOfferArrival {s : State} (w : s.MemWf) (port offer) : Result.MemWf (execWriteOfferArrival port offer s) := by
  grind [execWriteOfferArrival, wf_onNumberedPort, State.wf_fresh, State.wf_credited, State.wf_mapPort]

@[simp] theorem wf_execWriteOfferPull {s : State} (w : s.MemWf) (port) : Result.MemWf (execWriteOfferPull port s) := by
  grind [execWriteOfferPull, wf_onNumberedPort, State.wf_post, State.wf_setPort]

@[simp] theorem State.wf_give {s : State} (w : s.MemWf) (core entry n) : (s.give core entry n).MemWf := by
  grind [State.give, State.wf_post, State.wf_mapCore, State.wf_mapPort, State.wf_mk, State.MemWf.hbm, State.MemWf.outside]

@[simp] theorem State.wf_writeOutside {s : State} (w : s.MemWf) (addr data holes) : (s.writeOutside addr data holes).MemWf := by
  unfold State.writeOutside
  refine State.wf_foldl _ (fun t b w => State.wf_ite _ w ?_) _ _ w
  split
  · exact ⟨w.1, Memory.wf_write _ _ _ w.2⟩
  · exact ⟨w.1, Memory.wf_write _ _ _ w.2⟩
  · exact w

@[simp] theorem State.wf_writeFault {s : State} (w : s.MemWf) (core e c info) : (s.writeFault core e c info).MemWf := by
  unfold State.writeFault
  dsimp only
  split <;> simp [w]

@[simp] theorem State.wf_answerWrite {s : State} (w : s.MemWf) (core e answer) : (s.answerWrite core e answer).MemWf := by
  grind [State.answerWrite, State.wf_mapCore, State.wf_free, State.wf_writeFault, State.wf_writeOutside]

@[simp] theorem State.wf_answerForwarded {s : State} (w : s.MemWf) (port o answer) : (s.answerForwarded port o answer).MemWf := by
  grind [State.answerForwarded, State.wf_mapPort, State.wf_post, State.wf_writeOutside]

@[simp] theorem State.wf_answerRecord {s : State} (w : s.MemWf) (r answer) : (s.answerRecord r answer).MemWf := by
  grind [State.answerRecord, State.wf_writeOutside, State.wf_finishLaunch, State.wf_mk, State.MemWf.hbm, State.MemWf.outside]

@[simp] theorem wf_execRemoteWriteAck {s : State} (w : s.MemWf) (core entry answer) : Result.MemWf (execRemoteWriteAck core entry answer s) := by
  grind [execRemoteWriteAck, State.wf_answerWrite, State.wf_answerForwarded, State.wf_answerRecord, Result.MemWf]

@[simp] theorem wf_execRemoteReadRequest {s : State} (w : s.MemWf) (port addr bytes) : Result.MemWf (execRemoteReadRequest port addr bytes s) := by
  grind [execRemoteReadRequest, wf_onNumberedPort, State.wf_mapPort, State.wf_credited]

@[simp] theorem State.wf_remoteAtomic {s : State} (w : s.MemWf) (port addr n op b c) : (s.remoteAtomic port addr n op b c).MemWf := by
  grind [State.remoteAtomic, State.wf_credited, State.wf_mapPort, State.wf_physWriteBytes]

@[simp] theorem State.wf_lostWrite {s : State} (w : s.MemWf) (core entry addr info) : (s.lostWrite core entry addr info).MemWf := by
  grind [State.lostWrite, State.wf_writeFault, State.wf_mapCore, State.wf_answerForwarded, State.wf_answerRecord]

@[simp] theorem State.wf_returned {s : State} (w : s.MemWf) (m info) : (s.returned m info).MemWf := by
  unfold State.returned
  split
  · exact State.wf_noticeReturned w _ _ _
  · exact State.wf_ite _ (State.wf_post (State.wf_reportTo w _ _ _ _ _ _) _) w
  · exact State.wf_ite _ (State.wf_reportWith w _ _ _ _ _ _) w
  · exact State.wf_reportTo w _ _ _ _ _ _
  · exact State.wf_reportTo w _ _ _ _ _ _
  · exact State.wf_reportTo w _ _ _ _ _ _
  · exact State.wf_lostWrite w _ _ _ _
  · exact State.wf_lostWrite w _ _ _ _
  · exact State.wf_foldl _ (fun t p w => State.wf_mapPort w _ _) _ _ w
  · exact w
  · exact w
  · exact w
  · exact w

@[simp] theorem State.wf_sendBack {s : State} (w : s.MemWf) (m info) : (s.sendBack m info).MemWf := by
  unfold State.sendBack
  simp [w]

@[simp] theorem wf_execUndeliverableReturn {s : State} (w : s.MemWf) (msg) : Result.MemWf (execUndeliverableReturn msg s) := by
  grind [execUndeliverableReturn, State.wf_sendBack, State.wf_unpost, Result.MemWf]

@[simp] theorem State.wf_receive {s : State} (w : s.MemWf) (port hops m) : (s.receive port hops m).MemWf := by
  unfold State.receive
  dsimp only
  repeat' split
  all_goals simp [w]

@[simp] theorem State.wf_fencePort {s : State} (w : s.MemWf) (port) : (s.fencePort port).MemWf := by
  unfold State.fencePort
  refine State.wf_foldl _ (fun t y w => State.wf_ite _ w (State.wf_post w _)) _ _ (State.wf_foldl _ (fun t y w => ?_) _ _ (State.wf_mapPort w _ _))
  exact State.wf_ite _ ((State.wf_with t ..).2 w) (State.wf_sendBack w _ _)

@[simp] theorem wf_execPortFence {s : State} (w : s.MemWf) (port) : Result.MemWf (execPortFence port s) := by
  grind [execPortFence, wf_onNumberedPort, State.wf_fencePort]

@[simp] theorem State.wf_unfencePort {s : State} (w : s.MemWf) (port) : (s.unfencePort port).MemWf := by
  unfold State.unfencePort
  simp [w]

/-! ### The operations of `Machine/Recovery` -/

@[simp] theorem State.wf_countStack {s : State} (w : s.MemWf) (stack corrected uncorrectable retired) :
    (s.countStack stack corrected uncorrectable retired).MemWf := w

@[simp] theorem State.wf_countCluster {s : State} (w : s.MemWf) (cluster corrected uncorrectable) :
    (s.countCluster cluster corrected uncorrectable).MemWf := w

@[simp] theorem wf_execErrorCountClear {s : State} (w : s.MemWf) (cluster index value) :
    Result.MemWf (execErrorCountClear cluster index value s) := by
  grind [execErrorCountClear, State.wf_mk, State.MemWf.hbm, State.MemWf.outside, Result.MemWf]

@[simp] theorem wf_execFllostClear {s : State} (w : s.MemWf) (value) : Result.MemWf (execFllostClear value s) := by
  unfold execFllostClear
  simp [w]

@[simp] theorem State.wf_settleDie {s : State} (w : s.MemWf) (die) : (s.settleDie die).MemWf := by
  unfold State.settleDie
  exact State.wf_foldl _ (fun t x w => by simp [w]) _ _ w

@[simp] theorem State.wf_fenceCore {s : State} (w : s.MemWf) (core) : (s.fenceCore core).MemWf := by
  grind [State.fenceCore, State.wf_settleYields, State.wf_settleDie, State.wf_mk, State.MemWf.hbm, State.MemWf.outside]

@[simp] theorem State.wf_fenceCluster {s : State} (w : s.MemWf) (cluster) : (s.fenceCluster cluster).MemWf := by
  grind [State.fenceCluster, State.wf_settleYields, State.wf_settleDie, State.wf_mk, State.MemWf.hbm, State.MemWf.outside]

@[simp] theorem State.wf_quarantineIn {s : State} (w : s.MemWf) (lo len) : (s.quarantineIn lo len).MemWf := by
  unfold State.quarantineIn
  exact State.wf_foldl _ (fun t x w => by simp [w]) _ _ w

@[simp] theorem State.wf_fenceStack {s : State} (w : s.MemWf) (stack) : (s.fenceStack stack).MemWf := by
  unfold State.fenceStack
  exact State.wf_foldl _ (fun t x w => by simp [w]) _ _ w

@[simp] theorem State.wf_retireFrame {s : State} (w : s.MemWf) (frame) : (s.retireFrame frame).MemWf := by
  grind [State.retireFrame, State.wf_quarantineIn, State.wf_countStack, State.wf_fenceStack, State.wf_mk, State.MemWf.hbm, State.MemWf.outside]

@[simp] theorem State.wf_dataErrorOn {s : State} (w : s.MemWf) (core info) : (s.dataErrorOn core info).MemWf := by
  grind [State.dataErrorOn, State.wf_free, State.wf_faultCommand, State.wf_raiseCause]

@[simp] theorem wf_execEccCorrected {s : State} (w : s.MemWf) (site) : Result.MemWf (execEccCorrected site s) := by
  unfold execEccCorrected
  dsimp only
  repeat' split
  all_goals simp [w]

@[simp] theorem wf_execEccUncorrectable {s : State} (w : s.MemWf) (site) : Result.MemWf (execEccUncorrectable site s) := by
  unfold execEccUncorrectable
  refine Result.wf_ite _ trivial ?_
  rw [Result.wf_next]
  cases site with
  | coreArray c => exact State.wf_fenceCore (State.wf_dataErrorOn (State.wf_countCluster w _ _ _) _ _) _
  | clusterTlb c => exact State.wf_fenceCluster (State.wf_dataErrorOn (State.wf_countCluster (State.wf_free w) _ _ _) _ _) _
  | barrierNet c => exact State.wf_fenceCluster w _
  | l2Way sl st wy => exact State.wf_ite _ w (State.wf_countCluster ((State.wf_with _ ..).2 (State.wf_free w)) _ _ _)
  | hbmFrame f => exact State.wf_retireFrame w _
  | baseUnit u => exact State.wf_countStack ((State.wf_with s ..).2 w) _ _ _ _
  | port p => exact State.wf_fencePort w _
  | bridge d => exact (State.wf_with s ..).2 w

@[simp] theorem wf_execPatrolScrub {s : State} (w : s.MemWf) : Result.MemWf (execPatrolScrub s) := w

@[simp] theorem wf_execStackLosesTraining {s : State} (w : s.MemWf) (stack) : Result.MemWf (execStackLosesTraining stack s) := by
  unfold execStackLosesTraining
  split <;> simp [w]

@[simp] theorem wf_execBaseDieError {s : State} (w : s.MemWf) (stack) : Result.MemWf (execBaseDieError stack s) := by
  unfold execBaseDieError
  split <;> simp [w]

@[simp] theorem State.wf_wipeCore {s : State} (w : s.MemWf) (core) : (s.wipeCore core).MemWf := by
  unfold State.wipeCore
  refine State.wf_settleYields ((State.wf_setCore_iff _ _ _).2 ?_)
  split
  · exact w
  · exact State.wf_mapLaunch (State.wf_leaveTile (State.wf_dropTile w _) _) _ _ _

@[simp] theorem wf_execUnfenceCore {s : State} (w : s.MemWf) (index value) : Result.MemWf (execUnfenceCore index value s) := by
  unfold execUnfenceCore
  refine Result.wf_ite _ trivial ?_
  exact State.wf_foldl _ (fun t c w => State.wf_wipeCore ((State.wf_with t ..).2 w) _) _ _ w

@[simp] theorem wf_execUnfenceCluster {s : State} (w : s.MemWf) (value) : Result.MemWf (execUnfenceCluster value s) := by
  unfold execUnfenceCluster
  refine State.wf_foldl _ (fun t cl w => ?_) _ _ w
  exact State.wf_foldl _ (fun t i w => State.wf_wipeCore w _) _ _ ((State.wf_with t ..).2 w)

@[simp] theorem wf_execUnfenceStack {s : State} (w : s.MemWf) (value) : Result.MemWf (execUnfenceStack value s) := by
  unfold execUnfenceStack
  exact State.wf_foldl _ (fun t x w => by split <;> simp [w]) _ _ w

@[simp] theorem wf_execUnfenceUnit {s : State} (w : s.MemWf) (index value) : Result.MemWf (execUnfenceUnit index value s) := by
  unfold execUnfenceUnit
  split <;> simp [w]

@[simp] theorem State.wf_withCheckpoint {s : State} (w : s.MemWf) (c) : (s.withCheckpoint c).MemWf := w

@[simp] theorem State.wf_stopAll {s : State} (w : s.MemWf) : s.stopAll.MemWf := by
  unfold State.stopAll
  refine State.wf_foldl _ (fun t c w => ?_) _ _ w
  split
  · exact w
  · exact State.wf_ite _ w (State.wf_mapCore (State.wf_retractCount w _) _ _)

@[simp] theorem wf_execCkctlSave {s : State} (w : s.MemWf) : Result.MemWf (execCkctlSave s) := by
  grind [execCkctlSave, State.wf_stopAll, State.wf_withCheckpoint, Result.MemWf]

@[simp] theorem wf_execCheckpointQuiesced {s : State} (w : s.MemWf) : Result.MemWf (execCheckpointQuiesced s) := by
  unfold execCheckpointQuiesced
  dsimp only
  split <;> simp [w]

@[simp] theorem State.wf_copyFrame {s : State} (w : s.MemWf) (f) : (s.copyFrame f).MemWf := by
  grind [State.copyFrame, State.wf_writeOutside, State.wf_retireFrame, State.wf_withCheckpoint]

@[simp] theorem State.wf_copyFrames {s : State} (w : s.MemWf) (n) : (s.copyFrames n).MemWf := by
  unfold State.copyFrames
  exact State.wf_foldl _ (fun t x w => by simp [w]) _ _ w

@[simp] theorem wf_execCheckpointCopyDone {s : State} (w : s.MemWf) : Result.MemWf (execCheckpointCopyDone s) := by
  unfold execCheckpointCopyDone
  split <;> simp [w]

@[simp] theorem wf_execCheckpointError {s : State} (w : s.MemWf) : Result.MemWf (execCheckpointError s) := by
  grind [execCheckpointError, State.wf_free, State.wf_copyFrames, State.wf_withCheckpoint, Result.MemWf]

@[simp] theorem wf_execCkctlRestore {s : State} (w : s.MemWf) : Result.MemWf (execCkctlRestore s) := by
  unfold execCkctlRestore
  dsimp only
  split <;> simp [w]

@[simp] theorem wf_execCheckpointRestoreDone {s : State} (w : s.MemWf) : Result.MemWf (execCheckpointRestoreDone s) := by
  unfold execCheckpointRestoreDone
  refine Result.wf_ite _ w ?_
  dsimp only
  rw [Result.wf_next]
  refine State.wf_withCheckpoint ((State.wf_with _ ..).2 ?_) _
  refine State.wf_foldl _ (fun t f w => ?_) _ _ ((State.wf_with _ ..).2 (State.wf_free w))
  exact State.wf_withCheckpoint (State.wf_physWriteBytes _ _ _ _ w) _

/-! ### The operations of `Machine/Trust` -/

@[simp] theorem State.wf_wiped {s : State} (w : s.MemWf) : s.wiped.MemWf := ⟨Table.wfFrom_filter 0 _ w.1, w.2⟩

@[simp] theorem State.wf_boot {s : State} (w : s.MemWf) : s.boot.MemWf := by
  grind [State.boot, State.wf_free, State.wf_mk, State.MemWf.hbm, State.MemWf.outside]

@[simp] theorem State.wf_trainStacks {s : State} (w : s.MemWf) : s.trainStacks.MemWf := w

@[simp] theorem State.wf_configure {s : State} (w : s.MemWf) : s.configure.MemWf := by
  unfold State.configure
  exact State.wf_foldl _ (fun t x w => by simp [w]) _ _ w

@[simp] theorem State.wf_bringUpStep {s : State} (w : s.MemWf) : s.bringUpStep.MemWf := by
  grind [State.bringUpStep, State.wf_boot, State.wf_trainStacks, State.wf_configure, State.wf_mk, State.MemWf.hbm, State.MemWf.outside]

@[simp] theorem State.wf_powerOn {s : State} (w : s.MemWf) : s.powerOn.MemWf := by
  unfold State.powerOn
  simp [w]

@[simp] theorem wf_execPowerOnReset {s : State} (w : s.MemWf) : Result.MemWf (execPowerOnReset s) := by
  unfold execPowerOnReset
  simp [w]

@[simp] theorem wf_execPowerLoss {s : State} (w : s.MemWf) : Result.MemWf (execPowerLoss s) := by
  unfold execPowerLoss
  simp [w]

@[simp] theorem State.wf_tcmdResult {s : State} (w : s.MemWf) (r) : (s.tcmdResult r).MemWf := w

@[simp] theorem wf_execTcmdLcchange {s : State} (w : s.MemWf) : Result.MemWf (execTcmdLcchange s) := by
  grind [execTcmdLcchange, State.wf_tcmdResult, State.wf_powerOn, State.wf_mk, State.MemWf.hbm, State.MemWf.outside, Result.MemWf]

@[simp] theorem wf_execTcmdQuote {s : State} (w : s.MemWf) : Result.MemWf (execTcmdQuote s) := by
  grind [execTcmdQuote, State.wf_tcmdResult, State.wf_physWriteBytes, State.wf_mk, State.MemWf.hbm, State.MemWf.outside, Result.MemWf]

@[simp] theorem wf_execTcmdKeyinstall {s : State} (w : s.MemWf) (asid) : Result.MemWf (execTcmdKeyinstall asid s) := by
  grind [execTcmdKeyinstall, State.wf_tcmdResult, State.wf_mk, State.MemWf.hbm, State.MemWf.outside, Result.MemWf]

@[simp] theorem wf_execTcmdKeyclear {s : State} (w : s.MemWf) (asid) : Result.MemWf (execTcmdKeyclear asid s) := by
  grind [execTcmdKeyclear, State.wf_tcmdResult, State.wf_mk, State.MemWf.hbm, State.MemWf.outside, Result.MemWf]

@[simp] theorem wf_execPowerManagerCheck {s : State} (w : s.MemWf) : Result.MemWf (execPowerManagerCheck s) := by
  unfold execPowerManagerCheck
  split <;> simp [w]

@[simp] theorem wf_execThermalStop {s : State} (w : s.MemWf) : Result.MemWf (execThermalStop s) := by
  unfold execThermalStop
  split <;> simp [w]

@[simp] theorem wf_execThermalRestart {s : State} (w : s.MemWf) : Result.MemWf (execThermalRestart s) := by
  unfold execThermalRestart
  split <;> simp [w]

@[simp] theorem wf_execPldmSensorRead {s : State} (w : s.MemWf) (sensor) : Result.MemWf (execPldmSensorRead sensor s) := by
  unfold execPldmSensorRead
  split <;> simp [w]

/-! ### The operations of `Machine/HostRegisters` -/

@[simp] theorem wf_after {s : State} (w : s.MemWf) {r : Result} (wr : Result.MemWf r) : (after s r).MemWf := by
  unfold after
  split
  next => exact wr
  next => exact w

@[simp] theorem State.wf_writeQueue {s : State} (w : s.MemWf) (q r v) : (s.writeQueue q r v).MemWf := by
  unfold State.writeQueue
  extract_lets x idle ring put
  have wp : ∀ b f, (put b f).MemWf := fun b f => State.wf_ite _ (State.wf_mapQueue w _ _) w
  split
  · exact wp _ _
  · exact wp _ _
  · exact wp _ _
  · exact wf_after w (wf_execQwrDoorbell w _ _)
  · exact wp _ _
  · exact wp _ _
  · exact wp _ _
  · exact wp _ _
  · split
    · exact wf_after w (wf_execQctlEnable w _)
    · exact wf_after w (wf_execQctlDrain w _)
    · exact wf_after w (wf_execQctlAbort w _)
    · exact w
  · exact w

@[simp] theorem State.wf_writeTlb {s : State} (w : s.MemWf) (r v) : (s.writeTlb r v).MemWf := by
  unfold State.writeTlb
  split <;> simp [w, wf_after]

@[simp] theorem State.wf_writeShard {s : State} (w : s.MemWf) (r v) : (s.writeShard r v).MemWf := by
  unfold State.writeShard
  split <;> simp [w, wf_after]

@[simp] theorem State.wf_writeFaults {s : State} (w : s.MemWf) (r v) : (s.writeFaults r v).MemWf := by
  unfold State.writeFaults
  refine State.wf_ite _ (wf_after w (wf_execUnfenceCore w _ _)) (State.wf_ite _ (wf_after w (wf_execUnfenceUnit w _ _))
    (State.wf_ite _ (wf_after w (wf_execErrorCountClear w _ _ _)) (State.wf_ite _ (wf_after w (wf_execErrorCountClear w _ _ _)) ?_)))
  split
  · exact State.wf_ite _ w w
  · exact State.wf_ite _ w w
  · exact w
  · exact wf_after w (wf_execFllostClear w _)
  · exact State.wf_ite _ w w
  · exact wf_after w (wf_execUnfenceCluster w _)
  · exact wf_after w (wf_execUnfenceStack w _)
  · exact State.wf_withCheckpoint w _
  · split
    · exact wf_after w (wf_execCkctlSave w)
    · exact wf_after w (wf_execCkctlRestore w)
    · exact w
  · exact w

@[simp] theorem State.wf_writeTrust {s : State} (w : s.MemWf) (r v) : (s.writeTrust r v).MemWf := by
  unfold State.writeTrust
  split <;> simp [w]

@[simp] theorem State.wf_hostWrite {s : State} (w : s.MemWf) (off v) : (s.hostWrite off v).MemWf := by
  grind [State.hostWrite, State.wf_writeQueue, State.wf_writeTlb, State.wf_writeShard, State.wf_writeFaults, State.wf_writeTrust,
      State.wf_writeLinkOrManagement]

@[simp] theorem State.wf_hostWriteBytes {s : State} (w : s.MemWf) (off data) : (s.hostWriteBytes off data).MemWf := by
  unfold State.hostWriteBytes
  dsimp only
  split <;> simp [w]

@[simp] theorem wf_execRegisterWrite {s : State} (w : s.MemWf) (off value) : Result.MemWf (execRegisterWrite off value s) := by
  unfold execRegisterWrite
  split <;> simp [w]

@[simp] theorem State.wf_homeWrite {s : State} (w : s.MemWf) (addr data) : (s.homeWrite addr data).1.MemWf := by
  unfold State.homeWrite
  dsimp only
  split
  · exact w
  · split
    · exact w
    · split
      · exact w
      · split
        · dsimp only
          exact State.wf_shardBlocks w _ _ _
        · rw [State.wf_fst_ite_iff]
          exact ⟨fun _ => w, fun _ => State.wf_physWriteBytes _ _ _ _ w⟩
        · dsimp only
          exact State.wf_foldl _ (fun t e w => State.wf_quarantine w _ _) _ _ w

@[simp] theorem State.wf_acknowledge {s : State} (w : s.MemWf) (port o answer) : (s.acknowledge port o answer).MemWf := w

@[simp] theorem State.wf_performOffer {s : State} (w : s.MemWf) (port y) : (s.performOffer port y).MemWf := by
  grind [State.performOffer, State.wf_mapPort, State.wf_acknowledge, State.wf_hostWriteBytes, State.wf_post, State.wf_homeWrite]

@[simp] theorem wf_execRemoteWritePerform {s : State} (w : s.MemWf) (port) : Result.MemWf (execRemoteWritePerform port s) := by
  unfold execRemoteWritePerform
  split <;> simp [w]

@[simp] theorem wf_execHostRegisterAccess {s : State} (w : s.MemWf) (port access) : Result.MemWf (execHostRegisterAccess port access s) := by
  unfold execHostRegisterAccess
  refine wf_onNumberedPort _ _ ?_
  dsimp only
  refine State.wf_ite _ w ?_
  cases access with
  | write addr data => exact State.wf_mapPort (State.wf_fresh (State.wf_credited w _)) _ _
  | read addr bytes => exact State.wf_mapPort (State.wf_credited w _) _ _

/-! ### The operations of `Machine/Fetch` -/

@[simp] theorem State.wf_fetchLine {s : State} (w : s.MemWf) (core q a) : (s.fetchLine core q a).MemWf := by
  grind [State.fetchLine, State.wf_mapCore, LineRead.MemWf]

@[simp] theorem State.wf_fetchWord {s : State} (w : s.MemWf) : s.fetchWord.MemWf := by
  grind [State.fetchWord, State.wf_fetchLine, State.wf_mapMySeq, State.wf_startWalk, State.wf_takeTrap, LineRead.MemWf, Fetched.MemWf]

@[simp] theorem State.wf_settleDue {s t : State} (w : s.MemWf) (wt : t.MemWf) (core q) : (s.settleDue core q t).MemWf := by
  unfold State.settleDue
  split
  · exact wt
  · split
    · exact State.wf_ite _ (State.wf_deliver wt _ _) wt
    · exact State.wf_ite _ wt (State.wf_ite _ wt (State.wf_deliver w _ _))

@[simp] theorem State.wf_seqTurn {s : State} (w : s.MemWf) (core q) : (s.seqTurn core q).MemWf := by
  grind [State.seqTurn, State.wf_mapMySeq, State.wf_fetchWord, State.wf_settleDue, State.wf_mk, State.MemWf.hbm, State.MemWf.outside, Fetched.MemWf]

@[simp] theorem State.wf_fetchAhead {s : State} (w : s.MemWf) (core q) : (s.fetchAhead core q).MemWf := by
  grind [State.fetchAhead, State.wf_fetchLine, State.wf_startWalk, LineRead.MemWf]

@[simp] theorem State.wf_outsideChange {s : State} (w : s.MemWf) (a data) : (s.outsideChange a data).MemWf := by
  unfold State.outsideChange
  refine State.wf_ite _ w (State.wf_foldl _ (fun t b w => ?_) _ _ w)
  split
  · exact ⟨w.1, Memory.wf_write _ _ _ w.2⟩
  · exact ⟨w.1, Memory.wf_write _ _ _ w.2⟩
  · exact w

/-! ### The operations of `Machine/Time` -/

@[simp] theorem wf_execTokenDeadlock {s : State} (w : s.MemWf) (core) : Result.MemWf (execTokenDeadlock core s) := by
  grind [execTokenDeadlock, State.wf_takeTrap, State.wf_mk, State.MemWf.hbm, State.MemWf.outside, Result.MemWf]

@[simp] theorem State.wf_timeDeadlocks {s : State} (w : s.MemWf) : s.timeDeadlocks.MemWf := w

@[simp] theorem wf_execChronometerTick {s : State} (w : s.MemWf) : Result.MemWf (execChronometerTick s) := by
  unfold execChronometerTick
  simp [w]

/-! ### Carrying out an instruction, and a step -/

/-- Carrying out a word or a record answers a next state, and keeps the memories in canonical form. -/
theorem exec_goes (i : Instr) (hi : i.parts.isSome = true) (s : State) : Result.Goes s (exec i s) := by
  cases i with
  | add h o => rw [exec_add, execAdd]; exact goes_regWord ..
  | sub h o => rw [exec_sub, execSub]; exact goes_regWord ..
  | mul h o => rw [exec_mul, execMul]; exact goes_regWord ..
  | mulh h o => rw [exec_mulh, execMulh]; exact goes_regWord ..
  | mulhn h o => rw [exec_mulhn, execMulhn]; exact goes_regWord ..
  | div h o => rw [exec_div, execDiv]; exact goes_regWord ..
  | divn h o => rw [exec_divn, execDivn]; exact goes_regWord ..
  | rem h o => rw [exec_rem, execRem]; exact goes_regWord ..
  | remn h o => rw [exec_remn, execRemn]; exact goes_regWord ..
  | neg h o => rw [exec_neg, execNeg]; exact goes_regWord ..
  | min h o => rw [exec_min, execMin]; exact goes_regWord ..
  | max h o => rw [exec_max, execMax]; exact goes_regWord ..
  | minn h o => rw [exec_minn, execMinn]; exact goes_regWord ..
  | maxn h o => rw [exec_maxn, execMaxn]; exact goes_regWord ..
  | and h o => rw [exec_and, execAnd]; exact goes_regWord ..
  | or h o => rw [exec_or, execOr]; exact goes_regWord ..
  | xor h o => rw [exec_xor, execXor]; exact goes_regWord ..
  | andn h o => rw [exec_andn, execAndn]; exact goes_regWord ..
  | not h o => rw [exec_not, execNot]; exact goes_regWord ..
  | shl h o => rw [exec_shl, execShl]; exact goes_regWord ..
  | shr h o => rw [exec_shr, execShr]; exact goes_regWord ..
  | sra h o => rw [exec_sra, execSra]; exact goes_regWord ..
  | rol h o => rw [exec_rol, execRol]; exact goes_regWord ..
  | clz h o => rw [exec_clz, execClz]; exact goes_regWord ..
  | ctz h o => rw [exec_ctz, execCtz]; exact goes_regWord ..
  | popc h o => rw [exec_popc, execPopc]; exact goes_regWord ..
  | sext h o => rw [exec_sext, execSext]; exact goes_regWord ..
  | zext h o => rw [exec_zext, execZext]; exact goes_regWord ..
  | andImm h o => rw [exec_andImm, execAndImm]; exact goes_immWord ..
  | orImm h o => rw [exec_orImm, execOrImm]; exact goes_immWord ..
  | xorImm h o => rw [exec_xorImm, execXorImm]; exact goes_immWord ..
  | andnImm h o => rw [exec_andnImm, execAndnImm]; exact goes_immWord ..
  | shlImm h o => rw [exec_shlImm, execShlImm]; exact goes_immWord ..
  | shrImm h o => rw [exec_shrImm, execShrImm]; exact goes_immWord ..
  | sraImm h o => rw [exec_sraImm, execSraImm]; exact goes_immWord ..
  | rolImm h o => rw [exec_rolImm, execRolImm]; exact goes_immWord ..
  | sextImm h o => rw [exec_sextImm, execSextImm]; exact goes_immWord ..
  | zextImm h o => rw [exec_zextImm, execZextImm]; exact goes_immWord ..
  | addi h o => rw [exec_addi, execAddi]; exact goes_immWord ..
  | li h o => rw [exec_li, execLi]; exact goes_immWord ..
  | lea h o => rw [exec_lea]; exact goes_execLea ..
  | cset h o => rw [exec_cset, execCset]; exact goes_regWord ..
  | sel h o => rw [exec_sel]; exact goes_execSel ..
  | j h o => rw [exec_j]; exact goes_execJ ..
  | b h o => rw [exec_b]; exact goes_execB ..
  | brq h o => rw [exec_brq]; exact goes_execBrq ..
  | call h o => rw [exec_call]; exact goes_execCall ..
  | loop h o => rw [exec_loop]; exact goes_execLoop ..
  | jr h o => rw [exec_jr]; exact goes_execJr ..
  | callr h o => rw [exec_callr]; exact goes_execCallr ..
  | ret h o => rw [exec_ret]; exact goes_execRet ..
  | msave h o => rw [exec_msave]; exact goes_execMsave ..
  | mrest h o => rw [exec_mrest]; exact goes_execMrest ..
  | mand h o => rw [exec_mand]; exact goes_execMand ..
  | mor h o => rw [exec_mor]; exact goes_execMor ..
  | mxor h o => rw [exec_mxor]; exact goes_execMxor ..
  | mnot h o => rw [exec_mnot]; exact goes_execMnot ..
  | mset h o => rw [exec_mset]; exact goes_execMset ..
  | mcnt h o => rw [exec_mcnt]; exact goes_execMcnt ..
  | vadd h o => rw [exec_vadd, execVadd]; exact goes_vectorWord ..
  | vsub h o => rw [exec_vsub, execVsub]; exact goes_vectorWord ..
  | vmul h o => rw [exec_vmul, execVmul]; exact goes_vectorWord ..
  | vfma h o => rw [exec_vfma, execVfma]; exact goes_vectorWord ..
  | vfms h o => rw [exec_vfms, execVfms]; exact goes_vectorWord ..
  | vmin h o => rw [exec_vmin, execVmin]; exact goes_vectorWord ..
  | vmax h o => rw [exec_vmax, execVmax]; exact goes_vectorWord ..
  | vabs h o => rw [exec_vabs, execVabs]; exact goes_vectorWord ..
  | vneg h o => rw [exec_vneg, execVneg]; exact goes_vectorWord ..
  | vand h o => rw [exec_vand, execVand]; exact goes_vectorWord ..
  | vor h o => rw [exec_vor, execVor]; exact goes_vectorWord ..
  | vxor h o => rw [exec_vxor, execVxor]; exact goes_vectorWord ..
  | vnot h o => rw [exec_vnot, execVnot]; exact goes_vectorWord ..
  | vshl h o => rw [exec_vshl, execVshl]; exact goes_vectorWord ..
  | vshr h o => rw [exec_vshr, execVshr]; exact goes_vectorWord ..
  | vsra h o => rw [exec_vsra, execVsra]; exact goes_vectorWord ..
  | vcmp h o => rw [exec_vcmp, execVcmp]; exact goes_vectorWord ..
  | vsel h o => rw [exec_vsel, execVsel]; exact goes_vectorWord ..
  | vcvt h o => rw [exec_vcvt, execVcvt]; exact goes_vectorWord ..
  | vwiden h o => rw [exec_vwiden, execVwiden]; exact goes_vectorWord ..
  | vnarrow h o => rw [exec_vnarrow, execVnarrow]; exact goes_vectorWord ..
  | vsat h o => rw [exec_vsat, execVsat]; exact goes_vectorWord ..
  | vclamp h o => rw [exec_vclamp, execVclamp]; exact goes_vectorWord ..
  | vdot4 h o => rw [exec_vdot4, execVdot4]; exact goes_vectorWord ..
  | vred h o => rw [exec_vred, execVred]; exact goes_vectorWord ..
  | vscan h o => rw [exec_vscan, execVscan]; exact goes_vectorWord ..
  | vperm h o => rw [exec_vperm, execVperm]; exact goes_vectorWord ..
  | vshuf h o => rw [exec_vshuf, execVshuf]; exact goes_vectorWord ..
  | vbcast h o => rw [exec_vbcast, execVbcast]; exact goes_vectorWord ..
  | vslide h o => rw [exec_vslide, execVslide]; exact goes_vectorWord ..
  | viota h o => rw [exec_viota, execViota]; exact goes_vectorWord ..
  | vcomp h o => rw [exec_vcomp, execVcomp]; exact goes_vectorWord ..
  | vexpd h o => rw [exec_vexpd, execVexpd]; exact goes_vectorWord ..
  | vld h o => rw [exec_vld, execVld]; exact goes_vectorMemoryWord ..
  | vst h o => rw [exec_vst, execVst]; exact goes_vectorMemoryWord ..
  | vldx h o => rw [exec_vldx, execVldx]; exact goes_vectorMemoryWord ..
  | vstx h o => rw [exec_vstx, execVstx]; exact goes_vectorMemoryWord ..
  | vgath h o => rw [exec_vgath, execVgath]; exact goes_vectorMemoryWord ..
  | vscat h o => rw [exec_vscat, execVscat]; exact goes_vectorMemoryWord ..
  | vqpop h o => rw [exec_vqpop, execVqpop]; exact goes_vectorWord ..
  | vqpush h o => rw [exec_vqpush, execVqpush]; exact goes_vectorWord ..
  | vexp2 h o => rw [exec_vexp2, execVexp2]; exact goes_vectorWord ..
  | vlog2 h o => rw [exec_vlog2, execVlog2]; exact goes_vectorWord ..
  | vrcp h o => rw [exec_vrcp, execVrcp]; exact goes_vectorWord ..
  | vrsq h o => rw [exec_vrsq, execVrsq]; exact goes_vectorWord ..
  | vtanh h o => rw [exec_vtanh, execVtanh]; exact goes_vectorWord ..
  | vsigm h o => rw [exec_vsigm, execVsigm]; exact goes_vectorWord ..
  | vmerge3 h o => rw [exec_vmerge3, execVmerge3]; exact goes_vectorWord ..
  | vdefer h o => rw [exec_vdefer, execVdefer]; exact goes_vectorWord ..
  | vdrain h o => rw [exec_vdrain, execVdrain]; exact goes_vectorWord ..
  | vdqcnt h o => rw [exec_vdqcnt, execVdqcnt]; exact goes_vectorWord ..
  | loopp h o => rw [exec_loopp]; exact goes_execLoopp ..
  | brp h o => rw [exec_brp]; exact goes_execBrp ..
  | vmov h o => rw [exec_vmov, execVmov]; exact goes_vectorWord ..
  | vzero h o => rw [exec_vzero, execVzero]; exact goes_vectorWord ..
  | ld h o => rw [exec_ld, execLd]; exact goes_loadWord ..
  | st h o => rw [exec_st, execSt]; exact goes_storeWord ..
  | ldx h o => rw [exec_ldx]; exact goes_execLdx ..
  | stx h o => rw [exec_stx]; exact goes_execStx ..
  | lda h o => rw [exec_lda, execLda]; exact goes_loadWord ..
  | stl h o => rw [exec_stl, execStl]; exact goes_storeWord ..
  | amo h o => rw [exec_amo, execAmo]; exact goes_atomicWord ..
  | cas h o => rw [exec_cas, execCas]; exact goes_atomicWord ..
  | fence h o => rw [exec_fence]; exact goes_execFence ..
  | mark h o => rw [exec_mark]; exact goes_execMark ..
  | tksig h o => rw [exec_tksig, execTksig]; exact goes_tokenWord ..
  | tkwait h o => rw [exec_tkwait, execTkwait]; exact goes_tokenWord ..
  | boqpush h o => rw [exec_boqpush]; exact goes_execBoqpush ..
  | barv h o => rw [exec_barv]; exact goes_execBarv ..
  | bwait h o => rw [exec_bwait]; exact goes_execBwait ..
  | tbinit h o => rw [exec_tbinit]; exact goes_execTbinit ..
  | tbarv h o => rw [exec_tbarv]; exact goes_execTbarv ..
  | tbwait h o => rw [exec_tbwait]; exact goes_execTbwait ..
  | leeway h o => rw [exec_leeway]; exact goes_execLeeway ..
  | remq h o => rw [exec_remq]; exact goes_execRemq ..
  | notify h o => rw [exec_notify]; exact goes_execNotify ..
  | waitev h o => rw [exec_waitev]; exact goes_execWaitev ..
  | mma h o => rw [exec_mma, execMma]; exact goes_matrixWord ..
  | mmac h o => rw [exec_mmac, execMmac]; exact goes_matrixWord ..
  | cmerge h o => rw [exec_cmerge, execCmerge]; exact goes_matrixWord ..
  | cspill h o => rw [exec_cspill, execCspill]; exact goes_matrixWord ..
  | cdrain h o => rw [exec_cdrain, execCdrain]; exact goes_matrixWord ..
  | acfg h o => rw [exec_acfg]; exact goes_execAcfg ..
  | azero h o => rw [exec_azero, execAzero]; exact goes_matrixWord ..
  | aload h o => rw [exec_aload]; exact goes_execAload ..
  | adrain h o => rw [exec_adrain, execAdrain]; exact goes_matrixWord ..
  | adrainp h o => rw [exec_adrainp, execAdrainp]; exact goes_matrixWord ..
  | aarm h o => rw [exec_aarm, execAarm]; exact goes_matrixWord ..
  | fmtset h o => rw [exec_fmtset, execFmtset]; exact goes_matrixWord ..
  | fmtld h o => rw [exec_fmtld, execFmtld]; exact goes_matrixWord ..
  | mvec h o => rw [exec_mvec]; exact goes_execMvec ..
  | mxt h o => rw [exec_mxt, execMxt]; exact goes_matrixWord ..
  | xcopy h o => rw [exec_xcopy, execXcopy]; exact goes_transferWord ..
  | xgath h o => rw [exec_xgath, execXgath]; exact goes_transferWord ..
  | xscat h o => rw [exec_xscat, execXscat]; exact goes_transferWord ..
  | xfill h o => rw [exec_xfill, execXfill]; exact goes_transferWord ..
  | xpop h o => rw [exec_xpop]; exact goes_execXpop ..
  | xstat h o => rw [exec_xstat]; exact goes_execXstat ..
  | publish h o => rw [exec_publish]; exact goes_execPublish ..
  | ntake h o => rw [exec_ntake, execNtake]; exact goes_portWord ..
  | ndecl h o => rw [exec_ndecl, execNdecl]; exact goes_portWord ..
  | nwait h o => rw [exec_nwait, execNwait]; exact goes_portWord ..
  | reclaim h o => rw [exec_reclaim]; exact goes_execReclaim ..
  | rextend h o => rw [exec_rextend]; exact goes_execRextend ..
  | helmset h o => rw [exec_helmset, execHelmset]; exact goes_portWord ..
  | pwin h o => rw [exec_pwin, execPwin]; exact goes_portWord ..
  | coll h o => rw [exec_coll, execColl]; exact goes_engineWord ..
  | accw h o => rw [exec_accw, execAccw]; exact goes_engineWord ..
  | rdywait h o => rw [exec_rdywait]; exact goes_execRdywait ..
  | sortk h o => rw [exec_sortk, execSortk]; exact goes_engineWord ..
  | echoose h o => rw [exec_echoose, execEchoose]; exact goes_engineWord ..
  | rcsnap h o => rw [exec_rcsnap, execRcsnap]; exact goes_engineWord ..
  | lattn h o => rw [exec_lattn, execLattn]; exact goes_engineWord ..
  | chnew h o => rw [exec_chnew, execChnew]; exact goes_chartWord ..
  | chfork h o => rw [exec_chfork, execChfork]; exact goes_chartWord ..
  | chflat h o => rw [exec_chflat, execChflat]; exact goes_chartWord ..
  | chappend h o => rw [exec_chappend, execChappend]; exact goes_chartWord ..
  | chlook h o => rw [exec_chlook, execChlook]; exact goes_chartWord ..
  | chtrunc h o => rw [exec_chtrunc, execChtrunc]; exact goes_chartWord ..
  | chseal h o => rw [exec_chseal, execChseal]; exact goes_chartWord ..
  | chfree h o => rw [exec_chfree, execChfree]; exact goes_chartWord ..
  | chgive h o => rw [exec_chgive, execChgive]; exact goes_chartWord ..
  | bmset h o => rw [exec_bmset, execBmset]; exact goes_chartWord ..
  | bmperm h o => rw [exec_bmperm, execBmperm]; exact goes_chartWord ..
  | bmlook h o => rw [exec_bmlook, execBmlook]; exact goes_chartWord ..
  | rkbegin h o => rw [exec_rkbegin]; exact goes_execRkbegin ..
  | acmp h o => rw [exec_acmp]; exact goes_execAcmp ..
  | rkcommit h o => rw [exec_rkcommit]; exact goes_execRkcommit ..
  | rkend h o => rw [exec_rkend]; exact goes_execRkend ..
  | rkstat h o => rw [exec_rkstat]; exact goes_execRkstat ..
  | csrr h o => rw [exec_csrr]; exact goes_execCsrr ..
  | csrw h o => rw [exec_csrw]; exact goes_execCsrw ..
  | csrx h o => rw [exec_csrx]; exact goes_execCsrx ..
  | trap h o => rw [exec_trap]; exact goes_execTrap ..
  | eret h o => rw [exec_eret]; exact goes_execEret ..
  | halt h o => rw [exec_halt]; exact goes_execHalt ..
  | nop h o => rw [exec_nop]; exact goes_execNop ..
  | yield h o => rw [exec_yield]; exact goes_execYield ..
  | mmaRecord h r => rw [exec_mmaRecord, execMmaRecord]; exact goes_matrixRecord ..
  | mmacRecord h r => rw [exec_mmacRecord, execMmacRecord]; exact goes_matrixRecord ..
  | xcopyRecord h r => rw [exec_xcopyRecord, execXcopyRecord]; exact goes_engineRecord ..
  | xgathRecord h r => rw [exec_xgathRecord, execXgathRecord]; exact goes_engineRecord ..
  | xscatRecord h r => rw [exec_xscatRecord, execXscatRecord]; exact goes_engineRecord ..
  | xfillRecord h r => rw [exec_xfillRecord, execXfillRecord]; exact goes_engineRecord ..
  | publishRecord h r => rw [exec_publishRecord, execPublishRecord]; exact goes_engineRecord ..
  | collRecord h r => rw [exec_collRecord, execCollRecord]; exact goes_engineRecord ..
  | sortkRecord h r => rw [exec_sortkRecord, execSortkRecord]; exact goes_engineRecord ..
  | lattnRecord h r => rw [exec_lattnRecord, execLattnRecord]; exact goes_engineRecord ..
  | vectorArithRecord fn h r => rw [exec_vectorArithRecord, execVectorArithRecord]; exact goes_vectorRecordWord ..
  | vectorLogicRecord fn h r => rw [exec_vectorLogicRecord, execVectorLogicRecord]; exact goes_vectorRecordWord ..
  | vectorConvertRecord fn h r => rw [exec_vectorConvertRecord, execVectorConvertRecord]; exact goes_vectorRecordWord ..
  | vectorDotRecord fn h r => rw [exec_vectorDotRecord, execVectorDotRecord]; exact goes_vectorRecordWord ..
  | vectorMemoryRecord fn h r => rw [exec_vectorMemoryRecord]; exact goes_execVectorMemoryRecord ..
  | vectorSpecialRecord fn h r => rw [exec_vectorSpecialRecord, execVectorSpecialRecord]; exact goes_vectorRecordWord ..
  | vmerge3Record h r => rw [exec_vmerge3Record, execVmerge3Record]; exact goes_vectorRecordWord ..
  | _ => cases hi

/-- An event keeps the memories in canonical form. -/
theorem exec_event_wf {s : State} (w : s.MemWf) (i : Instr) (hi : i.parts = none) : Result.MemWf (exec i s) := by
  cases i with
  | recordIssue core port => rw [exec_recordIssue]; exact wf_execRecordIssue w ..
  | engineCommandStart core port => rw [exec_engineCommandStart]; exact wf_execEngineCommandStart w ..
  | triggeredCommandStart core port => rw [exec_triggeredCommandStart]; exact wf_execTriggeredCommandStart w ..
  | commandComplete core port => rw [exec_commandComplete]; exact wf_execCommandComplete w ..
  | notifyRetire core port => rw [exec_notifyRetire]; exact wf_execNotifyRetire w ..
  | loadAnswer core id => rw [exec_loadAnswer]; exact wf_execLoadAnswer w ..
  | l1Eviction core line => rw [exec_l1Eviction]; exact wf_execL1Eviction w ..
  | pageWalkComplete walk => rw [exec_pageWalkComplete]; exact wf_execPageWalkComplete w ..
  | leewayCountUpdate cluster => rw [exec_leewayCountUpdate]; exact wf_execLeewayCountUpdate w ..
  | tokenDeadlock core => rw [exec_tokenDeadlock]; exact wf_execTokenDeadlock w ..
  | reportedFaultDelivery core seq => rw [exec_reportedFaultDelivery]; exact wf_execReportedFaultDelivery w ..
  | blockExpiry core slot => rw [exec_blockExpiry]; exact wf_execBlockExpiry w ..
  | reclaimTrapDelivery core => rw [exec_reclaimTrapDelivery]; exact wf_execReclaimTrapDelivery w ..
  | noticeArrival msg => rw [exec_noticeArrival]; exact wf_execNoticeArrival w ..
  | heldNoticeEntry core => rw [exec_heldNoticeEntry]; exact wf_execHeldNoticeEntry w ..
  | noticeRipe core entry => rw [exec_noticeRipe]; exact wf_execNoticeRipe w ..
  | helmPullStart core => rw [exec_helmPullStart]; exact wf_execHelmPullStart w ..
  | segmentRequest core => rw [exec_segmentRequest]; exact wf_execSegmentRequest w ..
  | segmentRead msg => rw [exec_segmentRead]; exact wf_execSegmentRead w ..
  | segmentLand core => rw [exec_segmentLand]; exact wf_execSegmentLand w ..
  | pullCompletionArrival msg => rw [exec_pullCompletionArrival]; exact wf_execPullCompletionArrival w ..
  | declineArrival msg => rw [exec_declineArrival]; exact wf_execDeclineArrival w ..
  | withdrawalArrival msg => rw [exec_withdrawalArrival]; exact wf_execWithdrawalArrival w ..
  | collSegmentApply core => rw [exec_collSegmentApply]; exact wf_execCollSegmentApply w ..
  | remoteBlockServe core => rw [exec_remoteBlockServe]; exact wf_execRemoteBlockServe w ..
  | tileEnd core => rw [exec_tileEnd]; exact wf_execTileEnd w ..
  | tileEndByFault core => rw [exec_tileEndByFault]; exact wf_execTileEndByFault w ..
  | packetRead queue => rw [exec_packetRead]; exact wf_execPacketRead w ..
  | coreOffer core => rw [exec_coreOffer]; exact wf_execCoreOffer w ..
  | launchComplete queue lseq => rw [exec_launchComplete]; exact wf_execLaunchComplete w ..
  | preemptTrigger queue => rw [exec_preemptTrigger]; exact wf_execPreemptTrigger w ..
  | contextSave core => rw [exec_contextSave]; exact wf_execContextSave w ..
  | tileResume core => rw [exec_tileResume]; exact wf_execTileResume w ..
  | queueDrainDone queue => rw [exec_queueDrainDone]; exact wf_execQueueDrainDone w ..
  | queueAbortDone queue => rw [exec_queueAbortDone]; exact wf_execQueueAbortDone w ..
  | qctlEnable queue => rw [exec_qctlEnable]; exact wf_execQctlEnable w ..
  | qctlDrain queue => rw [exec_qctlDrain]; exact wf_execQctlDrain w ..
  | qctlAbort queue => rw [exec_qctlAbort]; exact wf_execQctlAbort w ..
  | qwrDoorbell queue value => rw [exec_qwrDoorbell]; exact wf_execQwrDoorbell w ..
  | tigoInvalidate bytes => rw [exec_tigoInvalidate]; exact wf_execTigoInvalidate w ..
  | tlbInvalidateComplete => rw [exec_tlbInvalidateComplete]; exact wf_execTlbInvalidateComplete w ..
  | wcmdIngress entry => rw [exec_wcmdIngress]; exact wf_execWcmdIngress w ..
  | wcmdLocal entry => rw [exec_wcmdLocal]; exact wf_execWcmdLocal w ..
  | wcmdRelease entry => rw [exec_wcmdRelease]; exact wf_execWcmdRelease w ..
  | shardBlockWrite addr data => rw [exec_shardBlockWrite]; exact wf_execShardBlockWrite w ..
  | shardLocalCheckDone entry => rw [exec_shardLocalCheckDone]; exact wf_execShardLocalCheckDone w ..
  | shardPatrolPass => rw [exec_shardPatrolPass]; exact wf_execShardPatrolPass w ..
  | wfenceClear index value => rw [exec_wfenceClear]; exact wf_execWfenceClear w ..
  | fllostClear value => rw [exec_fllostClear]; exact wf_execFllostClear w ..
  | errorCountClear cluster index value => rw [exec_errorCountClear]; exact wf_execErrorCountClear w ..
  | unfenceCore index value => rw [exec_unfenceCore]; exact wf_execUnfenceCore w ..
  | unfenceCluster value => rw [exec_unfenceCluster]; exact wf_execUnfenceCluster w ..
  | unfenceStack value => rw [exec_unfenceStack]; exact wf_execUnfenceStack w ..
  | unfenceUnit index value => rw [exec_unfenceUnit]; exact wf_execUnfenceUnit w ..
  | eccCorrected site => rw [exec_eccCorrected]; exact wf_execEccCorrected w ..
  | eccUncorrectable site => rw [exec_eccUncorrectable]; exact wf_execEccUncorrectable w ..
  | patrolScrub => rw [exec_patrolScrub]; exact wf_execPatrolScrub w ..
  | ckctlSave => rw [exec_ckctlSave]; exact wf_execCkctlSave w ..
  | ckctlRestore => rw [exec_ckctlRestore]; exact wf_execCkctlRestore w ..
  | checkpointQuiesced => rw [exec_checkpointQuiesced]; exact wf_execCheckpointQuiesced w ..
  | checkpointCopyDone => rw [exec_checkpointCopyDone]; exact wf_execCheckpointCopyDone w ..
  | checkpointError => rw [exec_checkpointError]; exact wf_execCheckpointError w ..
  | checkpointRestoreDone => rw [exec_checkpointRestoreDone]; exact wf_execCheckpointRestoreDone w ..
  | tcmdLcchange => rw [exec_tcmdLcchange]; exact wf_execTcmdLcchange w ..
  | tcmdQuote => rw [exec_tcmdQuote]; exact wf_execTcmdQuote w ..
  | tcmdKeyinstall asid => rw [exec_tcmdKeyinstall]; exact wf_execTcmdKeyinstall w ..
  | tcmdKeyclear asid => rw [exec_tcmdKeyclear]; exact wf_execTcmdKeyclear w ..
  | powerOnReset => rw [exec_powerOnReset]; exact wf_execPowerOnReset w ..
  | sfctlStartupEnd => rw [exec_sfctlStartupEnd]; exact wf_execSfctlStartupEnd w ..
  | sfctlBist => rw [exec_sfctlBist]; exact wf_execSfctlBist w ..
  | bistDone => rw [exec_bistDone]; exact wf_execBistDone w ..
  | clkcfgWrite die value => rw [exec_clkcfgWrite]; exact wf_execClkcfgWrite w ..
  | clkcfgPendingApply die => rw [exec_clkcfgPendingApply]; exact wf_execClkcfgPendingApply w ..
  | pcfgWrite port value => rw [exec_pcfgWrite]; exact wf_execPcfgWrite w ..
  | portTrained port peer => rw [exec_portTrained]; exact wf_execPortTrained w ..
  | portTrainingTimeout port => rw [exec_portTrainingTimeout]; exact wf_execPortTrainingTimeout w ..
  | portFence port => rw [exec_portFence]; exact wf_execPortFence w ..
  | flitForward msg => rw [exec_flitForward]; exact wf_execFlitForward w ..
  | flitReplay port => rw [exec_flitReplay]; exact wf_execFlitReplay w ..
  | undeliverableReturn msg => rw [exec_undeliverableReturn]; exact wf_execUndeliverableReturn w ..
  | writeOfferArrival port offer => rw [exec_writeOfferArrival]; exact wf_execWriteOfferArrival w ..
  | writeOfferPull port => rw [exec_writeOfferPull]; exact wf_execWriteOfferPull w ..
  | remoteWritePerform port => rw [exec_remoteWritePerform]; exact wf_execRemoteWritePerform w ..
  | remoteWriteAck core entry answer => rw [exec_remoteWriteAck]; exact wf_execRemoteWriteAck w ..
  | remoteReadRequest port addr bytes => rw [exec_remoteReadRequest]; exact wf_execRemoteReadRequest w ..
  | hostRegisterAccess port access => rw [exec_hostRegisterAccess]; exact wf_execHostRegisterAccess w ..
  | registerWrite off value => rw [exec_registerWrite]; exact wf_execRegisterWrite w ..
  | powerManagerCheck => rw [exec_powerManagerCheck]; exact wf_execPowerManagerCheck w ..
  | thermalStop => rw [exec_thermalStop]; exact wf_execThermalStop w ..
  | thermalRestart => rw [exec_thermalRestart]; exact wf_execThermalRestart w ..
  | chronometerTick => rw [exec_chronometerTick]; exact wf_execChronometerTick w ..
  | pldmSensorRead sensor => rw [exec_pldmSensorRead]; exact wf_execPldmSensorRead w ..
  | storePerformed core id => rw [exec_storePerformed]; exact wf_execStorePerformed w ..
  | shardIngressCheckDone entry => rw [exec_shardIngressCheckDone]; exact wf_execShardIngressCheckDone w ..
  | stackLosesTraining stack => rw [exec_stackLosesTraining]; exact wf_execStackLosesTraining w ..
  | baseDieError stack => rw [exec_baseDieError]; exact wf_execBaseDieError w ..
  | powerLoss => rw [exec_powerLoss]; exact wf_execPowerLoss w ..
  | _ => cases hi

/-- Carrying out an instruction keeps the memories in canonical form. -/
theorem exec_wf {s : State} (w : s.MemWf) (i : Instr) (t : State) (h : exec i s = .next t) : t.MemWf := by
  cases hi : i.parts with
  | some p =>
    obtain ⟨u, hu, wu⟩ := exec_goes i (by rw [hi]; rfl) s
    rw [h] at hu
    cases hu
    exact wu w
  | none =>
    have he := exec_event_wf w i hi
    rw [h] at he
    exact he

theorem Fetched.MemWf.of_eq {p q : Fetched} (h : p.MemWf) (e : p = q) : q.MemWf := e ▸ h

@[simp] theorem State.wf_nextTurn {s : State} (w : s.MemWf) : s.nextTurn.2.MemWf := by
  unfold State.nextTurn
  split
  · exact w
  · exact w

/-- A turn keeps the memories in canonical form. -/
theorem State.wf_takeTurn {s : State} (w : s.MemWf) (t : Turn) : Result.MemWf (s.takeTurn t) := by
  unfold State.takeTurn
  refine Result.wf_ite _ w ?_
  cases t with
  | idle => exact w
  | seq core q =>
    refine Result.wf_ite _ trivial ?_
    have wf : (s.seqTurn core q).MemWf := State.wf_seqTurn w core q
    split
    next u e => exact Fetched.MemWf.of_eq wf e
    next i u e =>
      have wu : u.MemWf := Fetched.MemWf.of_eq wf e
      split
      next t et => exact State.wf_settleDue wu (exec_wf wu i t et) core q
      next r hr =>
        cases he : exec i u with
        | next t => exact absurd he (hr t)
        | fault f => trivial
        | refused x => trivial
  | event i =>
    dsimp only
    split
    · exact w
    next hi =>
      refine Result.wf_ite _ ?_ w
      exact exec_event_wf w i hi
  | fetchAhead core q => exact Result.wf_ite _ trivial (State.wf_fetchAhead w core q)
  | l2WriteBack a => exact State.wf_passByte s a w
  | fromOutside port hops m => exact State.wf_ite _ (State.wf_receive w port hops m) w
  | flitAccepted port => exact State.wf_acceptFlit w port
  | linkCredit port lane => exact State.wf_linkCredit w port lane
  | remoteAtomic port addr n op b c => exact State.wf_remoteAtomic w port addr n op b c
  | portUnfence port => exact State.wf_unfencePort w port
  | ringAnswer q => exact State.wf_answerRing w q
  | bringUp => exact State.wf_bringUpStep w
  | readAnswer core n => exact State.wf_answerRead w core n
  | outsideWrite a b => exact State.wf_outsideChange w a b

/-- Settles O56: `exec_goes`, every word and record passing through `issueWord`. -/
theorem wordsNeverStop : Obligations.WordsNeverStop := by
  unfold Obligations.WordsNeverStop
  intro i s hi
  obtain ⟨t, ht, -⟩ := exec_goes i hi s
  exact ⟨t, ht⟩

/-- Settles O60: every turn keeps the canonical form, by a lemma for each operation of the model. -/
theorem stepKeepsMemoriesWf : Obligations.StepKeepsMemoriesWf := by
  unfold Obligations.StepKeepsMemoriesWf
  intro s t w h
  have ht : Result.MemWf (step s) := State.wf_takeTurn (State.wf_nextTurn w) _
  rw [h] at ht
  exact ht

end Sys2Proof.Machine

/-! SUPPORT. The lanes of a vector register: what is read back from a register built lane by lane, and of a register of which a word
wrote some bytes (R9, R29, R31). -/

namespace Sys2Proof.Machine
open Sys2Proof Sys2Proof.Safety

/-! ### Fields of a number -/

theorem elem_eq (x : VReg) (i w : Nat) : elem x i w = x.toNat / 2 ^ (w * i) % 2 ^ w := by
  simp [elem, BitVec.extractLsb'_toNat, Nat.shiftRight_eq_div_pow]

theorem elem_lt (x : VReg) (i w : Nat) : elem x i w < 2 ^ w := by
  rw [elem_eq]; exact Nat.mod_lt _ (Nat.two_pow_pos w)

theorem elem_testBit (x : VReg) (i w k : Nat) : (elem x i w).testBit k = (decide (k < w) && x.getLsbD (w * i + k)) := by
  simp [elem, BitVec.testBit_toNat]

/-- What lane i of a register under construction receives. -/
def laneOf (w : Nat) (old : VReg) (f : Nat → Option Nat) (i : Nat) : Nat := match f i with | some x => x % 2 ^ w | none => elem old i w

theorem laneOf_lt (w : Nat) (old : VReg) (f : Nat → Option Nat) (i : Nat) : laneOf w old f i < 2 ^ w := by
  unfold laneOf
  split
  · exact Nat.mod_lt _ (Nat.two_pow_pos w)
  · exact elem_lt ..

theorem lanesFrom_succ (w : Nat) (old : VReg) (f : Nat → Option Nat) (i n : Nat) :
    lanesFrom w old f i (n + 1) = laneOf w old f i + 2 ^ w * lanesFrom w old f (i + 1) n := rfl

theorem lanesFrom_lt (w : Nat) (old : VReg) (f : Nat → Option Nat) : ∀ n i, lanesFrom w old f i n < 2 ^ (w * n)
  | 0, _ => by simp [lanesFrom]
  | n + 1, i => by
    have rest := lanesFrom_lt w old f n (i + 1)
    have lane := laneOf_lt w old f i
    rw [lanesFrom_succ, Nat.mul_succ, Nat.add_comm (w * n), Nat.pow_add]
    nlinarith [Nat.mul_le_mul_left (2 ^ w) (Nat.succ_le_of_lt rest)]

theorem lanesFrom_field (w : Nat) (old : VReg) (f : Nat → Option Nat) :
    ∀ n i k, k < n → lanesFrom w old f i n / 2 ^ (w * k) % 2 ^ w = laneOf w old f (i + k)
  | n + 1, i, 0, _ => by
    rw [lanesFrom_succ, Nat.mul_zero, Nat.pow_zero, Nat.div_one, Nat.add_mul_mod_self_left, Nat.mod_eq_of_lt (laneOf_lt ..),
      Nat.add_zero]
  | n + 1, i, k + 1, h => by
    have lane := laneOf_lt w old f i
    rw [lanesFrom_succ, Nat.mul_succ, Nat.add_comm (w * k), Nat.pow_add, ← Nat.div_div_eq_div_mul,
      Nat.add_mul_div_left _ _ (Nat.two_pow_pos w), Nat.div_eq_of_lt lane, Nat.zero_add,
      lanesFrom_field w old f n (i + 1) k (by omega), Nat.add_right_comm, Nat.add_assoc]

theorem lanesFrom_fits (w : Nat) (old : VReg) (f : Nat → Option Nat) (n : Nat) : lanesFrom w old f 0 (n / w) < 2 ^ n :=
  (lanesFrom_lt w old f _ 0).trans_le (Nat.pow_le_pow_right Nat.two_pos (Nat.mul_div_le ..))

/-- A lane of a register built lane by lane. -/
theorem elem_buildV (w : Nat) (old : VReg) (f : Nat → Option Nat) (i : Nat) (h : i < 4096 / w) :
    elem (buildV w old f) i w = laneOf w old f i := by
  rw [elem_eq, buildV, BitVec.toNat_ofNat, Nat.mod_eq_of_lt (lanesFrom_fits w old f 4096), lanesFrom_field w old f _ 0 i h, Nat.zero_add]

/-! ### Byte masks -/

/-- Bit k of a number put together from the bits of a list. -/
theorem testBit_foldr_bit (p : Nat → Bool) : ∀ (l : List Nat) (k : Nat),
    (l.foldr (fun b n => (if p b then 1 else 0) + 2 * n) 0).testBit k = (l.map p).getD k false
  | [], k => by simp
  | b :: l, 0 => by cases h : p b <;> simp [h, Nat.testBit_zero, Nat.add_mod]
  | b :: l, k + 1 => by
    have half (n : Nat) : ((if p b then 1 else 0) + 2 * n) / 2 = n := by split <;> omega
    simp only [List.foldr_cons, Nat.testBit_succ, half, testBit_foldr_bit p l k, List.map_cons, List.getD_cons_succ]

/-- Bit k of a number put together from the bytes of a list, each of them 0 or 255. -/
theorem testBit_foldr_byte (p : Nat → Bool) : ∀ (l : List Nat) (k : Nat),
    (l.foldr (fun b n => (if p b then 255 else 0) + 256 * n) 0).testBit k = (l.map p).getD (k / 8) false
  | [], k => by simp
  | b :: l, k => by
    have low : (if p b then 255 else 0) < 2 ^ 8 := by split <;> decide
    rw [List.foldr_cons, Nat.add_comm, Nat.testBit_two_pow_mul_add (i := 8) _ low, testBit_foldr_byte p l (k - 8)]
    by_cases h : k < 8
    · have full : Nat.testBit 255 k = true := by rw [show 255 = 2 ^ 8 - 1 from rfl, Nat.testBit_two_pow_sub_one]; simpa using h
      rw [if_pos h, Nat.div_eq_of_lt h, List.map_cons, List.getD_cons_zero]
      cases p b <;> simp [full]
    · rw [if_neg h, show k / 8 = (k - 8) / 8 + 1 by omega, List.map_cons, List.getD_cons_succ]

theorem getLsbD_byteBits (m : BitVec 512) (k : Nat) : (byteBits m).getLsbD k = (decide (k < 4096) && m.getLsbD (k / 8)) := by
  rw [byteBits, BitVec.getLsbD_ofNat, testBit_foldr_byte]
  by_cases h : k < 4096
  · have : k / 8 < 512 := by omega
    simp [h, this]
  · simp [h]

theorem getLsbD_laneBytes (w : Nat) (f : Nat → Bool) (b : Nat) (h : b < 512) :
    (laneBytes w f).getLsbD b = (f (8 * b / w) || (w == 4 && f (2 * b + 1))) := by
  rw [laneBytes, BitVec.getLsbD_ofNat, testBit_foldr_bit]
  simp [h]

/-- Every byte that holds bits of a written lane is a written byte. -/
theorem laneBytes_of_written (w : Nat) (f : Nat → Bool) (width : w = 4 ∨ w = 8 ∨ w = 16 ∨ w = 32) (i j : Nat) (hi : i < 4096 / w)
    (hj : j < w) (written : f i = true) : (laneBytes w f).getLsbD ((w * i + j) / 8) = true := by
  rw [getLsbD_laneBytes w f _ (by rcases width with rfl | rfl | rfl | rfl <;> omega), Bool.or_eq_true]
  rcases width with rfl | rfl | rfl | rfl
  · rcases Nat.mod_two_eq_zero_or_one i with even | odd
    · exact .inl (by rw [show 8 * ((4 * i + j) / 8) / 4 = i by omega]; exact written)
    · exact .inr (by rw [show 2 * ((4 * i + j) / 8) + 1 = i by omega]; simpa using written)
  all_goals exact .inl (by convert written using 2; omega)

theorem getLsbD_mergeBytes (m : BitVec 512) (new old : VReg) (k : Nat) (h : k < 4096) :
    (mergeBytes m new old).getLsbD k = if m.getLsbD (k / 8) then new.getLsbD k else old.getLsbD k := by
  rw [mergeBytes, BitVec.getLsbD_or, BitVec.getLsbD_and, BitVec.getLsbD_and, BitVec.getLsbD_not, getLsbD_byteBits]
  cases m.getLsbD (k / 8) <;> simp [h]

/-- A lane of which every byte was written, or that was written as it stood, is the new one. -/
theorem elem_mergeBytes (m : BitVec 512) (new old : VReg) (i w : Nat) (hi : w * i + w ≤ 4096)
    (h : (∀ j < w, m.getLsbD ((w * i + j) / 8) = true) ∨ elem new i w = elem old i w) :
    elem (mergeBytes m new old) i w = elem new i w := by
  refine Nat.eq_of_testBit_eq fun k => ?_
  rw [elem_testBit, elem_testBit]
  by_cases hk : k < w
  · rw [getLsbD_mergeBytes _ _ _ _ (by omega)]
    rcases h with written | same
    · simp [written k hk]
    · have : new.getLsbD (w * i + k) = old.getLsbD (w * i + k) := by
        simpa [elem_testBit, hk] using congrArg (Nat.testBit · k) same
      simp [this]
  · simp [hk]

/-! ### Vector registers of slot 0 -/

theorem Core.writesOf_putV (k : Core) (now : Nat) (q : SeqId) (n : Nat) (x : VReg) (bytes : BitVec 512) (m : Nat) :
    (k.putV now q n x bytes).writesOf now m =
      if n = m then k.writesOf now m ++ [⟨now, n, q, Table.get 0 k.v n, x, bytes⟩] else k.writesOf now m := by
  by_cases h : n = m <;> simp [Core.writesOf, Core.putV, h, List.filter_append, Bool.and_comm]

/-- A register as the writer's own words read it after a write of some of its bytes. -/
theorem Core.vSeen_putV_same (k : Core) (now : Nat) (q : SeqId) (n : Nat) (x : VReg) (bytes : BitVec 512) :
    (k.putV now q n x bytes).vSeen now q n = mergeBytes bytes x (k.vSeen now q n) := by
  rw [Core.vSeen, Core.vSeen, Core.writesOf_putV, if_pos rfl]
  cases h : k.writesOf now n with
  | nil => simp
  | cons w ws => simp [List.foldl_append]

theorem Core.vSeen_putV_other (k : Core) (now : Nat) (q : SeqId) (n : Nat) (x : VReg) (bytes : BitVec 512) (m : Nat) (h : m ≠ n) :
    (k.putV now q n x bytes).vSeen now q m = k.vSeen now q m := by
  rw [Core.vSeen, Core.vSeen, Core.writesOf_putV, if_neg (Ne.symm h)]
  simp [Core.putV, Table.get_set_other _ _ _ _ _ h]

theorem State.setV_slot0 (s : State) (n : Nat) (x : VReg) (bytes : BitVec 512) (h : s.cur.slot = 0) :
    s.setV n x bytes = s.mapMe (fun k => k.putV s.cycle s.cur.seq n x bytes) := by rw [State.setV, if_pos h]

theorem State.v_slot0 (s : State) (n : Nat) (h : s.cur.slot = 0) : s.v n = s.me.vSeen s.cycle s.cur.seq n := by rw [State.v, if_pos h]

theorem State.v_setV_same (s : State) (n : Nat) (x : VReg) (bytes : BitVec 512) (h : s.cur.slot = 0) :
    (s.setV n x bytes).v n = mergeBytes bytes x (s.v n) := by
  rw [State.setV_slot0 s n x bytes h, State.v_slot0 s n h, State.v_slot0 (s.mapMe _) n h, State.me_mapMe]
  exact Core.vSeen_putV_same ..

theorem State.v_setV_other (s : State) (n : Nat) (x : VReg) (bytes : BitVec 512) (m : Nat) (h : s.cur.slot = 0) (hm : m ≠ n) :
    (s.setV n x bytes).v m = s.v m := by
  rw [State.setV_slot0 s n x bytes h, State.v_slot0 s m h, State.v_slot0 (s.mapMe _) m h, State.me_mapMe]
  exact Core.vSeen_putV_other _ _ _ _ _ _ _ hm

theorem State.setV_memory (s : State) (n : Nat) (x : VReg) (bytes : BitVec 512) (h : s.cur.slot = 0) : SameMemory s (s.setV n x bytes) := by
  rw [State.setV_slot0 s n x bytes h]
  exact SameMemory.mapCore s s.cur.core (fun k => k.putV s.cycle s.cur.seq n x bytes) rfl rfl

theorem laneFlags_zero (f : Nat → Option Lane) (h : ∀ i x, f i = some x → x.2 = 0) : ∀ n, laneFlags f n = 0
  | 0 => rfl
  | n + 1 => by
    rw [laneFlags, laneFlags_zero f h n]
    cases e : f n with
    | none => simp
    | some x => simp [h n x e]

/-- What a word that writes the active lanes of its register, with no flag, leaves: the lanes written, and every other lane and vector
register, the flags and the memories as they were (R9, R79). -/
structure WritesLanes (r : VRun) (w p : Nat) (f : Nat → Nat) (s t : State) : Prop where
  lanes : ∀ i, i < 4096 / w → elem (t.v p) i w = if r.mask.getLsbD i then f i % 2 ^ w else elem (s.v p) i w
  others : ∀ q, q ≠ p → t.v q = s.v q
  flags : t.me.fflags = s.me.fflags
  memory : SameMemory s t

theorem VRun.lanes_eq (r : VRun) (n w : Nat) (f : Nat → Lane) (s : State) (quiet : ∀ i, (f i).2 = 0) :
    r.lanes n w f s = s.setV (rename r.rot r.rrb n)
      (buildV w (s.v (rename r.rot r.rrb n)) (fun i => if r.mask.getLsbD i then some (f i).1 else none)) (laneBytes w r.mask.getLsbD) := by
  have none_raised : laneFlags (fun i => if r.mask.getLsbD i then some (f i) else none) (4096 / w) = 0 :=
    laneFlags_zero _ (fun i x e => by
      cases h : r.mask.getLsbD i <;> simp [h] at e
      exact e ▸ quiet i) _
  simp only [VRun.lanes, VRun.write, id, none_raised, State.raiseFlags, if_true]
  congr 2
  funext i
  by_cases h : r.mask.getLsbD i = true <;> simp only [h, if_true, if_false, Option.map_some, Option.map_none, Bool.false_eq_true]

theorem VRun.lanes_writes (r : VRun) (n w : Nat) (f : Nat → Lane) (s : State) (slot : s.cur.slot = 0)
    (width : w = 4 ∨ w = 8 ∨ w = 16 ∨ w = 32) (quiet : ∀ i, (f i).2 = 0) :
    WritesLanes r w (rename r.rot r.rrb n) (fun i => (f i).1) s (r.lanes n w f s) := by
  rw [VRun.lanes_eq r n w f s quiet]
  constructor
  case lanes =>
    intro i hi
    rw [State.v_setV_same _ _ _ _ slot, elem_mergeBytes, elem_buildV _ _ _ _ hi]
    · cases h : r.mask.getLsbD i <;> simp [laneOf, h]
    · rcases width with rfl | rfl | rfl | rfl <;> omega
    · cases h : r.mask.getLsbD i with
      | true => exact .inl fun j hj => laneBytes_of_written w _ width i j hi hj h
      | false => exact .inr (by rw [elem_buildV _ _ _ _ hi]; simp [laneOf, h])
  case others => exact fun q hq => State.v_setV_other _ _ _ _ _ slot hq
  case flags => rw [State.setV_slot0 _ _ _ _ slot, State.me_mapMe]; rfl
  case memory => exact State.setV_memory _ _ _ _ slot

/-! ### Values of the integer and logic words -/

theorem typeWidth_cases (t : BitVec 4) : typeWidth t = 4 ∨ typeWidth t = 8 ∨ typeWidth t = 16 ∨ typeWidth t = 32 := by
  revert t; decide

/-- The value of an integer pattern is the pattern modulo 2^w. -/
theorem intVal_emod (t : BitVec 4) (x : Nat) : intVal t x % (2 ^ typeWidth t : Nat) = (x : Int) % (2 ^ typeWidth t : Nat) := by
  unfold intVal sext
  split
  · split <;> simp
  · simp

theorem wrapInt_of_emod (n : Nat) (v : Int) (x : Nat) (h : v % (2 ^ n : Nat) = (x : Int) % (2 ^ n : Nat)) : wrapInt n v = x % 2 ^ n := by
  rw [wrapInt, h, ← Int.natCast_mod, Int.toNat_natCast]

theorem arithInt_add (t : BitVec 4) (a b c : Nat) : arithInt 0 t false a b c = (a + b) % 2 ^ typeWidth t :=
  wrapInt_of_emod _ _ _ (by
    show (intVal t a + intVal t b) % _ = _
    rw [Int.add_emod, intVal_emod, intVal_emod, ← Int.add_emod, Nat.cast_add])

theorem arithInt_sub (t : BitVec 4) (a b c : Nat) (h : b < 2 ^ typeWidth t) :
    arithInt 1 t false a b c = (a + 2 ^ typeWidth t - b) % 2 ^ typeWidth t :=
  wrapInt_of_emod _ _ _ (by
    show (intVal t a - intVal t b) % _ = _
    rw [Int.sub_emod, intVal_emod, intVal_emod, ← Int.sub_emod, Nat.cast_sub (by omega), Nat.cast_add, add_sub_right_comm,
      Int.add_emod_right])

theorem arithInt_mul (t : BitVec 4) (a b c : Nat) : arithInt 2 t false a b c = a * b % 2 ^ typeWidth t :=
  wrapInt_of_emod _ _ _ (by
    show (intVal t a * intVal t b) % _ = _
    rw [Int.mul_emod, intVal_emod, intVal_emod, ← Int.mul_emod, Nat.cast_mul])

theorem arithLane_int (fn : Nat) (t : BitVec 4) (mode : RMode) (a b c : Nat) (h : isI t = true) :
    arithLane fn t false mode a b c = (arithInt fn t false a b c, 0) := by rw [arithLane, if_pos h]

/-- Only the values modulo 2^w count. -/
theorem WritesLanes.congr {r : VRun} {w p : Nat} {f g : Nat → Nat} {s t : State} (h : WritesLanes r w p f s t)
    (same : ∀ i, f i % 2 ^ w = g i % 2 ^ w) : WritesLanes r w p g s t :=
  { h with lanes := fun i hi => by rw [h.lanes i hi, same] }

theorem WritesLanes.conj {r : VRun} {w p : Nat} {f : Nat → Nat} {s t : State} (h : WritesLanes r w p f s t) :
    (∀ i, i < 4096 / w → elem (t.v p) i w = if r.mask.getLsbD i then f i % 2 ^ w else elem (s.v p) i w) ∧
      (∀ q, q ≠ p → t.v q = s.v q) ∧ t.me.fflags = s.me.fflags ∧ SameMemory s t :=
  ⟨h.lanes, h.others, h.flags, h.memory⟩

section
variable (r : VRun) (o : VecOps) (s : State) (slot : s.cur.slot = 0)
include slot

theorem vArith_writes (fn : Nat) (int : isI o.et = true) (sb : vecSb o = false) (sat : o.sat = 0) :
    WritesLanes r (typeWidth o.et) (rename r.rot r.rrb o.vd.toNat)
      (fun i => arithInt fn o.et false (elem (r.reg 0 s o.va.toNat) i (typeWidth o.et)) (elem (r.reg 1 s o.vb.toNat) i (typeWidth o.et))
        (elem (r.reg 2 s o.vc.toNat) i (typeWidth o.et))) s (vArith fn r o s) := by
  have h := VRun.lanes_writes r o.vd.toNat (typeWidth o.et) (fun i => (arithInt fn o.et false (elem (r.reg 0 s o.va.toNat) i (typeWidth o.et))
    (elem (r.reg 1 s o.vb.toNat) i (typeWidth o.et)) (elem (r.reg 2 s o.vc.toNat) i (typeWidth o.et)), 0)) s slot (typeWidth_cases _)
    (fun _ => rfl)
  simpa [vArith, sb, sat, arithLane_int _ _ _ _ _ _ int] using h

theorem vLogic_writes (fn : Nat) (sb : vecSb o = false) :
    WritesLanes r (typeWidth o.et) (rename r.rot r.rrb o.vd.toNat)
      (fun i => logicLane fn (typeWidth o.et) (elem (r.reg 0 s o.va.toNat) i (typeWidth o.et))
        (elem (r.reg 1 s o.vb.toNat) i (typeWidth o.et)) (elem (r.reg 1 s o.vb.toNat) i (typeWidth o.et))) s (vLogic fn r o s) := by
  have h := VRun.lanes_writes r o.vd.toNat (typeWidth o.et) (fun i => (logicLane fn (typeWidth o.et)
    (elem (r.reg 0 s o.va.toNat) i (typeWidth o.et)) (elem (r.reg 1 s o.vb.toNat) i (typeWidth o.et))
    (elem (r.reg 1 s o.vb.toNat) i (typeWidth o.et)), 0)) s slot (typeWidth_cases _) (fun _ => rfl)
  simpa [vLogic, sb] using h

theorem vMove_writes (fn : Nat) :
    WritesLanes r (typeWidth o.et) (rename r.rot r.rrb o.vd.toNat)
      (fun i => if fn = 0 then elem (r.reg 0 s o.va.toNat) i (typeWidth o.et) else 0) s (vMove fn r o s) :=
  VRun.lanes_writes r o.vd.toNat (typeWidth o.et) (fun i => (if fn = 0 then elem (r.reg 0 s o.va.toNat) i (typeWidth o.et) else 0, 0)) s
    slot (typeWidth_cases _) (fun _ => rfl)

end

/-- Settles O28: each word writes its active lanes with no flag, and its lane's value is the rule's modulo 2^w. -/
theorem integerLanes : Obligations.IntegerLanes := by
  intro r o s slot int sb sat w p a b lanes
  have arith (fn : Nat) (g : Nat → Nat) (value : ∀ i c, arithInt fn o.et false (a i) (b i) c % 2 ^ w = g i % 2 ^ w) :
      lanes (vArith fn r o s) g :=
    ((vArith_writes r o s slot fn int sb sat).congr fun i => value i _).conj
  refine ⟨arith 0 _ fun i c => ?_, arith 1 _ fun i c => ?_, arith 2 _ fun i c => ?_, (vLogic_writes r o s slot 0 sb).conj,
    (vLogic_writes r o s slot 1 sb).conj, (vLogic_writes r o s slot 2 sb).conj, (vMove_writes r o s slot 0).conj,
    (vMove_writes r o s slot 1).conj⟩
  · rw [arithInt_add, Nat.mod_mod]
  · rw [arithInt_sub _ _ _ _ (elem_lt ..), Nat.mod_mod]
  · rw [arithInt_mul, Nat.mod_mod]

end Sys2Proof.Machine

/-! SUPPORT. Scalar loads, stores and atomics (R107 to R110), FENCE and MARK (R111, R112). -/

namespace Sys2Proof.Machine
open Sys2Proof Sys2Proof.Safety

theorem State.reach_misaligned (s : State) (p : Perm) (scope : Scope) (ea : Word) (n : Nat) (h : ea.toNat % n ≠ 0) :
    s.reach p scope ea n = .fault (.virt .alignment ea.toNat 3) := by rw [State.reach, if_pos h]

/-! ### Loads -/

/-- The issue description of a load of C-seq or L-seq. -/
def loadIssue (o : MemOps) (lat : Nat) : Issue := { Issue.scalar [o.ag] [o.dg] with who := [.c, .l], lat := lat }

def State.loadLat (s : State) : Nat := if s.cur.seq = .l then 5 else 1

section
variable (h : Header) (o : MemOps) (acquire : Bool) (s : State) (free : s.cBusy = false) (g : gate (loadIssue o 1) h s = .go)
include free g

theorem loadWord_queued (pas : List Nat) (reached : s.reach .read (scopeOf o.sco) (s.ea o.ag o.off) (2 ^ o.sz.toNat) = .pas pas)
    (home : pas.findSome? (fun pa => s.homeFault pa) = none)
    (range : s.rangeWait .virt (s.ea o.ag o.off).toNat (2 ^ o.sz.toNat) false = false)
    (posted : (pas.any s.isRemote && s.me.postedOverlap pas) = false) :
    loadWord h o acquire s = went (loadIssue o s.loadLat) h
      (s.queueLoad { s.access (.load o.dg.toNat (o.sgn == 1)) .virt (s.ea o.ag o.off).toNat (2 ^ o.sz.toNat) (scopeOf o.sco) acquire false
          (if s.cur.seq = .l ∧ s.me.cached pas = true then some (s.cycle + 4) else none) with phys := [(pas.headD 0, 2 ^ o.sz.toNat)] }
        (some o.dg.toNat)) (s.pc + 16) :=
  issueWord_went_everySlot _ h _ s _ _ rfl g (by
    simp only [free, reached, home, range, posted, if_false, Bool.false_eq_true, State.pc16])

theorem loadWord_trapped (i : FaultInfo) (reached : s.reach .read (scopeOf o.sco) (s.ea o.ag o.off) (2 ^ o.sz.toNat) = .fault i ∨
      ∃ pas, s.reach .read (scopeOf o.sco) (s.ea o.ag o.off) (2 ^ o.sz.toNat) = .pas pas ∧ pas.findSome? (fun pa => s.homeFault pa) = some i) :
    loadWord h o acquire s = .next (s.trapCopy (loadIssue o s.loadLat) h i) :=
  issueWord_trapped_everySlot _ h _ s _ rfl g (by
    rcases reached with reached | ⟨pas, reached, home⟩
    · simp only [free, reached, if_false, Bool.false_eq_true]
    · simp only [free, reached, home, if_false, Bool.false_eq_true])

theorem loadWord_register (off : Nat) (reached : s.reach .read (scopeOf o.sco) (s.ea o.ag o.off) (2 ^ o.sz.toNat) = .register off) :
    loadWord h o acquire s = wrote (loadIssue o s.loadLat) h s o.dg (s.readRegister off) :=
  issueWord_wrote _ h _ s _ _ rfl g (by simp only [free, reached, if_false, Bool.false_eq_true, State.pc16])

theorem execLdx_misaligned (bad : (s.ea o.ag o.off).toNat % 2 ^ o.sz.toNat ≠ 0) :
    execLdx h o s = .next (s.trapCopy (loadIssue o 4) h (.spad .alignment (s.ea o.ag o.off).toNat 3)) :=
  issueWord_trapped_everySlot _ h _ s _ rfl g (by rw [free, if_neg Bool.false_ne_true, if_pos bad])

theorem execLdx_queued (aligned : (s.ea o.ag o.off).toNat % 2 ^ o.sz.toNat = 0) (inside : s.me.inSpad (s.ea o.ag o.off).toNat (2 ^ o.sz.toNat) = true)
    (range : s.rangeWait .spad (s.ea o.ag o.off).toNat (2 ^ o.sz.toNat) false = false) :
    execLdx h o s = went (loadIssue o 4) h
      (s.queueLoad (s.access (.load o.dg.toNat (o.sgn == 1)) .spad (s.ea o.ag o.off).toNat (2 ^ o.sz.toNat) .core false false
        (some (s.cycle + 3))) (some o.dg.toNat)) (s.pc + 16) :=
  issueWord_went_everySlot _ h _ s _ _ rfl g (by
    simp only [free, aligned, inside, range, if_false, Bool.false_eq_true, ne_eq, not_true_eq_false, Bool.not_true, State.pc16])

end

/-- Settles O15: each clause is one outcome of the checks of a load's address (`State.reach`), or of its home. -/
theorem loadWords : Obligations.LoadWords := by
  unfold Obligations.LoadWords
  intro h o s free p n ea lat sg
  refine ⟨fun pas g reached home range posted => ?queued, fun pas i g reached home => ?home, fun off g reached => ?register,
    fun g bad => ?misaligned, fun g aligned inside range => execLdx_queued h o s free g aligned inside range⟩
  case queued =>
    exact ⟨loadWord_queued h o false s free g pas reached home range posted, loadWord_queued h o true s free g pas reached home range posted⟩
  case home =>
    exact ⟨loadWord_trapped h o false s free g i (.inr ⟨pas, reached, home⟩), loadWord_trapped h o true s free g i (.inr ⟨pas, reached, home⟩)⟩
  case register => exact ⟨loadWord_register h o false s free g off reached, loadWord_register h o true s free g off reached⟩
  case misaligned =>
    have reached := s.reach_misaligned .read (scopeOf o.sco) ea n bad
    exact ⟨loadWord_trapped h o false s free g _ (.inl reached), loadWord_trapped h o true s free g _ (.inl reached),
      execLdx_misaligned h o s free g bad⟩

/-! ### Stores -/

/-- The issue description of a store of C-seq or S-seq. -/
def storeIssue (o : MemOps) : Issue := { Issue.scalar [o.ag, o.bg] [] with who := [.c, .s] }

/-- The low bytes of G(BG). -/
def State.storeData (s : State) (o : MemOps) : List Byte := natBytes (2 ^ o.sz.toNat) (s.g o.bg).toNat

/-- The access of a store to a virtual address. -/
def State.storeAccess (s : State) (o : MemOps) (pas : List Nat) (release : Bool) : Access :=
  { s.access (.store (s.storeData o)) .virt (s.ea o.ag o.off).toNat (2 ^ o.sz.toNat) (scopeOf o.sco) false release none with
    phys := [(pas.headD 0, 2 ^ o.sz.toNat)] }

theorem State.addPosted_pc (s : State) (id addr : Nat) (data : List Byte) (port : Nat) (seq : SeqId) (pc : Word) (command : Option Nat)
    (sent : Bool) : (s.mapMe (fun k => k.addPosted id addr data port seq pc command sent)).pc = s.pc := by
  simp only [State.pc, State.mySeq, State.me_mapMe, State.mapMe_cur]
  rfl

section
variable (h : Header) (o : MemOps) (release : Bool) (s : State) (free : s.cBusy = false) (g : gate (storeIssue o) h s = .go)
include free g

theorem storeWord_trapped (i : FaultInfo) (reached : s.reach .write (scopeOf o.sco) (s.ea o.ag o.off) (2 ^ o.sz.toNat) = .fault i) :
    storeWord h o release s = .next (s.trapCopy (storeIssue o) h i) :=
  issueWord_trapped_everySlot _ h _ s _ rfl g (by simp only [free, reached, if_false, Bool.false_eq_true])

theorem storeWord_register (off : Nat) (reached : s.reach .write (scopeOf o.sco) (s.ea o.ag o.off) (2 ^ o.sz.toNat) = .register off) :
    storeWord h o release s = went (storeIssue o) h (s.writeRegister off (s.g o.bg)) (s.pc + 16) :=
  issueWord_went_everySlot _ h _ s _ _ rfl g (by simp only [free, reached, if_false, Bool.false_eq_true, State.pc16])

section
variable (pas : List Nat) (reached : s.reach .write (scopeOf o.sco) (s.ea o.ag o.off) (2 ^ o.sz.toNat) = .pas pas)
  (range : s.rangeWait .virt (s.ea o.ag o.off).toNat (2 ^ o.sz.toNat) true = false)
include reached range

theorem storeWord_queued (slot0 : s.cur.slot = 0) (near : pas.any s.isRemote = false) :
    storeWord h o release s = went (storeIssue o) h (s.queueStore (s.storeAccess o pas release)) (s.pc + 16) :=
  issueWord_went_everySlot _ h _ s _ _ rfl g (by
    simp only [free, reached, range, slot0, near, if_false, Bool.false_eq_true, ne_eq, not_true_eq_false, Bool.false_and, State.pc16]
    rfl)

theorem storeWord_posted (slot0 : s.cur.slot = 0) (far : pas.any s.isRemote = true) (clear : s.me.postedOverlap pas = false)
    (room : s.me.postedRoom 1 = true) :
    storeWord h o release s = went (storeIssue o) h
      ((s.mapMe (fun k => k.addPosted s.nextId (pas.headD 0) (s.storeData o) 8 s.cur.seq s.pc none false)).queueStore
        (s.storeAccess o pas release)) (s.pc + 16) :=
  issueWord_went_everySlot _ h _ s _ _ rfl g (by
    simp only [free, reached, range, slot0, far, clear, room, if_true, if_false, Bool.false_eq_true, ne_eq, not_true_eq_false, Bool.not_true,
      Bool.or_false, Bool.and_false, State.pc16, s.addPosted_pc]
    rfl)

theorem storeWord_buffered (slot : s.cur.slot ≠ 0) :
    storeWord h o release s = went (storeIssue o) h (s.slotStore .virt (s.ea o.ag o.off).toNat (s.storeData o)) (s.pc + 16) :=
  issueWord_went_everySlot _ h _ s _ _ rfl g (by
    simp only [free, reached, range, slot, if_true, if_false, Bool.false_eq_true, ne_eq, not_false_eq_true, State.pc16]
    rfl)

end

theorem execStx_misaligned (bad : (s.ea o.ag o.off).toNat % 2 ^ o.sz.toNat ≠ 0) :
    execStx h o s = .next (s.trapCopy (storeIssue o) h (.spad .alignment (s.ea o.ag o.off).toNat 3)) :=
  issueWord_trapped_everySlot _ h _ s _ rfl g (by rw [free, if_neg Bool.false_ne_true, if_pos bad])

theorem execStx_went (aligned : (s.ea o.ag o.off).toNat % 2 ^ o.sz.toNat = 0)
    (inside : s.me.inSpad (s.ea o.ag o.off).toNat (2 ^ o.sz.toNat) = true)
    (range : s.rangeWait .spad (s.ea o.ag o.off).toNat (2 ^ o.sz.toNat) true = false) :
    execStx h o s = went (storeIssue o) h
      (if s.cur.slot ≠ 0 then s.slotStore .spad (s.ea o.ag o.off).toNat (s.storeData o)
       else s.queueStore (s.access (.store (s.storeData o)) .spad (s.ea o.ag o.off).toNat (2 ^ o.sz.toNat) .core false false none))
      (s.pc + 16) :=
  issueWord_went_everySlot _ h _ s _ _ rfl g (by
    simp only [free, aligned, inside, range, if_false, Bool.false_eq_true, ne_eq, not_true_eq_false, Bool.not_true]
    split <;> rfl)

end

/-- Settles O16: each clause is one outcome of the checks of a store's address, by its slot and where its bytes lie. -/
theorem storeWords : Obligations.StoreWords := by
  unfold Obligations.StoreWords
  intro h o s free p n ea data
  refine ⟨fun pas g reached range => ⟨fun slot0 near => ?near, fun slot0 far clear room => ?far, fun slot => ?slot⟩,
    fun off g reached => ?register, fun g aligned inside range => ?spad, fun g bad => ?misaligned⟩
  case near =>
    exact ⟨storeWord_queued h o false s free g pas reached range slot0 near, storeWord_queued h o true s free g pas reached range slot0 near⟩
  case far =>
    exact ⟨storeWord_posted h o false s free g pas reached range slot0 far clear room,
      storeWord_posted h o true s free g pas reached range slot0 far clear room⟩
  case slot =>
    exact ⟨storeWord_buffered h o false s free g pas reached range slot, storeWord_buffered h o true s free g pas reached range slot⟩
  case register => exact ⟨storeWord_register h o false s free g off reached, storeWord_register h o true s free g off reached⟩
  case spad =>
    have outcome : exec (.stx h o) s = _ := execStx_went h o s free g aligned inside range
    refine ⟨fun slot0 => ?_, fun slot => ?_⟩
    · rw [outcome, if_neg (not_not_intro slot0)]
      rfl
    · rw [outcome, if_pos slot]
      rfl
  case misaligned =>
    have reached := s.reach_misaligned .write (scopeOf o.sco) ea n bad
    exact ⟨storeWord_trapped h o false s free g _ reached, storeWord_trapped h o true s free g _ reached, execStx_misaligned h o s free g bad⟩

/-! ### Atomics -/

theorem atomicWord_went (h : Header) (o : MemOps) (srcs : List (BitVec 6)) (f : State → Nat → Option Nat) (s : State) (pas : List Nat)
    (free : s.cBusy = false) (slot0 : s.cur.slot = 0)
    (reached : s.reach .both (scopeOf o.sco) (s.ea o.ag o.off) (2 ^ o.sz.toNat) = .pas pas)
    (home : pas.findSome? (fun pa => s.homeFault pa) = none) (answer : pas.findSome? (fun pa => s.answerFault pa) = none)
    (range : s.rangeWait .virt (s.ea o.ag o.off).toNat (2 ^ o.sz.toNat) true = false)
    (posted : (pas.any s.isRemote && s.me.postedOverlap pas) = false)
    (released : ((o.ord == 2 || o.ord == 3) && scopeOf o.sco != .core && !(s.me.postedBefore .c).isEmpty) = false)
    (g : gate { Issue.scalar srcs [o.dg] with who := [.c], noSpec := true } h s = .go) :
    atomicWord h o srcs f s = went { Issue.scalar srcs [o.dg] with who := [.c], noSpec := true } h
      ((s.rmw (scopeOf o.sco) o.ord.toNat pas (f s)).1.setG o.dg
        (if o.sgn = 1 then BitVec.ofInt 64 (sext (8 * 2 ^ o.sz.toNat) (s.rmw (scopeOf o.sco) o.ord.toNat pas (f s)).2)
         else BitVec.ofNat 64 (s.rmw (scopeOf o.sco) o.ord.toNat pas (f s)).2)) (s.pc + 16) :=
  issueWord_went _ h _ s _ _ g slot0 (by
    simp only [free, reached, home, answer, range, posted, released, if_false, Bool.false_eq_true, State.pc16])

theorem ite_lt_lt {n : Nat} {p : Prop} [Decidable p] {x y : Nat} (hx : x < n) (hy : y < n) : (if p then x else y) < n := by
  split <;> assumption

theorem amoValue_exchange (n old b : Nat) (hb : b < 2 ^ (8 * n)) : amoValue 0 n old b = b := Nat.mod_eq_of_lt hb

theorem amoValue_and (n old b : Nat) (hb : b < 2 ^ (8 * n)) : amoValue 2 n old b = old &&& b := Nat.mod_eq_of_lt (Nat.and_lt_two_pow _ hb)

section
variable (n old b : Nat) (ho : old < 2 ^ (8 * n)) (hb : b < 2 ^ (8 * n))
include ho hb

theorem amoValue_or : amoValue 3 n old b = old ||| b := Nat.mod_eq_of_lt (Nat.or_lt_two_pow ho hb)
theorem amoValue_xor : amoValue 4 n old b = old ^^^ b := Nat.mod_eq_of_lt (Nat.xor_lt_two_pow ho hb)

theorem amoValue_minSigned : sext (8 * n) (amoValue 5 n old b) = Min.min (sext (8 * n) old) (sext (8 * n) b) := by
  have value : amoValue 5 n old b = if sext (8 * n) b < sext (8 * n) old then b else old := by
    simp only [amoValue, decide_eq_true_eq]
    exact Nat.mod_eq_of_lt (ite_lt_lt hb ho)
  rw [value]
  split <;> omega

theorem amoValue_maxSigned : sext (8 * n) (amoValue 6 n old b) = Max.max (sext (8 * n) old) (sext (8 * n) b) := by
  have value : amoValue 6 n old b = if sext (8 * n) old < sext (8 * n) b then b else old := by
    simp only [amoValue, decide_eq_true_eq]
    exact Nat.mod_eq_of_lt (ite_lt_lt hb ho)
  rw [value]
  split <;> omega

theorem amoValue_min : amoValue 7 n old b = Min.min old b := by
  have value : amoValue 7 n old b = if b < old then b else old := Nat.mod_eq_of_lt (ite_lt_lt hb ho)
  rw [value]
  split <;> omega

theorem amoValue_max : amoValue 8 n old b = Max.max old b := by
  have value : amoValue 8 n old b = if old < b then b else old := Nat.mod_eq_of_lt (ite_lt_lt hb ho)
  rw [value]
  split <;> omega

end

/-- Settles O18: an atomic whose checks pass is one `State.rmw` (`atomicWord_went`), and the new value is the operation's. -/
theorem atomicWords : Obligations.AtomicWords := by
  unfold Obligations.AtomicWords
  refine ⟨?_, fun n old b _ ho hb => ⟨amoValue_exchange n old b hb, rfl, amoValue_and n old b hb, amoValue_or n old b ho hb,
    amoValue_xor n old b ho hb, amoValue_minSigned n old b ho hb, amoValue_maxSigned n old b ho hb, amoValue_min n old b ho hb,
    amoValue_max n old b ho hb⟩⟩
  intro h o s pas free slot0 n ea scope reached home answer range posted released i ext b
  refine ⟨fun g => ?_, fun g => ?_⟩
  · rw [exec_amo, execAmo, atomicWord_went h o _ _ s pas free slot0 reached home answer range posted released g]
  · rw [exec_cas, execCas, atomicWord_went h o _ _ s pas free slot0 reached home answer range posted released g]

/-! ### FENCE and MARK -/

/-- Settles O19: FENCE acts at once or stands in the store queue; a MARK adds its number. -/
theorem fenceWords : Obligations.FenceWords := by
  unfold Obligations.FenceWords
  intro h o s p pm before system
  refine ⟨fun g none_before near => ?_, fun g behind => ?_, fun g => ?_⟩
  · refine (exec_fence h o s).trans (issueWord_went_everySlot _ h _ s _ _ rfl g ?_)
    simp only [before, system] at none_before near
    simp only [none_before, near, List.isEmpty_nil, Bool.not_false, Bool.and_self, if_true, State.pc16]
  · refine (exec_fence h o s).trans (issueWord_went_everySlot _ h _ s _ _ rfl g ?_)
    have stands : (before.isEmpty && !system) = false := by
      rcases behind with some_before | far
      · simp [List.isEmpty_eq_false_iff.mpr some_before]
      · simp [far]
    simp only [before, system] at stands
    simp only [stands, if_false, Bool.false_eq_true]
    rfl
  · exact (exec_mark h o s).trans (issueWord_went_everySlot _ h _ s _ _ rfl g rfl)

end Sys2Proof.Machine

/-! SUPPORT. Token words, branch outcomes, Meridian barriers and LEEWAY (R114 to R117, R122). -/

namespace Sys2Proof.Machine
open Sys2Proof Sys2Proof.Safety

/-! ### Tokens and branch outcomes -/

theorem tokenWord_self (h : Header) (o : MemOps) (push : Bool) (s : State) (self : seqOfNat (o.off.toNat % 4) = s.cur.seq) :
    tokenWord h o push s = .next (s.takeTrap (.bare .illegal)) := by rw [tokenWord, if_pos self]

theorem execBoqpush_pushed (h : Header) (o : MemOps) (s : State) (slot0 : s.cur.slot = 0)
    (g : gate (Issue.scalar [o.ag, o.bg] []) h s = .go)
    (place : s.me.outcomeRoom (o.off.toNat % 4) (if s.cur.seq = .s ∧ s.me.comparePushes s.cycle (o.off.toNat % 4) = true then 2 else 1) = true)
    (first : s.me.older s.cur.seq (8 + o.off.toNat % 4) s.cycle = false) :
    execBoqpush h o s = went (Issue.scalar [o.ag, o.bg] []) h
      (s.mapMe (fun k => k.pushOutcome (o.off.toNat % 4) ⟨s.cycle + 1, condHolds (o.off.toNat / 16) (s.g o.ag) (s.g o.bg),
        k.openAccesses s.cur.seq ++ k.postedBefore s.cur.seq, s.cycle, s.cur.seq⟩)) (s.pc + 16) :=
  issueWord_went _ h _ s _ _ g slot0 (by
    simp only [slot0, place, first, ne_eq, not_true_eq_false, if_true, if_false, Bool.not_false, Bool.and_self, State.pc16])

/-- Settles O21: a token word to a peer only passes the checks of issue; BOQPUSH pushes where there is room. -/
theorem tokenWords : Obligations.TokenWords := by
  unfold Obligations.TokenWords
  intro h o s slot0 peer n p owner
  refine ⟨fun self => ⟨tokenWord_self h o true s self, tokenWord_self h o false s self⟩, fun other g => ?_, fun other g => ?_,
    fun g place first => execBoqpush_pushed h o s slot0 g place first⟩
  · exact (if_neg other).trans (issueWord_went _ h _ s _ _ g slot0 rfl)
  · exact (if_neg other).trans (issueWord_went _ h _ s _ _ g slot0 rfl)

/-! ### Meridian barriers -/

/-- Every member of the group is covered: no bit of its mask lies outside. -/
theorem and_not_eq_zero_iff {n : Nat} (m c : BitVec n) : m &&& ~~~c = 0 ↔ ∀ i, m.getLsbD i = true → c.getLsbD i = true := by
  constructor
  · intro e i hm
    have bit : (m &&& ~~~c).getLsbD i = false := by rw [e]; simp
    have inside : i < n := BitVec.lt_of_getLsbD hm
    simpa [hm, inside] using bit
  · refine fun covered => BitVec.eq_of_getLsbD_eq fun i inside => ?_
    cases hm : m.getLsbD i with
    | false => simp [hm]
    | true => simp [covered i hm, inside]

theorem Group.settle_complete (g : Group) (f : BitVec 128) (some_arrived : g.arrived ≠ 0)
    (all : ∀ i, g.mask.getLsbD i = true → (g.arrived ||| g.ended ||| f).getLsbD i = true) :
    (g.settle f).gen = g.gen + 1 ∧ (g.settle f).arrived = 0 ∧ (g.settle f).held = none ∧ (g.settle f).mask = g.held.getD g.mask := by
  rw [Group.settle, if_pos ⟨some_arrived, (and_not_eq_zero_iff _ _).mpr all⟩]
  cases held : g.held <;> simp

theorem Group.settle_incomplete (g : Group) (f : BitVec 128)
    (open_ : g.arrived = 0 ∨ ∃ i, g.mask.getLsbD i = true ∧ (g.arrived ||| g.ended ||| f).getLsbD i = false) : g.settle f = g := by
  refine if_neg fun ⟨some_arrived, all⟩ => ?_
  rcases open_ with none_arrived | ⟨i, member, missing⟩
  · exact some_arrived none_arrived
  · exact Bool.false_ne_true (missing.symm.trans ((and_not_eq_zero_iff _ _).mp all i member))

section
variable (h : Header) (o : MemOps) (s : State)

/-- The number of the group that a word names on its core's die. -/
def State.groupNo (s : State) (o : MemOps) : Nat := 32 * dieOf s.cur.core + o.off.toNat

theorem execBarv_arrived (slot0 : s.cur.slot = 0) (free : s.cBusy = false) (g : gate (barrierIssue [] [o.dg]) h s = .go)
    (good : s.groupFault (s.group (s.groupNo o)) = none) (level : s.levelDiffers (s.group (s.groupNo o)) = false)
    (absent : (s.group (s.groupNo o)).arrived.getLsbD (s.cur.core % 128) = false) :
    execBarv h o s = went (barrierIssue [] [o.dg]) h
      (((s.releaseCaches s.cur.core (levelScope (s.me.level s.cycle))).setG o.dg (BitVec.ofNat 64 (s.group (s.groupNo o)).gen.toNat)).setGroup
        (s.groupNo o) ({ s.group (s.groupNo o) with
          arrived := setBit (s.group (s.groupNo o)).arrived (s.cur.core % 128) true }.settle (s.fencedMask (dieOf s.cur.core)))) (s.pc + 16) :=
  issueWord_went _ h _ s _ _ g slot0 (by
    simp only [State.groupNo] at good level absent
    simp only [good, level, absent, free, Bool.or_self, if_false, Bool.false_eq_true]
    rfl)

theorem execBarv_badGroup (cause : Cause) (slot0 : s.cur.slot = 0) (g : gate (barrierIssue [] [o.dg]) h s = .go)
    (bad : s.groupFault (s.group (s.groupNo o)) = some cause) :
    execBarv h o s = .next (s.trapCopy (barrierIssue [] [o.dg]) h (.bare cause)) :=
  issueWord_trapped h s slot0 _ _ _ g (by simp only [State.groupNo] at bad; simp only [bad])

theorem execBarv_otherLevel (slot0 : s.cur.slot = 0) (g : gate (barrierIssue [] [o.dg]) h s = .go)
    (good : s.groupFault (s.group (s.groupNo o)) = none) (level : s.levelDiffers (s.group (s.groupNo o)) = true) :
    execBarv h o s = .next (s.trapCopy (barrierIssue [] [o.dg]) h (.bare .barrier)) :=
  issueWord_trapped h s slot0 _ _ _ g (by simp only [State.groupNo] at good level; simp only [good, level, if_true])

theorem execBwait_passed (slot0 : s.cur.slot = 0) (g : gate (barrierIssue [o.ag] []) h s = .go)
    (good : s.groupFault (s.group (s.groupNo o)) = none)
    (passed : 1 ≤ ((s.group (s.groupNo o)).gen - BitVec.ofNat 32 (s.g o.ag).toNat).toNat ∧
      ((s.group (s.groupNo o)).gen - BitVec.ofNat 32 (s.g o.ag).toNat).toNat < 2 ^ 31) :
    execBwait h o s = went (barrierIssue [o.ag] []) h (s.acquireCaches s.cur.core (levelScope (s.me.level s.cycle))) (s.pc + 16) :=
  issueWord_went _ h _ s _ _ g slot0 (by
    simp only [State.groupNo] at good passed
    simp only [good]
    exact if_pos passed)

end

/-- Settles O22: the clauses are the outcomes of BARV and BWAIT, and the two cases of `Group.settle`. -/
theorem meridianWords : Obligations.MeridianWords := by
  unfold Obligations.MeridianWords
  refine ⟨?_, fun g f => ⟨g.settle_complete f, g.settle_incomplete f⟩⟩
  intro h o s slot0 free c n g pv pw level
  exact ⟨fun go good same absent => execBarv_arrived h o s slot0 free go good same absent,
    fun go good least most => execBwait_passed h o s slot0 go good ⟨least, most⟩,
    fun cause go bad => execBarv_badGroup h o s cause slot0 go bad,
    fun go good other => execBarv_otherLevel h o s slot0 go good other⟩

/-! ### LEEWAY -/

/-- A table that receives one value at several places. -/
theorem Table.get_foldl_set {α : Type} [DecidableEq α] (d x : α) (f : Nat → Nat) (m : Nat) : ∀ (l : List Nat) (t : Table α),
    Table.get d (l.foldl (fun t i => Table.set d t (f i) x) t) m = if m ∈ l.map f then x else Table.get d t m
  | [], t => by simp
  | i :: l, t => by
    rw [List.foldl_cons, Table.get_foldl_set d x f m l]
    by_cases later : m ∈ l.map f
    · simp only [List.map_cons, List.mem_cons, later, or_true, if_true]
    · by_cases here : m = f i
      · simp only [here, Table.get_set_same, List.map_cons, List.mem_cons, true_or, if_true]
        split <;> rfl
      · simp only [later, here, Table.get_set_other _ _ _ _ _ here, List.map_cons, List.mem_cons, or_self, if_false]

/-- The state in which LEEWAY has raised its core's count, once. -/
def State.leewayRaised (s : State) (wait : Bool) : State :=
  (s.mapMe (fun k => { k with phase := if s.me.leewayWait then s.me.phase else s.me.phase + 1, leewayWait := wait })).noteCount
    (clusterOf s.cur.core)

theorem State.noteCount_pc (s : State) (n : Nat) : (s.noteCount n).pc = s.pc := by
  unfold State.noteCount
  split <;> rfl

theorem State.leewayRaised_pc (s : State) (wait : Bool) : (s.leewayRaised wait).pc = s.pc := by
  rw [State.leewayRaised, State.noteCount_pc]
  simp only [State.pc, State.mySeq, State.me_mapMe, State.mapMe_cur]
  rfl

theorem execLeewayCountUpdate_shows (cluster : Nat) (s : State) (hc : cluster < 32) :
    ∃ t, execLeewayCountUpdate cluster s = .next t ∧ t.cores = s.cores ∧ t.hbm = s.hbm ∧
      (∀ reader, reader < 32 → Table.get [] t.leeway (32 * reader + cluster) = s.clusterCounts cluster) ∧
      Table.get 0 t.leewayDue cluster = 0 := by
  refine ⟨_, if_neg (not_le.mpr hc), rfl, rfl, fun reader hr => ?_, Table.get_set_same 0 s.leewayDue cluster 0⟩
  rw [Table.get_foldl_set]
  exact if_pos (List.mem_map.mpr ⟨reader, List.mem_range.mpr hr, rfl⟩)

/-- A word that must wait, outside a FIXED region, is noted as waiting. -/
theorem issueWord_waits (p : Issue) (h : Header) (body : State → Eff) (s t : State) (on : Option Nat) (g : gate p h s = .go)
    (slot0 : s.cur.slot = 0) (free : h.m = 0) (hb : body s = .wait t on) : issueWord p h body s = .next (t.markWait on) := by
  simp [issueWord, g, slot0, hb, free]

/-- Settles O24: LEEWAY goes on or waits as `State.leewayOpen` says, with the count raised. -/
theorem leewaySteps : Obligations.LeewaySteps := by
  unfold Obligations.LeewaySteps
  intro h o s p n raised
  refine ⟨fun slot0 g open_ => ?went, fun slot0 free g closed => ?waits, fun cluster hc => execLeewayCountUpdate_shows cluster s hc⟩
  case went =>
    have pc : (raised false).pc = s.pc := s.leewayRaised_pc false
    refine (exec_leeway h o s).trans ((issueWord_went _ h _ s ((raised false).setG o.dg n) (s.pc + 16) g slot0 ?_).trans ?_)
    · simp only [n] at open_
      simp only [open_, if_true]
      rfl
    · rw [wrote, went, pc]
  case waits =>
    refine (exec_leeway h o s).trans (issueWord_waits _ h _ s (raised true) none g slot0 free ?_)
    simp only [n] at closed
    simp only [closed, free]
    rfl

end Sys2Proof.Machine

/-! SUPPORT. Vector words: entering the issuer's sub-queue, and the accesses of vector memory words (R131, R146, R147, R252). -/

namespace Sys2Proof.Machine
open Sys2Proof Sys2Proof.Safety

/-- Every VEC word is a vector word or, of MAJ 0x48, a vector memory word. -/
theorem exec_of_parts_vec (i : Instr) (maj fn : Nat) (h : Header) (o : VecOps) (s : State) (hp : i.parts = some (maj, fn, h, .vec o)) :
    exec i s = if maj = 0x48 then vectorMemoryWord i fn h o s else vectorWord i maj fn h o s := by
  cases i <;> simp only [Instr.parts, Option.some.injEq, Prod.mk.injEq, reduceCtorEq, and_false, Operands.vec.injEq] at hp
  all_goals
    obtain ⟨rfl, rfl, rfl, rfl⟩ := hp
    rfl

/-! ### A FIXED reading of the deferral queue -/

/-- X-seq in the cycle after one in which VDEFER, of latency 2, was performed (R134). -/
def freshDeferral : State :=
  { State.reset.mapCore 0 (fun k => { k with vready := [(vreadyKey .x 1025, 2)] }) with cur := ⟨0, .x, 0⟩ }

/-- The header of a word in a FIXED region. -/
def fixedHeader : Header := { Header.plain with m := 1 }

/-- VDQCNT into g1. -/
def countOps : VecOps := ⟨0, 0, 0, 0, 0, 0, 0, 0, 0, 1, 0⟩

/-- In a next state, the present core's FIFO of a port holds a command that has failed. -/
def Result.hasFailed (port : Nat) : Result → Bool
  | .next t => (t.me.fifo port).any (fun c => c.failed.isSome)
  | .fault _ | .refused _ => false

/-- A FIXED VDQCNT within the latency of the VDEFER before it misses its schedule: it stands in the sub-queue without effect. -/
theorem exec_vdqcnt_misses : Result.hasFailed 5 (exec (.vdqcnt fixedHeader countOps) freshDeferral) = true := by decide +kernel

/-- Refutes O26: nothing in it excludes a FIXED VDRAIN or VDQCNT within the latency of a VDEFER (`freshDeferral`), which misses its schedule
instead of entering the sub-queue. -/
theorem not_vectorWordsEnter : ¬ Obligations.VectorWordsEnter := by
  unfold Obligations.VectorWordsEnter
  intro claim
  have enters := claim (.vdqcnt fixedHeader countOps) 0x4C 2 fixedHeader countOps freshDeferral rfl (by decide) (by decide +kernel)
    (by decide +kernel) (fun _ => by decide +kernel) (fun _ => by decide +kernel) (by decide +kernel) (by decide +kernel) (by decide +kernel)
  have failed := congrArg (Result.hasFailed 5) enters
  rw [exec_vdqcnt_misses] at failed
  exact absurd failed (by decide +kernel)

/-! ### Vector memory words -/

/-- What decides whether the present word may enter a FIFO, and where it goes on, is as before. -/
structure SameEntry (s t : State) : Prop where
  cur : t.cur = s.cur
  cycle : t.cycle = s.cycle
  fifos : t.me.fifos = s.me.fifos
  stopped : t.me.stopped = s.me.stopped
  portFree : t.me.portFree = s.me.portFree
  inbox : t.me.inbox = s.me.inbox
  waitOn : ∀ q, (t.me.seq q).waitOn = (s.me.seq q).waitOn
  waitSince : ∀ q, (t.me.seq q).waitSince = (s.me.seq q).waitSince
  pc : ∀ q, (t.me.seq q).pc = (s.me.seq q).pc

theorem SameEntry.refl (s : State) : SameEntry s s := by constructor <;> intros <;> rfl

theorem SameEntry.trans {s t u : State} (a : SameEntry s t) (b : SameEntry t u) : SameEntry s u where
  cur := b.cur.trans a.cur
  cycle := b.cycle.trans a.cycle
  fifos := b.fifos.trans a.fifos
  stopped := b.stopped.trans a.stopped
  portFree := b.portFree.trans a.portFree
  inbox := b.inbox.trans a.inbox
  waitOn q := (b.waitOn q).trans (a.waitOn q)
  waitSince q := (b.waitSince q).trans (a.waitSince q)
  pc q := (b.pc q).trans (a.pc q)

/-- The number of the next command or access decides nothing. -/
theorem SameEntry.nextId {s t : State} (a : SameEntry s t) (n : Nat) : SameEntry s { t with nextId := n } where
  __ := a

theorem SameEntry.mapMe (s : State) (f : Core → Core) (fifos : (f s.me).fifos = s.me.fifos) (stopped : (f s.me).stopped = s.me.stopped)
    (portFree : (f s.me).portFree = s.me.portFree) (inbox : (f s.me).inbox = s.me.inbox) (seq : ∀ q, (f s.me).seq q = s.me.seq q) :
    SameEntry s (s.mapMe f) where
  cur := rfl
  cycle := rfl
  fifos := by rw [State.me_mapMe, fifos]
  stopped := by rw [State.me_mapMe, stopped]
  portFree := by rw [State.me_mapMe, portFree]
  inbox := by rw [State.me_mapMe, inbox]
  waitOn q := by rw [State.me_mapMe, seq]
  waitSince q := by rw [State.me_mapMe, seq]
  pc q := by rw [State.me_mapMe, seq]

theorem Core.mapSeq_keeps {α : Type} (read : Sequencer → α) (k : Core) (q p : SeqId) (f : Sequencer → Sequencer)
    (same : read (f (k.seq q)) = read (k.seq q)) : read ((k.mapSeq q f).seq p) = read (k.seq p) := by
  by_cases here : p = q
  · rw [here, Core.seq_mapSeq_same, same]
  · rw [Core.seq_mapSeq_other _ _ _ _ here]

theorem SameEntry.mapMySeq (s : State) (f : Sequencer → Sequencer) (waitOn : (f s.mySeq).waitOn = s.mySeq.waitOn)
    (waitSince : (f s.mySeq).waitSince = s.mySeq.waitSince) (pc : (f s.mySeq).pc = s.mySeq.pc) : SameEntry s (s.mapMySeq f) where
  cur := rfl
  cycle := rfl
  fifos := by rw [State.mapMySeq, State.me_mapMe, Core.mapSeq_fifos]
  stopped := by rw [State.mapMySeq, State.me_mapMe, Core.mapSeq_stopped]
  portFree := by rw [State.mapMySeq, State.me_mapMe, Core.mapSeq_portFree]
  inbox := by rw [State.mapMySeq, State.me_mapMe, Core.mapSeq_inbox]
  waitOn q := by rw [State.mapMySeq, State.me_mapMe]; exact Core.mapSeq_keeps Sequencer.waitOn _ _ q _ waitOn
  waitSince q := by rw [State.mapMySeq, State.me_mapMe]; exact Core.mapSeq_keeps Sequencer.waitSince _ _ q _ waitSince
  pc q := by rw [State.mapMySeq, State.me_mapMe]; exact Core.mapSeq_keeps Sequencer.pc _ _ q _ pc

theorem State.queueStore_sameEntry (s : State) (a : Access) : SameEntry s (s.queueStore a) :=
  (SameEntry.mapMe s (fun k => { k with stores := k.stores ++ [a] }) rfl rfl rfl rfl (fun _ => rfl)).nextId _

theorem State.queueLoad_sameEntry (s : State) (a : Access) (reg : Option Nat) : SameEntry s (s.queueLoad a reg) :=
  ((SameEntry.mapMe s (fun k => { k with loads := k.loads ++ [a] }) rfl rfl rfl rfl (fun _ => rfl)).nextId _).trans
    (SameEntry.mapMySeq _ _ rfl rfl rfl)

theorem State.queueVector_sameEntry (s : State) (a : VAccess) (bytes : List (Nat × Nat)) (deadline : Option Nat) :
    SameEntry s (s.queueVector a bytes deadline).1 := by
  unfold State.queueVector
  split
  · split
    · exact .refl s
    · exact (SameEntry.mapMe s (fun k => { k with posted := k.posted ++ _ }) rfl rfl rfl rfl (fun _ => rfl)).trans
        (State.queueStore_sameEntry ..)
  · exact State.queueLoad_sameEntry s _ none

section
variable {s t : State} (same : SameEntry s t) (port : Nat)
include same

theorem SameEntry.fifo : t.me.fifo port = s.me.fifo port := by rw [Core.fifo, Core.fifo, same.fifos]

theorem SameEntry.fifoRoom : t.me.fifoRoom port = s.me.fifoRoom port := by rw [Core.fifoRoom, Core.fifoRoom, same.fifo]

theorem SameEntry.older : t.me.older t.cur.seq port t.cycle = s.me.older s.cur.seq port s.cycle := by
  simp only [Core.older, Core.olderThan, same.cur, same.cycle, same.fifo, same.inbox, same.waitOn, same.waitSince]

theorem SameEntry.beginsAtOnce {c d : Command} (due : d.due = c.due) : t.me.beginsAtOnce port d = s.me.beginsAtOnce port c := by
  simp only [Core.beginsAtOnce, due, same.stopped, same.portFree, same.fifo]

theorem SameEntry.pc_eq : t.pc = s.pc := by rw [State.pc, State.pc, State.mySeq, State.mySeq, same.cur, same.pc]

/-- A command that could enter its FIFO still can. -/
theorem SameEntry.enter_done {c d : Command} (due : d.due = c.due) (size : Nat) (room : s.me.fifoRoom port = true)
    (first : s.me.older s.cur.seq port s.cycle = false) (begins : s.me.beginsAtOnce port c = true) :
    t.enter port d size = .done { t.mapMe (fun k => k.accept port d) with nextId := t.nextId + 1 } (s.pc + BitVec.ofNat 64 size) := by
  rw [State.enter_done t port d size ((same.fifoRoom port).trans room) ((same.older port).trans first)
    ((same.beginsAtOnce port due).trans begins), same.pc_eq]

end

theorem State.lanesHeld_of_not_waits {s : State} {a : VAccess} {bytes : List (Nat × Nat)} (h : s.vectorWaits a bytes = false) :
    s.me.lanesHeld s.cycle a = false := (Bool.or_eq_false_iff.mp h).1

/-- The issue description of a vector memory word. -/
def vectorMemoryIssue (i : Instr) (fn : Nat) (o : VecOps) (s : State) : Issue :=
  { Issue.scalar [o.ga] [] with who := vectorIssuers 0x48 fn, lanes := true, engine := some (vectorPort s.cur.seq), cmd := some i }

/-- The lanes of a scatter that have still to take their entries. -/
def State.lanesToPost (s : State) (a : VAccess) (bytes : List (Nat × Nat)) : List ((Nat × Nat) × Nat) :=
  if s.cur.slot = 0 then (s.remoteLanes a bytes).drop s.mySeq.scattered else []

/-- The command of a vector memory word, as the state u after its lanes' entries gives it. -/
def State.vectorMemoryCommand (u : State) (i : Instr) (h : Header) (o : VecOps) (a : VAccess) : Command :=
  { u.command i h [u.g o.ga] (if h.m = 1 then some u.cycle else none) with copy := a.lanes.flatMap (fun l => natBytes 8 l.2) }

/-- A word that must wait, outside a FIXED region, is noted as waiting, for whatever slot. -/
theorem issueWord_waits_everySlot (p : Issue) (h : Header) (body : State → Eff) (s t : State) (on : Option Nat) (hp : p.noSpec = false)
    (g : gate p h s = .go) (free : h.m = 0) (hb : body s = .wait t on) : issueWord p h body s = .next (t.markWait on) := by
  simp [issueWord, g, hp, hb, free]

/-- In a sequencer's first turn of the cycle no other access has waited longer for a range. -/
theorem State.turn_open (s : State) (first : s.mayRetry = true → s.me.older s.cur.seq 13 s.cycle = false) :
    (s.mayRetry && s.me.older s.cur.seq 13 s.cycle) = false := by
  cases retry : s.mayRetry
  · rfl
  · exact first retry

section
variable (i : Instr) (fn : Nat) (h : Header) (o : VecOps) (s : State) (g : gate (vectorMemoryIssue i fn o s) h s = .go)
  (ready : s.cur.slot = 0 →
    ((vecUses o 0x48 fn).1 ++ (vecUses o 0x48 fn).2).any (fun n => s.me.vecAwaited s.cur.seq s.cycle (rename h.rot s.me.rrb n)) = false ∧
      (vecUses o 0x48 fn).2.any (fun n => s.me.vecUnread s.cur.seq (rename h.rot s.me.rrb n)) = false)
  (compared : h.msrc = 2 → s.me.cmAwaited s.cycle = false)

include ready in
/-- No register is awaited, or still to be read, on behalf of slot 0. -/
theorem registers_open : ¬(s.cur.slot = 0 ∧
    (((vecUses o 0x48 fn).1 ++ (vecUses o 0x48 fn).2).any (fun n => s.me.vecAwaited s.cur.seq s.cycle (rename h.rot s.me.rrb n)) = true ∨
      (vecUses o 0x48 fn).2.any (fun n => s.me.vecUnread s.cur.seq (rename h.rot s.me.rrb n)) = true)) := by
  rintro ⟨slot0, awaits⟩
  obtain ⟨awaited, unread⟩ := ready slot0
  rw [awaited, unread] at awaits
  exact awaits.elim Bool.false_ne_true Bool.false_ne_true

include compared in
theorem cm_open : (decide (h.msrc = 2) && s.me.cmAwaited s.cycle) = false := by
  by_cases reads : h.msrc = 2
  · rw [compared reads, Bool.and_false]
  · rw [decide_eq_false reads, Bool.false_and]

include g ready compared

theorem vectorMemoryWord_trapped (f : FaultInfo) (checked : s.checkVector s.cur.core s.me.asid 3 (s.vectorAccess fn h o) = .fault f) :
    vectorMemoryWord i fn h o s = .next (s.trapCopy (vectorMemoryIssue i fn o s) h f) := by
  rw [vectorMemoryWord]
  refine issueWord_trapped_everySlot _ h _ s _ rfl g ?_
  dsimp only
  rw [if_neg (registers_open fn h o s ready), cm_open h s compared, checked]
  rfl

section
variable (bytes : List (Nat × Nat)) (checked : s.checkVector s.cur.core s.me.asid 3 (s.vectorAccess fn h o) = .ok bytes)
  (goes : s.vectorWaits (s.vectorAccess fn h o) bytes = false) (first : s.mayRetry = true → s.me.older s.cur.seq 13 s.cycle = false)
include checked goes first

theorem vectorMemoryWord_entered (u : State) (q : State × List Nat)
    (posted : s.postLanes (s.vectorAccess fn h o) (s.v (s.vectorAccess fn h o).reg) (s.lanesToPost (s.vectorAccess fn h o) bytes) = (u, []))
    (room : u.me.fifoRoom (vectorPort s.cur.seq) = true) (older : u.me.older u.cur.seq (vectorPort s.cur.seq) u.cycle = false)
    (begins : u.me.beginsAtOnce (vectorPort s.cur.seq) (u.vectorMemoryCommand i h o (s.vectorAccess fn h o)) = true)
    (queued : u.queueVector (s.vectorAccess fn h o) bytes (if fn = 2 then some (u.cycle + 5) else none) = q) :
    vectorMemoryWord i fn h o s = went (vectorMemoryIssue i fn o s) h
      { q.1.mapMe (fun k => k.accept (vectorPort s.cur.seq)
          { u.vectorMemoryCommand i h o (s.vectorAccess fn h o) with id := q.1.nextId, own := q.2 }) with
        nextId := q.1.nextId + 1 } (u.pc + 16) := by
  rw [vectorMemoryWord]
  refine issueWord_went_everySlot _ h _ s _ _ rfl g ?_
  dsimp only
  rw [if_neg (registers_open fn h o s ready), cm_open h s compared, checked]
  simp only [State.lanesHeld_of_not_waits goes, s.turn_open first, goes, Bool.or_self, Bool.false_eq_true, if_false]
  rw [State.lanesToPost] at posted
  rw [posted]
  have entered := State.enter_done u _ _ 16 room older begins
  rw [State.vectorMemoryCommand] at entered
  simp only [entered]
  subst queued
  exact (State.queueVector_sameEntry u _ bytes _).enter_done _ rfl 16 room older begins

theorem vectorMemoryWord_waits (u : State) (l : (Nat × Nat) × Nat) (r : List ((Nat × Nat) × Nat)) (free : h.m = 0)
    (posted : s.postLanes (s.vectorAccess fn h o) (s.v (s.vectorAccess fn h o).reg) (s.lanesToPost (s.vectorAccess fn h o) bytes) = (u, l :: r)) :
    vectorMemoryWord i fn h o s = .next (u.markWait none) := by
  rw [vectorMemoryWord]
  refine issueWord_waits_everySlot _ h _ s u none rfl g free ?_
  dsimp only
  rw [if_neg (registers_open fn h o s ready), cm_open h s compared, checked]
  simp only [State.lanesHeld_of_not_waits goes, s.turn_open first, goes, Bool.or_self, Bool.false_eq_true, if_false]
  rw [State.lanesToPost] at posted
  rw [posted]

end
end

/-- Settles O27: each clause is one outcome of the checks of every lane (`State.checkVector`) and of the entries of its remote lanes. -/
theorem vectorMemoryWords : Obligations.VectorMemoryWords := by
  unfold Obligations.VectorMemoryWords
  intro i fn h o s hp port p uses a g ready compared
  have word : exec i s = vectorMemoryWord i fn h o s := exec_of_parts_vec i 0x48 fn h o s hp
  refine ⟨fun f checked => word.trans ?_, fun bytes u checked goes first posted => ?_, fun bytes u l r checked goes first posted free => word.trans ?_⟩
  · exact vectorMemoryWord_trapped i fn h o s g ready compared f checked
  · intro c room older begins q
    exact word.trans (vectorMemoryWord_entered i fn h o s g ready compared bytes checked goes first u q posted room older begins rfl)
  · exact vectorMemoryWord_waits i fn h o s g ready compared bytes checked goes first u l r free posted

end Sys2Proof.Machine

/-! SUPPORT. Matrix words, words of the engines and record headers: entering their FIFOs, or trapping in decoding (R86, R154 to R229). -/

namespace Sys2Proof.Machine
open Sys2Proof Sys2Proof.Safety

/-! ### Matrix words -/

/-- A word of X-seq that has nothing wrong but an absent operand traps in decoding, with lanes or without. -/
theorem issueWord_absent (p : Issue) (h : Header) (body : State → Eff) (s : State) (i : FaultInfo) (slot0 : s.cur.slot = 0) (who : p.who = [.x])
    (seq : s.cur.seq = .x) (m1 : h.msrc ≠ 1) (m2 : h.msrc ≠ 2) (absent : p.absent = some i) :
    issueWord p h body s = .next (s.takeTrap i) :=
  issueWord_barred p h body s i (gate_absent p h s i (by rw [who, seq]; rfl) (by simp [seq]) (.inr ⟨m1, m2⟩) absent) slot0

section
variable (h : Header) (o : EngOps) (s : State) (slot0 : s.cur.slot = 0)
include slot0

/-- A matrix word enters the matrix FIFO, or names something that the configuration does not have. -/
theorem matrixWord_outcomes (i : Instr) (ns : Bool) (absent : State → Bool) (spans : State → List Span) (a : Bool) (l : List Span)
    (hi : exec i s = matrixWord i h o ns absent spans s) (ha : absent s = a) (hl : spans s = l) :
    (gate { engineIssue i 3 [.x] ns o with absent := if a then some (.bare .accConfig) else none } h s = .go → room s 3 (s.engCommand i h o) l →
      exec i s =
        entered { engineIssue i 3 [.x] ns o with absent := if a then some (.bare .accConfig) else none } h s 3 (s.engCommand i h o) l) ∧
    (a = true → s.cur.seq = .x ∧ h.msrc ≠ 1 ∧ h.msrc ≠ 2 → exec i s = .next (s.takeTrap (.bare .accConfig))) :=
  ⟨fun g r => hi.trans (matrixWord_entered i h o ns absent spans s a l slot0 ha hl g r),
   fun missing ⟨seq, m1, m2⟩ => hi.trans (matrixWord_absent i h o ns absent spans s slot0 seq m1 m2 (ha.trans missing))⟩

/-- The issue description of ACFG. -/
def acfgIssue : Issue := { Issue.scalar [] [] with who := [.x], noSpec := true }

theorem execAcfg_configured (k : Core) (g : gate acfgIssue h s = .go) (empty : s.me.fifo 3 = [])
    (fits : s.me.configure (acfgConf o) (BitVec.ofNat 9 (o.imm.toNat / 4)) = some k) :
    execAcfg h o s = went acfgIssue h (s.setMe (k.takePart 3 false)) (s.pc + 16) :=
  issueWord_went _ h _ s _ _ g slot0 (by simp only [empty, fits, List.isEmpty_nil, Bool.not_true, if_false, Bool.false_eq_true, State.pc16])

theorem execAcfg_live (g : gate acfgIssue h s = .go) (empty : s.me.fifo 3 = [])
    (live : s.me.configure (acfgConf o) (BitVec.ofNat 9 (o.imm.toNat / 4)) = none) :
    execAcfg h o s = .next (s.trapCopy acfgIssue h (.bare .accConfig)) :=
  issueWord_trapped h s slot0 _ _ _ g (by simp only [empty, live, List.isEmpty_nil, Bool.not_true, if_false, Bool.false_eq_true])

/-- The formats that ALOAD takes in the present configuration. -/
def State.aloadTypes (s : State) (o : EngOps) : Prop := if s.me.conf = .fp then o.ta = 12 ∨ o.ta = 11 else o.ta = 6 ∨ o.ta = 12

omit slot0 in
theorem aloadTypes_iff : s.aloadTypes o ↔ (if s.me.conf = .fp then o.ta == 12 || o.ta == 11 else o.ta == 6 || o.ta == 12) = true := by
  unfold State.aloadTypes
  split <;> simp

section
variable (seq : s.cur.seq = .x) (m1 : h.msrc ≠ 1) (m2 : h.msrc ≠ 2)
include seq m1 m2

theorem execAload_badType (bad : ¬ s.aloadTypes o) : execAload h o s = .next (s.takeTrap (.bare .illegal)) := by
  rw [aloadTypes_iff, Bool.not_eq_true] at bad
  rw [execAload]
  exact issueWord_absent _ h _ s _ slot0 rfl seq m1 m2 (by simp only [bad, Bool.not_false, if_true])

theorem execAload_noTile (good : s.aloadTypes o) (missing : noTile o s = true) :
    execAload h o s = .next (s.takeTrap (.bare .accConfig)) := by
  rw [aloadTypes_iff] at good
  rw [execAload]
  exact issueWord_absent _ h _ s _ slot0 rfl seq m1 m2 (by simp only [good, missing, Bool.not_true, if_false, Bool.false_eq_true, if_true])

theorem execMvec_absent (missing : s.me.conf ≠ .fp ∨ noTile o s = true) : execMvec h o s = .next (s.takeTrap (.bare .accConfig)) := by
  have bad : (s.me.conf != .fp || noTile o s) = true := by simpa using missing
  exact issueWord_absent _ h _ s _ slot0 rfl seq m1 m2 (by simp only [bad, if_true])

end

theorem execAload_entered (good : s.aloadTypes o) (present : noTile o s = false)
    (g : gate { Issue.scalar [o.ga] [] with who := [.x], engine := some 3, cmd := some (.aload h o), noSpec := true } h s = .go)
    (r : room s 3 (s.command (.aload h o) h [s.g o.ga] (if h.m = 1 then some s.cycle else none))
      [srcSpan (s.g o.ga).toNat (s.me.tileSize * imageBytes o.ta)]) :
    execAload h o s = entered { Issue.scalar [o.ga] [] with who := [.x], engine := some 3, cmd := some (.aload h o), noSpec := true } h s 3
      (s.command (.aload h o) h [s.g o.ga] (if h.m = 1 then some s.cycle else none))
      [srcSpan (s.g o.ga).toNat (s.me.tileSize * imageBytes o.ta)] := by
  rw [aloadTypes_iff] at good
  simp only [execAload, good, present, Bool.not_true, if_false, Bool.false_eq_true]
  exact issueWord_went _ h _ s _ _ g slot0 (State.enterWith_done s 3 _ 16 _ r)

theorem execMvec_entered (conf : s.me.conf = .fp) (present : noTile o s = false)
    (g : gate { Issue.scalar [] [] with who := [.x], engine := some 3, cmd := some (.mvec h o) } h s = .go)
    (filled : s.me.vecAwaited .x s.cycle (rename h.rot s.me.rrb o.va.toNat) = false)
    (taken : s.me.vecUnread .x (rename h.rot s.me.rrb o.va.toNat) = false)
    (r : room s 3 (s.command (.mvec h o) h [] (if h.m = 1 then some s.cycle else none)) []) :
    execMvec h o s = entered { Issue.scalar [] [] with who := [.x], engine := some 3, cmd := some (.mvec h o) } h s 3
      (s.command (.mvec h o) h [] (if h.m = 1 then some s.cycle else none)) [] := by
  simp only [execMvec, conf, present, bne_self_eq_false, Bool.or_self, if_false, Bool.false_eq_true]
  refine issueWord_went _ h _ s _ _ g slot0 ?_
  simp only [filled, taken, Bool.false_eq_true, or_self, and_false, if_false]
  exact State.enterWith_done s 3 _ 16 _ r

end

theorem exec_mma_eq (h : Header) (o : EngOps) (s : State) : exec (.mma h o) s = matrixWord (.mma h o) h o false
    (fun s => !suits s.me.conf (engTypes o) || decide (tilesOf s.me.conf ≤ o.tile.toNat + s.cur.slot))
    (fun s => [srcSpan (s.g o.ga).toNat (operandBytes (engTypes o).ta (engTypes o).ks 64 (engTypes o).bka),
      srcSpan (s.g o.gb).toNat (operandBytes (engTypes o).tb (engTypes o).ks 64 (engTypes o).bkb)]) s := rfl

theorem exec_mxt_eq (h : Header) (o : EngOps) (s : State) : exec (.mxt h o) s = matrixWord (.mxt h o) h o false (fun _ => false)
    (fun s => [srcSpan (s.g o.gb).toNat (4096 * imageBytes o.ta), dstSpan (s.g o.ga).toNat (4096 * imageBytes o.ta)]) s := rfl

/-- Settles O30: the words that share `matrixWord` enter or trap in decoding, then ACFG's, ALOAD's and MVEC's own outcomes. -/
theorem matrixWords : Obligations.MatrixWords := by
  unfold Obligations.MatrixWords
  intro h o s slot0 p cmd fits enters ty src dst tile uncounted acfg types pa pv reg mvec aload
  have enter (i : Instr) (ns : Bool) (absent : State → Bool) (spans : State → List Span) (a : Bool) (l : List Span)
      (hi : exec i s = matrixWord i h o ns absent spans s) (ha : absent s = a) (hl : spans s = l) : enters i ns a l :=
    matrixWord_outcomes h o s slot0 i ns absent spans a l hi ha hl
  refine ⟨enter _ _ _ _ _ _ (exec_mma_eq h o s) ?mma rfl, enter _ _ _ _ _ _ (exec_mmac h o s) rfl rfl,
    enter _ _ _ _ _ _ (exec_cmerge h o s) rfl rfl, enter _ _ _ _ _ _ (exec_cspill h o s) rfl rfl,
    enter _ _ _ _ _ _ (exec_cdrain h o s) rfl rfl, enter _ _ _ _ _ _ (exec_azero h o s) rfl rfl,
    enter _ _ _ _ _ _ (exec_adrain h o s) rfl rfl, enter _ _ _ _ _ _ (exec_adrainp h o s) rfl rfl,
    enter _ _ _ _ _ _ (exec_aarm h o s) rfl rfl, enter _ _ _ _ _ _ (exec_fmtset h o s) rfl rfl,
    enter _ _ _ _ _ _ (exec_fmtld h o s) rfl rfl, enter _ _ _ _ _ _ (exec_mxt_eq h o s) rfl rfl,
    fun g empty => ⟨fun k => execAcfg_configured h o s slot0 k g empty, execAcfg_live h o s slot0 g empty⟩,
    fun ⟨seq, m1, m2⟩ bad => execAload_badType h o s slot0 seq m1 m2 bad,
    fun ⟨seq, m1, m2⟩ good missing => execAload_noTile h o s slot0 seq m1 m2 good missing,
    fun good present g r => execAload_entered h o s slot0 good present g r,
    fun ⟨seq, m1, m2⟩ missing => execMvec_absent h o s slot0 seq m1 m2 missing,
    fun conf present g filled taken r => execMvec_entered h o s slot0 conf present g filled taken r⟩
  case mma => simp only [slot0, Nat.add_zero, ty, tile]

end Sys2Proof.Machine

/-! SUPPORT. Words of the transfer, port and collective FIFOs and record headers: entering their FIFOs (R183 to R229). -/

namespace Sys2Proof.Machine
open Sys2Proof Sys2Proof.Safety

/-! ### Words -/

section
variable (h : Header) (o : EngOps) (s : State) (slot0 : s.cur.slot = 0)
include slot0

/-- A word whose meaning is `engineWord` enters its FIFO. -/
theorem exec_engineWord_entered {i : Instr} {port : Nat} {who : List SeqId} {ns ds : Bool} {cmd : State → Command}
    {spans : State → Command → List Span} (hi : exec i s = engineWord i port who ns ds h o cmd spans s)
    (g : gate (engineIssue i port who ns o) h s = .go) (r : room s port (cmd s) (spans s (cmd s))) :
    exec i s = entered (engineIssue i port who ns o) h s port (cmd s) (spans s (cmd s)) :=
  hi.trans (engineWord_entered i port who ns ds h o cmd spans s _ _ slot0 rfl rfl g r)

/-- The command of an indexed transfer, with the offsets that its register holds. -/
def State.indexedCommand (s : State) (i : Instr) (h : Header) (o : EngOps) : Command :=
  { s.engCommand i h o with copy := natBytes 512 (s.v o.vb.toNat).toNat }

theorem transferWord_indexed (i : Instr) (fn : Nat) (indexed : fn = 1 ∨ fn = 2) (filled : s.me.vecAwaited s.cur.seq s.cycle o.vb.toNat = false) :
    transferWord i fn h o s = engineWord i 0 csl false true h o (fun s => s.indexedCommand i h o) (fun _ c => wordSpans fn o c) s := by
  simp only [transferWord, indexed, slot0, filled, Bool.false_eq_true, and_false, if_false, if_true, State.indexedCommand]

omit slot0 in
theorem transferWord_plain (i : Instr) (fn : Nat) (plain : ¬(fn = 1 ∨ fn = 2)) (s : State) :
    transferWord i fn h o s = engineWord i 0 csl false true h o (fun s => s.engCommand i h o) (fun _ c => wordSpans fn o c) s := by
  simp only [transferWord, plain, false_and, if_false]
  rfl

omit slot0 in
theorem portWord_eq (i : Instr) (who : List SeqId) (s : State) : portWord i who h o s =
    engineWord i 1 who true false h o (fun s => s.engCommand i h o) (fun _ _ => []) s := rfl

omit slot0 in
theorem chartWord_eq (i : Instr) (ns : Bool) (spans : Command → List Span) (s : State) : chartWord i ns h o spans s =
    engineWord i 0 csl ns false h o (fun s => s.engCommand i h o) (fun _ c => spans c) s := rfl

theorem execPublish_entered (free : s.rangeWait .spad (s.g o.ga).toNat 64 true = false) (filled : s.ownStoresFilled = true)
    (g : gate (engineIssue (.publish h o) 1 cs false o) h s = .go)
    (r : room s 1 (s.publishCommand (.publish h o) h o) (publication (s.publishCommand (.publish h o) h o).copy).spans) :
    execPublish h o s = entered (engineIssue (.publish h o) 1 cs false o) h s 1 (s.publishCommand (.publish h o) h o)
      (publication (s.publishCommand (.publish h o) h o).copy).spans :=
  issueWord_went _ h _ s _ _ g slot0 (by
    simp only [slot0, free, filled, ne_eq, not_true_eq_false, if_false, Bool.not_true, Bool.false_eq_true]
    exact State.enterWith_done s 1 _ 16 _ r)

end

/-- Settles O31: each word is an `engineWord`, whose command and ranges are those of the present state. -/
theorem engineWords : Obligations.EngineWords := by
  unfold Obligations.EngineWords
  constructor
  · intro h o s slot0 p cmd enters indexed spansOf published
    have word {i : Instr} {port : Nat} {who : List SeqId} {ns ds : Bool} {cmd : State → Command} {spans : State → Command → List Span}
        (hi : exec i s = engineWord i port who ns ds h o cmd spans s) : enters i port who ns (cmd s) (spans s (cmd s)) :=
      exec_engineWord_entered h o s slot0 hi
    have port {i : Instr} {who : List SeqId} (hi : exec i s = portWord i who h o s) : enters i 1 who true (s.engCommand i h o) [] :=
      word (hi.trans (portWord_eq h o i who s))
    refine ⟨word ((exec_xcopy h o s).trans (transferWord_plain h o _ 0 (by decide) s)), fun filled => ⟨?xgath, ?xscat⟩,
      word ((exec_xfill h o s).trans (transferWord_plain h o _ 3 (by decide) s)), fun free filled g r => ?publish,
      port (exec_ntake h o s), port (exec_ndecl h o s), port (exec_nwait h o s), port (exec_helmset h o s), port (exec_pwin h o s),
      word (exec_coll h o s), word (exec_accw h o s), word (exec_sortk h o s), word (exec_echoose h o s), word (exec_rcsnap h o s),
      word (exec_lattn h o s)⟩
    case xgath => exact word ((exec_xgath h o s).trans (transferWord_indexed h o s slot0 _ 1 (.inl rfl) filled))
    case xscat => exact word ((exec_xscat h o s).trans (transferWord_indexed h o s slot0 _ 2 (.inr rfl) filled))
    case publish => exact (exec_publish h o s).trans (execPublish_entered h o s slot0 free filled g r)
  · intro h o s slot0 p enters none_
    have chart {i : Instr} {ns : Bool} {spans : Command → List Span} (hi : exec i s = chartWord i ns h o spans s) : enters i ns spans := by
      have outcome := exec_engineWord_entered h o s slot0 (hi.trans (chartWord_eq h o i ns spans s))
      exact outcome
    exact ⟨chart (exec_chnew h o s), chart (exec_chfork h o s), chart (exec_chflat h o s), chart (exec_chappend h o s),
      chart (exec_chlook h o s), chart (exec_chtrunc h o s), chart (exec_chseal h o s), chart (exec_chfree h o s), chart (exec_chgive h o s),
      chart (exec_bmset h o s), chart (exec_bmperm h o s), chart (exec_bmlook h o s)⟩

/-! ### Record headers -/

section
variable (h : Header) (r : RecOps) (s : State) (slot0 : s.cur.slot = 0)
include slot0

/-- A header whose meaning is `engineRecord` enters its FIFO. -/
theorem exec_engineRecord_entered {i : Instr} {port : Nat} {who : List SeqId} {spans : State → Command → List Span}
    (hi : exec i s = engineRecord i port who h r spans s) (g : gate (recordIssue i port who false r) h s = .go)
    (room : room s port (s.headerCommand i h r) (spans s (s.headerCommand i h r))) :
    exec i s = entered (recordIssue i port who false r) h s port (s.headerCommand i h r) (spans s (s.headerCommand i h r)) :=
  hi.trans (engineRecord_entered i port who h r spans s _ slot0 rfl g room)

/-- The issue description of a matrix record's header. -/
def matrixRecordIssue (i : Instr) (r : RecOps) (absent : Option Cause) : Issue :=
  { Issue.scalar [r.da.base, r.db.base] [] with
    who := [.x], size := 64, stamp := some r.stamp.toNat, engine := some 3, cmd := some i, once := true, absent := absent.map (fun c => .bare c) }

theorem matrixRecord_entered (i : Instr) (rows : Nat) (bad : State → Option Cause) (suited : bad s = none)
    (g : gate (matrixRecordIssue i r none) h s = .go)
    (room : room s 3 (s.recordCommand i h r)
      (s.me.matrixSpans r (recTypes r) rows (s.recordCommand i h r).w (s.recordCommand i h r).vals)) :
    matrixRecord i h r rows bad s = entered (matrixRecordIssue i r none) h s 3 (s.recordCommand i h r)
      (s.me.matrixSpans r (recTypes r) rows (s.recordCommand i h r).w (s.recordCommand i h r).vals) := by
  rw [matrixRecord, suited]
  exact issueWord_went _ h _ s _ _ g slot0 (State.enterWith_done s 3 _ 64 _ room)

theorem matrixRecord_barred (i : Instr) (rows : Nat) (bad : State → Option Cause) (x : Cause) (unsuited : bad s = some x)
    (seq : s.cur.seq = .x) (m1 : h.msrc ≠ 1) (m2 : h.msrc ≠ 2) : matrixRecord i h r rows bad s = .next (s.takeTrap (.bare x)) := by
  rw [matrixRecord, unsuited]
  exact issueWord_absent _ h _ s _ slot0 rfl seq m1 m2 rfl

section
variable (i : Instr) (who : List SeqId) (g : gate (recordIssue i (vectorPort s.cur.seq) who true r) h s = .go)
  (compared : h.msrc = 2 → s.me.cmAwaited s.cycle = false) (room : s.me.fifoRoom (vectorPort s.cur.seq) = true)
  (first : s.me.older s.cur.seq (vectorPort s.cur.seq) s.cycle = false)
  (begins : s.me.beginsAtOnce (vectorPort s.cur.seq) (s.recordCommand i h r) = true)
include g compared room first begins

omit slot0 g room first begins in
theorem cm_closed_of : ¬(h.msrc = 2 ∧ s.me.cmAwaited s.cycle = true) := by
  rintro ⟨reads, awaited⟩
  exact Bool.false_ne_true ((compared reads).symm.trans awaited)

theorem vectorRecordWord_entered : vectorRecordWord i h r who s = went (recordIssue i (vectorPort s.cur.seq) who true r) h
    { s.mapMe (fun k => k.accept (vectorPort s.cur.seq) (s.recordCommand i h r)) with nextId := s.nextId + 1 } (s.pc + 64) := by
  rw [vectorRecordWord, if_neg (cm_closed_of h s compared), plainRecord, recordWord]
  exact issueWord_went _ h _ s _ _ g slot0 (State.enter_done s _ _ 64 room first begins)

end

theorem execVectorMemoryRecord_entered (fn : BitVec 8)
    (g : gate (recordIssue (.vectorMemoryRecord fn h r) (vectorPort s.cur.seq) (if fn.toNat % 2 = 1 then [.s] else [.l]) true r) h s = .go)
    (compared : h.msrc = 2 → s.me.cmAwaited s.cycle = false) (room : s.me.fifoRoom (vectorPort s.cur.seq) = true)
    (first : s.me.older s.cur.seq (vectorPort s.cur.seq) s.cycle = false)
    (begins : s.me.beginsAtOnce (vectorPort s.cur.seq) (s.recordCommand (.vectorMemoryRecord fn h r) h r) = true) :
    execVectorMemoryRecord fn h r s =
      went (recordIssue (.vectorMemoryRecord fn h r) (vectorPort s.cur.seq) (if fn.toNat % 2 = 1 then [.s] else [.l]) true r) h
        { s.mapMe (fun k => k.accept (vectorPort s.cur.seq) (s.recordCommand (.vectorMemoryRecord fn h r) h r)) with
          nextId := s.nextId + 1 + recTotal r (s.recordCommand (.vectorMemoryRecord fn h r) h r).w } (s.pc + 64) := by
  rw [execVectorMemoryRecord]
  refine issueWord_went _ h _ s _ _ g slot0 ?_
  dsimp only
  rw [if_neg (cm_closed_of h s compared), State.enter_done s _ _ 64 room first begins]
  rfl

end

/-- What keeps the configuration from suiting the header of an MMA record (R164). -/
def mmaRecordBad (r : RecOps) (s : State) : Option Cause :=
  if tilesOf s.me.conf < r.opx.toNat % 16 + s.me.slotCount then some .accConfig
  else if r.fts = 0 ∧ (!suits s.me.conf (recTypes r)) = true then some .accConfig else none

/-- What keeps the configuration, or the round, from suiting the header of an MMAC record (R165). -/
def mmacRecordBad (r : RecOps) (s : State) : Option Cause :=
  if s.me.round.st = .running ∧ r.slot ≠ 0 then some .illegal
  else if (notCount s || decide (tilesOf s.me.conf < s.me.slotCount)) = true then some .accConfig else none

theorem mmaRecordBad_eq (r : RecOps) (s : State) : mmaRecordBad r s =
    if r.opx.toNat % 16 + s.me.slotCount ≤ tilesOf s.me.conf ∧ (r.fts = 1 ∨ suits s.me.conf (recTypes r) = true) then none
    else some .accConfig := by
  have bit : r.fts = 0 ∨ r.fts = 1 := by
    generalize r.fts = x
    revert x
    decide
  unfold mmaRecordBad
  by_cases tiles : r.opx.toNat % 16 + s.me.slotCount ≤ tilesOf s.me.conf
  · rcases bit with e | e <;> cases suited : suits s.me.conf (recTypes r) <;> simp [not_lt.mpr tiles, tiles, e]
  · simp [tiles, not_le.mp tiles]

theorem mmacRecordBad_slotted {r : RecOps} {s : State} (slotted : s.me.round.st = .running ∧ r.slot ≠ 0) :
    mmacRecordBad r s = some .illegal := if_pos slotted

theorem mmacRecordBad_eq {r : RecOps} {s : State} (plain : ¬(s.me.round.st = .running ∧ r.slot ≠ 0)) : mmacRecordBad r s =
    if s.me.conf = .count ∧ s.me.slotCount ≤ tilesOf s.me.conf then none else some .accConfig := by
  rw [mmacRecordBad, if_neg plain]
  by_cases conf : s.me.conf = .count
  · by_cases tiles : s.me.slotCount ≤ tilesOf s.me.conf
    · simp [notCount, conf, conf ▸ tiles, conf ▸ not_lt.mpr tiles]
    · simp [notCount, conf, conf ▸ tiles, conf ▸ not_le.mp tiles]
  · simp [notCount, conf]

/-- Settles O32: each header is an `engineRecord`, a `matrixRecord` or a vector record. -/
theorem recordHeaders : Obligations.RecordHeaders := by
  unfold Obligations.RecordHeaders
  constructor
  · intro h r s slot0 p cmd enters
    have record {i : Instr} {port : Nat} {who : List SeqId} {spans : State → Command → List Span}
        (hi : exec i s = engineRecord i port who h r spans s) : enters i port who (spans s) :=
      exec_engineRecord_entered h r s slot0 hi
    exact ⟨record (exec_xcopyRecord h r s), record (exec_xgathRecord h r s), record (exec_xscatRecord h r s),
      record (exec_xfillRecord h r s), record (exec_publishRecord h r s), record (exec_collRecord h r s), record (exec_sortkRecord h r s),
      record (exec_lattnRecord h r s)⟩
  · intro fn h r s slot0 pm matrix traps port pv vector tiles typed slotted
    have mma : exec (.mmaRecord h r) s = matrixRecord (.mmaRecord h r) h r 64 (mmaRecordBad r) s := rfl
    have mmac : exec (.mmacRecord h r) s = matrixRecord (.mmacRecord h r) h r 32 (mmacRecordBad r) s := rfl
    have vec {i : Instr} (hi : exec i s = vectorRecordWord i h r [.x] s) : vector i [.x] 0 := fun g compared room first begins =>
      hi.trans (vectorRecordWord_entered h r s slot0 i [.x] g compared room first begins)
    refine ⟨fun ok sorted g room => mma.trans ?mmaEnters, fun bad seq m1 m2 => mma.trans ?mmaTraps,
      fun plain conf fits g room => mmac.trans ?mmacEnters, fun on seq m1 m2 => mmac.trans ?mmacSlotted,
      fun plain bad seq m1 m2 => mmac.trans ?mmacTraps, vec (exec_vectorArithRecord fn h r s), vec (exec_vectorLogicRecord fn h r s),
      vec (exec_vectorConvertRecord fn h r s), vec (exec_vectorDotRecord fn h r s), fun g compared room first begins => ?memory,
      vec (exec_vectorSpecialRecord fn h r s), vec (exec_vmerge3Record h r s)⟩
    case mmaEnters => exact matrixRecord_entered h r s slot0 _ 64 _ ((mmaRecordBad_eq r s).trans (if_pos ⟨ok, sorted⟩)) g room
    case mmaTraps => exact matrixRecord_barred h r s slot0 _ 64 _ _ ((mmaRecordBad_eq r s).trans (if_neg bad)) seq m1 m2
    case mmacEnters => exact matrixRecord_entered h r s slot0 _ 32 _ ((mmacRecordBad_eq plain).trans (if_pos ⟨conf, fits⟩)) g room
    case mmacSlotted => exact matrixRecord_barred h r s slot0 _ 32 _ _ (mmacRecordBad_slotted on) seq m1 m2
    case mmacTraps =>
      have unfit : ¬(s.me.conf = .count ∧ s.me.slotCount ≤ tilesOf s.me.conf) := fun ⟨conf, fits⟩ => bad.elim (· conf) (by omega)
      exact matrixRecord_barred h r s slot0 _ 32 _ _ ((mmacRecordBad_eq plain).trans (if_neg unfit)) seq m1 m2
    case memory => exact execVectorMemoryRecord_entered h r s slot0 fn g compared room first begins

end Sys2Proof.Machine

/-! SUPPORT. Results, ready flags and blocks: XPOP, XSTAT, RDYWAIT, RECLAIM and REXTEND (R184, R185, R194, R195, R202). -/

namespace Sys2Proof.Machine
open Sys2Proof Sys2Proof.Safety

/-! ### Results and ready flags -/

/-- A word of slot 0 whose effect is done, noSpec or not, writes its destination. -/
theorem issueWord_wrote_slot0 (p : Issue) (h : Header) (body : State → Eff) (s t : State) (d : BitVec 6) (v : Word) (slot0 : s.cur.slot = 0)
    (g : gate p h s = .go) (hpc : t.pc = s.pc) (hb : body s = .done (t.setG d v) s.pc16) : issueWord p h body s = wrote p h t d v := by
  rw [wrote, hpc]
  exact issueWord_went p h body s _ _ g slot0 hb

/-- The program counter is as before where the sequencers' are. -/
theorem State.mapCore_pc (s : State) (core : Nat) (f : Core → Core) (same : ∀ q, ((f (s.core core)).seq q).pc = ((s.core core).seq q).pc) :
    (s.mapCore core f).pc = s.pc := by
  show (((s.mapCore core f).core s.cur.core).seq s.cur.seq).pc = ((s.core s.cur.core).seq s.cur.seq).pc
  by_cases here : s.cur.core = core
  · rw [here, State.core_mapCore_same, same]
  · rw [State.core_mapCore_other _ _ _ _ here]

/-- Taking up what other writers' stores have left changes no program counter. -/
theorem State.acquireCaches_pc (s : State) (core : Nat) (scope : Scope) : (s.acquireCaches core scope).pc = s.pc := by
  unfold State.acquireCaches
  split
  · rfl
  · exact State.mapCore_pc _ _ _ (fun _ => rfl)

theorem State.popResult_pc (s : State) (port : Nat) (rest : List Word) :
    (s.mapMe (fun k => (k.popResult s.cur.seq port).setResults port rest)).pc = s.pc := by
  refine State.mapCore_pc s s.cur.core (fun k => (k.popResult s.cur.seq port).setResults port rest) (fun q => ?_)
  show ((Core.popResult _ _ _).seq q).pc = _
  unfold Core.popResult
  split
  · rfl
  · exact Core.mapSeq_keeps Sequencer.pc _ _ q _ rfl

/-- Settles O33: each word's effect is done once what it waits for is there. -/
theorem resultWords : Obligations.ResultWords := by
  unfold Obligations.ResultWords
  intro h o s slot0 q p pr
  refine ⟨fun x rest g results first => ?pop, fun g => ?stat, fun g flag => ?ready⟩
  case pop =>
    refine (exec_xpop h o s).trans (issueWord_wrote_slot0 _ h _ s _ o.ga x slot0 g ?_ ?_)
    · rw [State.acquireCaches_pc, State.popResult_pc]
    · simp only [q] at results first
      simp only [results, first, if_false, Bool.false_eq_true]
      rfl
  case stat => exact (exec_xstat h o s).trans (issueWord_wrote_slot0 _ h _ s s o.ga _ slot0 g rfl rfl)
  case ready =>
    exact (exec_rdywait h o s).trans (issueWord_went _ h _ s _ _ g slot0 (by simp only [flag, if_true, State.pc16]))

/-! ### Blocks -/

/-- C-seq of core 0, whose block 0x40 a consumer on device 1 has still to pull; g1 names the block. -/
def withConsumer : State :=
  { State.reset.mapCore 0 (fun k => (k.mapSeq .c (fun r => r.setG 1 0x40)).setBlock 0
      { Block.free with pinned := true, used := true, generation := 1, size := 512, count := 1, consumers := [(0, 1)] }) with
    cur := ⟨0, .c, 0⟩ }

/-- RECLAIM of g1 with RS. -/
def reclaimOps : EngOps :=
  { va := 0, vb := 0, vc := 0, ga := 0, gb := 1, gc := 0, ta := 0, tb := 0, tc := 0, sga := 0, sgb := 0, bka := 0, bkb := 0, tile := 0,
    sco := 0, imm := 2 ^ 15 }

/-- The numbers of the commands whose results stand in the port's result FIFO of a next state. -/
def Result.resultNumbers : Result → List Nat
  | .next t => Table.get [] t.me.resultOf 1
  | .fault _ | .refused _ => []

/-- The withdrawal that RECLAIM sends has taken the number that stood next: its result stands under the one after it. -/
theorem exec_reclaim_numbers : Result.resultNumbers (exec (.reclaim .plain reclaimOps) withConsumer) = [withConsumer.nextId + 1] := by
  decide +kernel

/-- Refutes O34: the result of a RECLAIM that withdraws a block from a consumer (`withConsumer`) is entered under the number that stands
next after the withdrawal has been sent, not under the one before. -/
theorem not_blockWords : ¬ Obligations.BlockWords := by
  unfold Obligations.BlockWords
  intro claim
  obtain ⟨-, -, reclaimed, -⟩ := claim .plain reclaimOps withConsumer rfl (by decide +kernel) (by decide +kernel) (by decide +kernel)
    (fun _ => by decide +kernel) (by decide +kernel) (by decide +kernel)
  have outcome := (reclaimed 0 (by decide +kernel) (by decide +kernel)).1 (by decide +kernel)
  have numbers := congrArg Result.resultNumbers outcome
  rw [exec_reclaim_numbers] at numbers
  exact absurd numbers (by decide +kernel)

end Sys2Proof.Machine

/-! SUPPORT. What a write of memory leaves: everything but the memories; and what a step over the structures leaves of the cores:
everything but the lines of their first-level caches (R211, R278). -/

namespace Sys2Proof.Machine
open Sys2Proof Sys2Proof.Safety

/-! ### Memory writes -/

/-- Nothing but the memories has changed. -/
def MemoryOnly (s t : State) : Prop := t = { s with hbm := t.hbm, l2 := t.l2, areas := t.areas, outside := t.outside }

theorem MemoryOnly.refl (s : State) : MemoryOnly s s := rfl

theorem MemoryOnly.trans {s t u : State} (a : MemoryOnly s t) (b : MemoryOnly t u) : MemoryOnly s u :=
  Eq.trans b (congrArg (fun x : State => { x with hbm := u.hbm, l2 := u.l2, areas := u.areas, outside := u.outside }) a)

theorem MemoryOnly.foldl {α : Type} (f : State → α → State) (hf : ∀ s a, MemoryOnly s (f s a)) :
    ∀ (l : List α) (s : State), MemoryOnly s (l.foldl f s)
  | [], s => .refl s
  | a :: l, s => (hf s a).trans (MemoryOnly.foldl f hf l (f s a))

theorem MemoryOnly.hbmWrite (s : State) (a : Nat) (b : Byte) : MemoryOnly s (s.hbmWrite a b) := by
  unfold State.hbmWrite
  split <;> rfl

theorem MemoryOnly.passByte (s : State) (a : Nat) : MemoryOnly s (s.passByte a) := by
  unfold State.passByte
  split
  · exact .hbmWrite ..
  · rfl

theorem MemoryOnly.makeRoom (s : State) (a : Nat) : MemoryOnly s (s.makeRoom a) := by
  unfold State.makeRoom
  split
  · rfl
  · dsimp only
    split
    · rfl
    · split
      · rfl
      · exact .foldl _ (fun _ _ => .passByte ..) _ _

theorem MemoryOnly.l2Write (s : State) (a : Nat) (b : Byte) : MemoryOnly s (s.l2Write a b) := (MemoryOnly.makeRoom ..).trans rfl

theorem MemoryOnly.physWrite (s : State) (system : Bool) (pa : Nat) (b : Byte) : MemoryOnly s (s.physWrite system pa b) := by
  unfold State.physWrite
  split
  · split
    · exact .hbmWrite ..
    · exact .l2Write ..
  all_goals rfl

theorem MemoryOnly.physWriteBytes (system : Bool) : ∀ (l : List Byte) (s : State) (pa : Nat), MemoryOnly s (s.physWriteBytes system pa l)
  | [], s, _ => .refl s
  | _ :: l, _, _ => (MemoryOnly.physWrite ..).trans (MemoryOnly.physWriteBytes system l _ _)

theorem MemoryOnly.writeBack (s : State) (l : L1Line) : MemoryOnly s (s.writeBack l) := by
  refine .foldl _ (fun t i => ?_) _ s
  split
  · exact .physWrite ..
  · rfl

theorem MemoryOnly.setRos (s : State) (ppn : Nat) (b : Bool) : MemoryOnly s (s.setRos ppn b) := by
  unfold State.setRos
  split
  · exact .l2Write ..
  · rfl

theorem MemoryOnly.withoutAppends (s : State) (core j : Nat) : MemoryOnly s (s.withoutAppends core j) :=
  .foldl _ (fun _ _ => .foldl _ (fun _ _ => .physWriteBytes ..) _ _) _ _

section
variable {s t : State} (h : MemoryOnly s t)
include h

theorem MemoryOnly.cores : t.cores = s.cores := by
  rw [MemoryOnly] at h
  rw [h]

theorem MemoryOnly.cur : t.cur = s.cur := by
  rw [MemoryOnly] at h
  rw [h]

theorem MemoryOnly.queues : t.queues = s.queues := by
  rw [MemoryOnly] at h
  rw [h]

theorem MemoryOnly.shards : t.shards = s.shards := by
  rw [MemoryOnly] at h
  rw [h]

theorem MemoryOnly.faults : t.faults = s.faults := by
  rw [MemoryOnly] at h
  rw [h]

theorem MemoryOnly.trust : t.trust = s.trust := by
  rw [MemoryOnly] at h
  rw [h]

end

/-! ### Cores without their lines -/

/-- A core but for the lines of its first-level cache. -/
def Core.withoutLines (k : Core) : Core := { k with l1 := [] }

/-- Every core is as before but for its lines. -/
def SameBesideLines (s t : State) : Prop := ∀ c, (t.core c).withoutLines = (s.core c).withoutLines

theorem SameBesideLines.refl (s : State) : SameBesideLines s s := fun _ => rfl

theorem SameBesideLines.trans {s t u : State} (a : SameBesideLines s t) (b : SameBesideLines t u) : SameBesideLines s u :=
  fun c => (b c).trans (a c)

theorem SameBesideLines.of_cores {s t : State} (h : t.cores = s.cores) : SameBesideLines s t := fun c => by rw [State.core, State.core, h]

theorem SameBesideLines.mapCore (s : State) (core : Nat) (f : Core → Core) (hf : ∀ k, (f k).withoutLines = k.withoutLines) :
    SameBesideLines s (s.mapCore core f) := fun c => by
  by_cases here : c = core
  · rw [here, State.core_mapCore_same, hf]
  · rw [State.core_mapCore_other _ _ _ _ here]

theorem SameBesideLines.foldl {α : Type} (f : State → α → State) (hf : ∀ s a, SameBesideLines s (f s a)) :
    ∀ (l : List α) (s : State), SameBesideLines s (l.foldl f s)
  | [], s => .refl s
  | a :: l, s => (hf s a).trans (SameBesideLines.foldl f hf l (f s a))

theorem SameBesideLines.dropClean (s : State) (core : Nat) (pas : List Nat) : SameBesideLines s (s.dropClean core pas) := by
  refine SameBesideLines.foldl _ (fun t pa => ?_) pas s
  split
  · split
    · exact .mapCore _ _ _ (fun _ => rfl)
    · exact .refl _
  · exact .refl _

theorem SameBesideLines.structureWrite (s : State) (bytes : List (Nat × Byte)) : SameBesideLines s (s.structureWrite bytes) :=
  (SameBesideLines.of_cores (MemoryOnly.foldl _ (fun _ _ => .physWrite ..) bytes s).cores).trans
    (SameBesideLines.dropClean _ s.cur.core _)

section
variable {s t : State} (h : SameBesideLines s t)
include h

theorem SameBesideLines.round (c : Nat) : (t.core c).round = (s.core c).round := by
  show (t.core c).withoutLines.round = (s.core c).withoutLines.round
  rw [h c]

theorem SameBesideLines.seq (c : Nat) (q : SeqId) : (t.core c).seq q = (s.core c).seq q := by
  show (t.core c).withoutLines.seq q = (s.core c).withoutLines.seq q
  rw [h c]

end

/-! ### Steps over the structures -/

/-- A relation that every write over the structures keeps. -/
structure Frame (R : State → State → Prop) : Prop where
  refl : ∀ s, R s s
  trans : ∀ {s t u}, R s t → R t u → R s u
  write : ∀ s bytes, R s (s.structureWrite bytes)
  setRos : ∀ s ppn b, R s (s.setRos ppn b)

theorem SameBesideLines.frame : Frame SameBesideLines :=
  ⟨.refl, .trans, .structureWrite, fun _ _ _ => .of_cores (MemoryOnly.setRos ..).cores⟩

/-- A step over the structures keeps a relation. -/
def Tx.Within (R : State → State → Prop) {α : Type} (x : Tx α) : Prop := ∀ s v t, x.run s = .ok (v, t) → R s t

section
variable {R : State → State → Prop} (F : Frame R)
include F

theorem Tx.within_pure {α : Type} (v : α) : Tx.Within R (pure v : Tx α) := by
  intro s w t h
  cases h
  exact F.refl s

theorem Tx.within_bind {α β : Type} {x : Tx α} {f : α → Tx β} (hx : x.Within R) (hf : ∀ a, (f a).Within R) : Tx.Within R (x >>= f) := by
  intro s v t h
  cases hs : x.run s with
  | error i =>
    rw [StateT.run_bind, hs] at h
    cases h
  | ok r =>
    rw [StateT.run_bind, hs] at h
    exact F.trans (hx s r.1 r.2 hs) (hf r.1 r.2 v t h)

omit F in
theorem Tx.within_fault {α : Type} (i : FaultInfo) : Tx.Within R (txFault i : Tx α) := by
  intro s v t h
  cases h

theorem Tx.within_read {α : Type} (f : State → α) : Tx.Within R (txRead f) := by
  intro s v t h
  cases h
  exact F.refl s

omit F in
theorem Tx.within_modify {f : State → State} (hf : ∀ s, R s (f s)) : Tx.Within R (txModify f) := by
  intro s v t h
  cases h
  exact hf s

theorem Tx.within_check (f : State → Option FaultInfo) : Tx.Within R (txCheck f) := by
  intro s v t h
  change (match f s with | some i => Except.error i | none => .ok ((), s)) = .ok (v, t) at h
  split at h
  · cases h
  · cases h
    exact F.refl s

theorem Tx.within_forM {α : Type} {f : α → Tx PUnit} (hf : ∀ a, (f a).Within R) : ∀ l : List α, Tx.Within R (l.forM f)
  | [] => Tx.within_pure F _
  | a :: l => Tx.within_bind F (hf a) fun _ => Tx.within_forM hf l

theorem within_rdv (a n : Nat) : (rdv a n).Within R := Tx.within_bind F (Tx.within_check F _) fun _ => Tx.within_read F _

theorem within_wrv (a n x : Nat) : (wrv a n x).Within R :=
  Tx.within_bind F (Tx.within_check F _) fun _ => Tx.within_modify fun s => F.write s _

omit F in
theorem within_misaligned {α : Type} (a : Nat) : (misaligned a : Tx α).Within R := Tx.within_fault _

omit F in
theorem within_malformed {α : Type} (a : Nat) : (malformed a : Tx α).Within R := Tx.within_fault _

theorem within_rdEntry (a : Nat) : (rdEntry a).Within R := by
  grind [rdEntry, Tx.within_bind, Tx.within_pure, within_rdv, within_misaligned, within_malformed]

theorem within_rdPool (a : Nat) : (rdPool a).Within R := by
  grind [rdPool, Tx.within_bind, Tx.within_pure, within_rdv, within_misaligned, within_malformed]

theorem within_refAddr (p : Pool) (q : Nat) : (refAddr p q).Within R := by grind [refAddr, Tx.within_pure, within_malformed]

theorem within_pushPage (p : Pool) (q : Nat) : (pushPage p q).Within R := by
  grind [pushPage, Tx.within_bind, within_rdv, within_wrv, within_malformed]

theorem within_dropRef (p : Pool) (q : Nat) : (dropRef p q).Within R := by
  unfold dropRef
  refine Tx.within_bind F (within_refAddr F _ _) fun a => Tx.within_bind F (within_rdv F _ _) fun n =>
    Tx.within_bind F (within_wrv F _ _ _) fun _ => ?_
  split
  · exact Tx.within_bind F (Tx.within_modify fun s => F.setRos s _ _) fun _ => within_pushPage F _ _
  · exact Tx.within_pure F _

theorem within_pushBack (l : List (Nat × Nat)) : (pushBack l).Within R :=
  Tx.within_forM F (fun _ => Tx.within_bind F (within_rdPool F _) fun _ => within_dropRef F _ _) _

theorem Frame.foldl {α : Type} (f : State → α → State) (hf : ∀ s a, R s (f s a)) : ∀ (l : List α) (s : State), R s (l.foldl f s)
  | [], s => F.refl s
  | a :: l, s => F.trans (hf s a) (Frame.foldl f hf l (f s a))

end

/-! ### Removed appends -/

/-- A core whose round has no appends left. -/
def Core.clearAppends (k : Core) : Core := { k with round := { k.round with appends := [] } }

/-- Where removed appends are settled, writes over the structures follow on the memory's, and the appends of the core's round are gone. -/
theorem State.removeAppends_eq (s : State) (core j : Nat) :
    ∃ u : State, (∀ R, Frame R → R { s.withoutAppends core j with cur := ⟨core, s.cur.seq, 0⟩ } u) ∧
      s.removeAppends core j true = { u.mapCore core Core.clearAppends with cur := s.cur, noted := s.noted } := by
  unfold State.removeAppends
  extract_lets mine gone u t pushed spec settled
  refine ⟨settled, fun R F => ?_, rfl⟩
  have back : R t pushed := by
    dsimp only [pushed]
    split
    next v x e => exact within_pushBack F _ t v x e
    next => exact F.refl t
  exact F.trans back (F.foldl spec (fun u chart => by
    dsimp only [spec]
    split
    next v x e => exact Tx.within_bind F (within_rdEntry F chart) (fun e => within_wrv F _ _ _) u v x e
    next => exact F.refl u) _ pushed)

/-- Every part of a core but the appends of its own round is as before, but for lines. -/
theorem State.removeAppends_core (s : State) (core j : Nat) :
    ∃ t : State, SameBesideLines s t ∧ ∀ c, (s.removeAppends core j true).core c = (t.mapCore core Core.clearAppends).core c := by
  obtain ⟨u, kept, removed⟩ := s.removeAppends_eq core j
  refine ⟨u, .trans (.of_cores (MemoryOnly.withoutAppends s core j).cores) (kept _ SameBesideLines.frame), fun c => ?_⟩
  rw [removed]
  rfl

section
variable (s : State) (core j : Nat)

theorem State.removeAppends_round (c : Nat) : ∃ l, ((s.removeAppends core j true).core c).round = { (s.core c).round with appends := l } := by
  obtain ⟨t, same, cores⟩ := s.removeAppends_core core j
  rw [cores]
  by_cases here : c = core
  · refine ⟨[], ?_⟩
    rw [here, State.core_mapCore_same, Core.clearAppends, same.round]
  · refine ⟨(s.core c).round.appends, ?_⟩
    rw [State.core_mapCore_other _ _ _ _ here, same.round]

theorem State.removeAppends_seq (c : Nat) (q : SeqId) : ((s.removeAppends core j true).core c).seq q = (s.core c).seq q := by
  obtain ⟨t, same, cores⟩ := s.removeAppends_core core j
  rw [cores]
  by_cases here : c = core
  · rw [here, State.core_mapCore_same]
    exact same.seq core q
  · rw [State.core_mapCore_other _ _ _ _ here, same.seq]

end

end Sys2Proof.Machine

/-! SUPPORT. The Reckoner's rounds: RKBEGIN, the end of a run, ACMP, RKCOMMIT, RKEND and RKSTAT (R231 to R238). -/

namespace Sys2Proof.Machine
open Sys2Proof Sys2Proof.Safety

/-! ### What an accepted slot that hands nothing over leaves -/

/-- Slot j hands over no store, no result and no deferred command. -/
def Core.handsNothing (k : Core) (j : Nat) : Prop :=
  k.round.stores.all (fun x => x.slot != j) = true ∧ k.round.heldResults.all (fun x => x.1 != j) = true ∧ (k.slot j).deferred = []

/-- What applying accepted slots leaves of a core: its sequencers, and each slot's g-registers and fault; a slot that hands nothing over
still hands nothing over. -/
structure AppliesEmpty (x y : Core) : Prop where
  seq : ∀ q, y.seq q = x.seq q
  st : y.round.st = x.round.st
  g : ∀ j, (y.slot j).g = (x.slot j).g
  fault : ∀ j, (y.slot j).fault = (x.slot j).fault
  nothing : ∀ j, x.handsNothing j → y.handsNothing j

theorem AppliesEmpty.refl (x : Core) : AppliesEmpty x x := by constructor <;> intros <;> trivial

theorem AppliesEmpty.trans {x y z : Core} (a : AppliesEmpty x y) (b : AppliesEmpty y z) : AppliesEmpty x z where
  seq q := (b.seq q).trans (a.seq q)
  st := b.st.trans a.st
  g j := (b.g j).trans (a.g j)
  fault j := (b.fault j).trans (a.fault j)
  nothing j h := b.nothing j (a.nothing j h)

/-- An update of the core that leaves its sequencers and its round. -/
theorem AppliesEmpty.of_same_round {x y : Core} (seq : ∀ q, y.seq q = x.seq q) (round : y.round = x.round) : AppliesEmpty x y := by
  have slot (j : Nat) : y.slot j = x.slot j := by rw [Core.slot, Core.slot, round]
  constructor
  · exact seq
  · rw [round]
  · intro j; rw [slot]
  · intro j; rw [slot]
  · intro j h; rwa [Core.handsNothing, round, slot]

theorem Core.slot_setSlot_same (k : Core) (j : Nat) (t : Slot) : (k.setSlot j t).slot j = t := Table.get_set_same ..

theorem Core.slot_setSlot_other (k : Core) (j i : Nat) (t : Slot) (h : i ≠ j) : (k.setSlot j t).slot i = k.slot i :=
  Table.get_set_other _ _ _ _ _ h

theorem Core.setSlot_seq (k : Core) (j : Nat) (t : Slot) (q : SeqId) : (k.setSlot j t).seq q = k.seq q := by cases q <;> rfl

/-- An update of one slot that leaves its g-registers, its fault and its deferred commands, if it has none. -/
theorem AppliesEmpty.setSlot (k : Core) (j : Nat) (t : Slot) (g : t.g = (k.slot j).g) (fault : t.fault = (k.slot j).fault)
    (deferred : (k.slot j).deferred = [] → t.deferred = []) : AppliesEmpty k (k.setSlot j t) where
  seq q := k.setSlot_seq j t q
  st := rfl
  g i := by
    by_cases h : i = j
    · rw [h, Core.slot_setSlot_same, g]
    · rw [Core.slot_setSlot_other _ _ _ _ h]
  fault i := by
    by_cases h : i = j
    · rw [h, Core.slot_setSlot_same, fault]
    · rw [Core.slot_setSlot_other _ _ _ _ h]
  nothing i := by
    rintro ⟨stores, results, empty⟩
    refine ⟨stores, results, ?_⟩
    by_cases h : i = j
    · rw [h, Core.slot_setSlot_same]
      exact deferred (h ▸ empty)
    · rwa [Core.slot_setSlot_other _ _ _ _ h]

theorem Core.noteRaised_seq (k : Core) (now : Nat) (f : BitVec 5) (aovf : Bool) (n : Nat) (q : SeqId) :
    (k.noteRaised now f aovf n).seq q = k.seq q := by
  unfold Core.noteRaised
  dsimp only
  split <;> cases q <;> rfl

theorem Core.noteRaised_round (k : Core) (now : Nat) (f : BitVec 5) (aovf : Bool) (n : Nat) :
    (k.noteRaised now f aovf n).round = k.round := by
  unfold Core.noteRaised
  dsimp only
  split <;> rfl

theorem Core.applyRegisters_appliesEmpty (k : Core) (now j : Nat) : AppliesEmpty k (k.applyRegisters now j) := by
  unfold Core.applyRegisters
  extract_lets t written raised ks merged
  have round : merged.round = k.round := by
    refine (Core.noteRaised_round written now t.fflags t.aovf 0).trans (Core.foldl_keeps Core.round _ (fun k x => ?_) _ k)
    split <;> rfl
  have seq (q : SeqId) : merged.seq q = k.seq q := by
    have kept : raised.seq q = k.seq q := by
      refine (Core.noteRaised_seq written now t.fflags t.aovf 0 q).trans (Core.foldl_keeps (fun k : Core => k.seq q) _ (fun k x => ?_) _ k)
      split <;> cases q <;> rfl
    exact (by cases q <;> rfl : merged.seq q = raised.seq q).trans kept
  have slot : merged.slot j = t := by rw [Core.slot, round]; rfl
  exact (AppliesEmpty.of_same_round seq round).trans (.setSlot merged j _ (by rw [slot]) (by rw [slot]) (by rw [slot]; exact id))

theorem filter_beq_eq_nil {α : Type} {f : α → Nat} {j : Nat} {l : List α} (h : l.all (fun x => f x != j) = true) :
    l.filter (fun x => f x == j) = [] := by
  rw [List.filter_eq_nil_iff]
  intro x hx
  simpa using List.all_eq_true.mp h x hx

theorem all_filter_of_all {α : Type} {p q : α → Bool} {l : List α} (h : l.all p = true) : (l.filter q).all p = true :=
  List.all_eq_true.mpr fun x hx => List.all_eq_true.mp h x (List.mem_of_mem_filter hx)

/-- The core without the stores that slot j holds. -/
def Core.dropStores (k : Core) (j : Nat) : Core :=
  { k with round := { k.round with stores := k.round.stores.filter (fun x => x.slot != j) } }

/-- The core without the results that slot j holds. -/
def Core.dropResults (k : Core) (j : Nat) : Core :=
  { k with round := { k.round with heldResults := k.round.heldResults.filter (fun x => x.1 != j) } }

/-- The core without the commands that slot j has deferred. -/
def Core.dropDeferred (k : Core) (j : Nat) : Core := k.setSlot j { k.slot j with deferred := [] }

theorem AppliesEmpty.dropStores (k : Core) (j : Nat) : AppliesEmpty k (k.dropStores j) where
  seq q := by cases q <;> rfl
  st := rfl
  g _ := rfl
  fault _ := rfl
  nothing _ := fun ⟨stores, results, deferred⟩ => ⟨all_filter_of_all stores, results, deferred⟩

theorem AppliesEmpty.dropResults (k : Core) (j : Nat) : AppliesEmpty k (k.dropResults j) where
  seq q := by cases q <;> rfl
  st := rfl
  g _ := rfl
  fault _ := rfl
  nothing _ := fun ⟨stores, results, deferred⟩ => ⟨stores, all_filter_of_all results, deferred⟩

theorem AppliesEmpty.dropDeferred (k : Core) (j : Nat) : AppliesEmpty k (k.dropDeferred j) := .setSlot k j _ rfl rfl (fun _ => rfl)

theorem State.applyStores_nil (s : State) (j : Nat) : s.applyStores j [] = .done (s.mapMe (fun k => k.dropStores j)) := rfl

theorem State.applyResults_nil (s : State) (j : Nat) : s.applyResults j [] = .done (s.mapMe (fun k => k.dropResults j)) := rfl

theorem State.applyDeferred_nil (s : State) (j : Nat) : s.applyDeferred j [] = .done (s.mapMe (fun k => k.dropDeferred j)) := rfl

/-- The present core's accepted slots have been applied. -/
structure State.Applies (s t : State) : Prop where
  cur : t.cur = s.cur
  core : AppliesEmpty s.me t.me

theorem State.Applies.refl (s : State) : State.Applies s s := ⟨rfl, .refl _⟩

theorem State.Applies.trans {s t u : State} (a : State.Applies s t) (b : State.Applies t u) : State.Applies s u :=
  ⟨b.cur.trans a.cur, a.core.trans b.core⟩

theorem State.Applies.mapMe (s : State) (f : Core → Core) (h : AppliesEmpty s.me (f s.me)) : State.Applies s (s.mapMe f) :=
  ⟨rfl, by rw [State.me_mapMe]; exact h⟩

/-- Applying a slot that hands nothing over is done at once. -/
theorem State.applySlot_empty (s : State) (j : Nat) (h : s.me.handsNothing j) : ∃ t, s.applySlot j = .done t ∧ State.Applies s t := by
  have registers : State.Applies s (s.mapMe (fun k => k.applyRegisters s.cycle j)) := .mapMe s _ (Core.applyRegisters_appliesEmpty _ _ _)
  unfold State.applySlot
  extract_lets s1 rd
  obtain ⟨stores, results, deferred⟩ : s1.me.handsNothing j := registers.core.nothing j h
  have no_stores : rd.stores.filter (fun x => x.slot == j) = [] := filter_beq_eq_nil stores
  have no_results : rd.heldResults.filter (fun x => x.1 == j) = [] := filter_beq_eq_nil results
  rw [no_stores, no_results]
  rw [State.applyStores_nil, Applied.andThen, State.applyResults_nil, Applied.andThen]
  have sofar := (registers.trans (.mapMe s1 (fun k => k.dropStores j) (.dropStores _ j))).trans
    (.mapMe _ (fun k => k.dropResults j) (.dropResults _ j))
  obtain ⟨-, -, empty⟩ := sofar.core.nothing j h
  rw [empty, State.applyDeferred_nil]
  exact ⟨_, rfl, sofar.trans (.mapMe _ _ (.dropDeferred _ j))⟩

/-- Applying slots that hand nothing over is done at once. -/
theorem State.applySlots_empty (s : State) : ∀ n, (∀ j, 1 ≤ j → j ≤ n → s.me.handsNothing j) →
    ∃ t, s.applySlots n = .done t ∧ State.Applies s t
  | 0, _ => ⟨s, rfl, .refl s⟩
  | n + 1, h => by
    obtain ⟨t, done, applied⟩ := State.applySlots_empty s n (fun j low high => h j low (by omega))
    obtain ⟨u, last, more⟩ := t.applySlot_empty (n + 1) (applied.core.nothing _ (h (n + 1) (by omega) le_rfl))
    exact ⟨u, by rw [State.applySlots, done]; exact last, applied.trans more⟩

/-! ### The round through the end of a word -/

@[simp] theorem Core.takeTokens_round (k : Core) (q : SeqId) (now : Nat) (pops : List (Nat × Nat)) : (k.takeTokens q now pops).round = k.round := by
  rw [Core.takeTokens, Core.foldl_keeps Core.round _ (fun k c => by rfl), Core.inherit, Core.mapSeq_round]

theorem Core.pushes_round (k : Core) (q : SeqId) (p : Issue) (h : Header) (t : Token) :
    (if p.engine.isSome then ((Machine.named q h.tks).map (tokenQueue q)).foldl (fun k t => k.reserve t) k
      else (pushCounts q h p.pushes).foldl (fun k c => if c.2 = 0 then k else k.pushTokens c.1 c.2 t) k).round = k.round := by
  split
  · exact Core.foldl_keeps Core.round _ (fun k c => by rfl) _ k
  · refine Core.foldl_keeps Core.round _ (fun k c => ?_) _ k
    split <;> rfl

theorem State.account_round (s : State) (p : Issue) (h : Header) : (s.account p h).me.round = s.me.round := by
  simp only [State.account, State.me_mapMe, Core.mapSeq_round, Core.pushes_round, Core.takeTokens_round]

theorem State.goOn_round (s : State) (n : Word) (taken : Bool) : (s.goOn n taken).me.round = s.me.round := by
  rw [State.goOn, State.mapMySeq, State.me_mapMe, Core.mapSeq_round]

/-- The end, for slot 0, of a word that acts once for the round. -/
theorem State.retire_once (s : State) (p : Issue) (h : Header) (n : Word) (taken : Bool) (slot0 : s.cur.slot = 0) (once : p.once = true) :
    s.retire p h n taken = (s.account p h).goOn n taken :=
  retire_plain p h s n taken slot0 (by rw [State.inRound, once, Bool.not_true, Bool.and_false])

/-! ### Closing a round -/

theorem State.removeAppends_applies (s : State) (a : Nat) : State.Applies s (s.removeAppends s.cur.core a true) := by
  obtain ⟨l, round⟩ := s.removeAppends_round s.cur.core a s.cur.core
  have slot (j : Nat) : (s.removeAppends s.cur.core a true).me.slot j = s.me.slot j := by
    show Table.get _ ((s.removeAppends s.cur.core a true).core s.cur.core).round.slots j = _
    rw [round]
    rfl
  have mine : (s.removeAppends s.cur.core a true).me.round = { s.me.round with appends := l } := round
  refine ⟨rfl, s.removeAppends_seq s.cur.core a s.cur.core, ?_, fun j => ?_, fun j => ?_, fun j => ?_⟩
  · rw [mine]
  · rw [slot]
  · rw [slot]
  · rintro ⟨stores, results, deferred⟩
    refine ⟨?_, ?_, ?_⟩
    · rwa [mine]
    · rwa [mine]
    · rwa [slot]

/-- The owner's sequencer as a closed round leaves it: with a destination it has the last accepted slot's g-registers, and the number of
accepted slots stands in the destination. -/
def Sequencer.takesOver (r : Sequencer) (a : Nat) (g : Table Word) : Option (BitVec 6) → Sequencer
  | none => r
  | some ga => (if a = 0 then r else { r with g := g }).setG ga.toNat (BitVec.ofNat 64 (a + 1))

/-- The state in which the owner has taken over what a round closed at slot a leaves it. -/
def State.takesOver (t : State) (a : Nat) (dest : Option (BitVec 6)) : State :=
  match dest with
  | none => t
  | some ga => (if a = 0 then t else t.mapMySeq (fun r => { r with g := (t.me.slot a).g })).setG ga (BitVec.ofNat 64 (a + 1))

theorem State.takesOver_cur (t : State) (a : Nat) (dest : Option (BitVec 6)) : (t.takesOver a dest).cur = t.cur := by
  unfold State.takesOver
  split
  · rfl
  · rw [State.setG_cur]
    split <;> rfl

theorem State.takesOver_mySeq (t : State) (a : Nat) (dest : Option (BitVec 6)) (slot0 : t.cur.slot = 0) :
    (t.takesOver a dest).mySeq = t.mySeq.takesOver a (t.me.slot a).g dest := by
  cases dest with
  | none => rfl
  | some ga =>
    rw [State.takesOver, Sequencer.takesOver]
    by_cases h : a = 0
    · rw [if_pos h, if_pos h, State.setG_slot0 _ _ _ slot0, State.mySeq_mapMySeq]
    · rw [if_neg h, if_neg h, State.setG_slot0 (t.mapMySeq _) _ _ slot0, State.mySeq_mapMySeq, State.mySeq_mapMySeq]

/-- The round as closing leaves it. -/
def Round.closedAt (rd : Round) (a : Nat) : Round :=
  { Round.closed with acc := a, epoch := rd.epoch, owner := rd.owner, sq := rd.sq, matched := rd.matched }

/-- A round closed at a, whose slots 1 to a hand nothing over and of which slot a holds no fault. -/
theorem closeRound_closes (s : State) (a : Nat) (dest : Option (BitVec 6)) (slot0 : s.cur.slot = 0)
    (idle : s.me.roundBusy (s.mySeq.drain.getD s.nextId) = false) (empty : ∀ j, 1 ≤ j → j ≤ a → s.me.handsNothing j)
    (sound : a ≠ 0 → (s.me.slot a).fault = none) :
    ∃ u, closeRound s a dest = .done u (s.pc + 16) ∧ u.cur = s.cur ∧ u.me.round.st = .closed ∧ u.me.round.acc = a ∧
      u.mySeq = s.mySeq.takesOver a (s.me.slot a).g dest := by
  have removed := s.removeAppends_applies a
  obtain ⟨t, done, more⟩ := State.applySlots_empty _ a (fun j low high => removed.core.nothing j (empty j low high))
  have applied := removed.trans more
  have fault : (if a = 0 then none else (t.me.slot a).fault) = none := by
    split
    · rfl
    next h => rw [applied.core.fault, sound h]
  have slot0' : t.cur.slot = 0 := by rw [applied.cur, slot0]
  have mine : t.mySeq = s.mySeq := by rw [State.mySeq, State.mySeq, applied.cur, applied.core.seq]
  refine ⟨(t.takesOver a dest).mapMe (fun k => { k with round := t.me.round.closedAt a }), ?_, ?_, ?_, ?_, ?_⟩
  · simp only [closeRound, idle, done, fault, Bool.false_eq_true, if_false]
    rfl
  · exact (t.takesOver_cur a dest).trans applied.cur
  · rw [State.me_mapMe]; rfl
  · rw [State.me_mapMe]; rfl
  · rw [← mine, ← applied.core.g, ← t.takesOver_mySeq a dest slot0', State.mySeq, State.me_mapMe]
    rfl

section
variable (r : Sequencer) (a : Nat) (g : Table Word) (ga : BitVec 6)

theorem Sequencer.getG_takesOver_dest (h : ga ≠ 0) : (r.takesOver a g (some ga)).getG ga.toNat = BitVec.ofNat 64 (a + 1) :=
  Sequencer.getG_setG_same _ _ _ (BitVec6.toNat_ne_zero h)

theorem Sequencer.getG_takesOver_other (n : Nat) (h0 : n ≠ 0) (h : n ≠ ga.toNat) :
    (r.takesOver a g (some ga)).getG n = if a = 0 then r.getG n else Table.get 0 g n := by
  rw [Sequencer.takesOver, Sequencer.getG_setG_other _ _ _ _ h]
  split
  · rfl
  · rw [Sequencer.getG, if_neg h0]

end

/-- The issue description of a word that acts once for the round. -/
def roundIssue (who : List SeqId) (srcs dsts : List (BitVec 6)) : Issue := { Issue.scalar srcs dsts with who := who, once := true }

/-- A word that closes the round at a, and what it leaves once it is retired. -/
theorem issueWord_closes {h : Header} {s : State} (body : State → Eff) (who : List SeqId) (dsts : List (BitVec 6)) (a : Nat)
    (dest : Option (BitVec 6)) (slot0 : s.cur.slot = 0)
    (g : gate (roundIssue who [] dsts) h s = .go) (closes : body s = closeRound s a dest)
    (idle : s.me.roundBusy (s.mySeq.drain.getD s.nextId) = false) (empty : ∀ j, 1 ≤ j → j ≤ a → s.me.handsNothing j)
    (sound : a ≠ 0 → (s.me.slot a).fault = none) :
    ∃ u, issueWord (roundIssue who [] dsts) h body s = .next u ∧ u.me.round.st = .closed ∧ u.me.round.acc = a ∧ u.mySeq.pc = s.pc + 16 ∧
      ∀ n, u.mySeq.getG n = (s.mySeq.takesOver a (s.me.slot a).g dest).getG n := by
  obtain ⟨t, done, cur, st, acc, seq⟩ := closeRound_closes s a dest slot0 idle empty sound
  have slot0' : t.cur.slot = 0 := by rw [cur, slot0]
  have ended : t.retire (roundIssue who [] dsts) h (s.pc + 16) false = (t.account (roundIssue who [] dsts) h).goOn (s.pc + 16) false :=
    t.retire_once _ h _ _ slot0' rfl
  have round : (t.retire (roundIssue who [] dsts) h (s.pc + 16) false).me.round = t.me.round := by
    rw [ended, State.goOn_round, State.account_round]
  refine ⟨_, issueWord_went _ h _ s t (s.pc + 16) g slot0 (closes.trans done), ?_, ?_, ?_, fun n => ?_⟩
  · rw [round, st]
  · rw [round, acc]
  · rw [ended]; exact State.goOn_pc _ _ _
  · rw [← seq]; exact (t.retire_onlyG _ h _ _ slot0').others n (fun _ hd => nomatch hd)

/-! ### Opening a round, and the end of a run -/

/-- The state in which RKBEGIN has opened a round and called its routine. -/
def State.begun (s : State) (o : EngOps) : State :=
  (s.mapMe (fun k => { k with round := { Round.closed with
    st := .guessing, w := o.imm.toNat % 16, acc := s.me.round.acc, epoch := BitVec.ofNat 12 (o.imm.toNat / 16), owner := s.cur.seq,
    sq := s.me.round.sq, matched := s.me.round.matched, carried := s.g o.gc, pc := s.pc, routine := s.g o.ga, run := 1,
    depth := s.mySeq.shadow.length, carries0 := s.mySeq.carries ({ Round.closed with carried := s.g o.gc } : Round).carriedRegs } })).pushShadow
    s.pc16

/-- The issue description of RKBEGIN. -/
def State.beginIssue (s : State) (o : EngOps) : Issue :=
  roundIssue allSeqs ([o.ga, o.gc] ++ ({ Round.closed with carried := s.g o.gc } : Round).carriedRegs.map (BitVec.ofNat 6)) []

section
variable (h : Header) (o : EngOps) (s : State) (slot0 : s.cur.slot = 0)
include slot0

theorem execRkbegin_jumped (g : gate (s.beginIssue o) h s = .go) (closed : s.me.round.st = .closed) (aligned : (s.g o.ga).toNat % 64 = 0)
    (zero : (s.g o.gc).getLsbD 0 = false) (few : ((List.range 64).filter (fun n => (s.g o.gc).getLsbD n)).length ≤ 8)
    (held : s.mySeq.shadow.length < 64) : execRkbegin h o s = jumped (s.beginIssue o) h (s.begun o) (s.g o.ga) := by
  rw [execRkbegin, roundWord]
  refine issueWord_jumped _ h _ s _ _ g slot0 ?_
  simp only [closed, aligned, zero, not_lt.mpr few, not_le.mpr held, ne_eq, not_true_eq_false, decide_false, Bool.or_self,
    Bool.false_eq_true, if_false]
  rfl

theorem State.begun_eq : s.begun o = (s.mapMe (fun k => { k with round := { Round.closed with
    st := .guessing, w := o.imm.toNat % 16, acc := s.me.round.acc, epoch := BitVec.ofNat 12 (o.imm.toNat / 16), owner := s.cur.seq,
    sq := s.me.round.sq, matched := s.me.round.matched, carried := s.g o.gc, pc := s.pc, routine := s.g o.ga, run := 1,
    depth := s.mySeq.shadow.length,
    carries0 := s.mySeq.carries ({ Round.closed with carried := s.g o.gc } : Round).carriedRegs } })).mapMySeq
      (fun r => { r with shadow := s.pc16 :: r.shadow }) := if_pos slot0

theorem State.begun_round : (s.begun o).me.round.st = .guessing ∧ (s.begun o).me.round.w = o.imm.toNat % 16 ∧
    (s.begun o).me.round.owner = s.cur.seq ∧ (s.begun o).me.round.carried = s.g o.gc ∧ (s.begun o).me.round.routine = s.g o.ga := by
  rw [State.begun_eq o s slot0, State.mapMySeq, State.me_mapMe, Core.mapSeq_round, State.me_mapMe]
  exact ⟨rfl, rfl, rfl, rfl, rfl⟩

theorem State.begun_shadow : (s.begun o).mySeq.shadow = (s.pc + 16) :: s.mySeq.shadow := by
  rw [State.begun_eq o s slot0, State.mySeq_mapMySeq, State.mySeq, State.me_mapMe]
  rfl

theorem State.begun_memory : SameMemory s (s.begun o) := by
  rw [State.begun_eq o s slot0]
  exact ((s.mapRound_onlyG _).memory (ds := [])).trans (SameMemory.mapCore _ s.cur.core
    (fun k => k.mapSeq s.cur.seq (fun r => { r with shadow := s.pc16 :: r.shadow })) (Core.mapSeq_spad ..) (Core.mapSeq_l1 ..))

theorem execRet_endsRun (j : JmpOps) (x : Word) (rest : List Word) (g : gate (Issue.scalar [j.ag] []) h s = .go)
    (shadow : s.mySeq.shadow = x :: rest) (same : x = s.g j.ag) (good : okTarget s x) (st : s.me.round.st = .guessing)
    (owner : s.me.round.owner = s.cur.seq) (depth : rest.length = s.me.round.depth)
    (filled : s.mySeq.outstanding.any (fun n => s.me.round.run + 1 = s.me.round.w || s.me.round.carried.getLsbD n) = false)
    (next : okTarget s (s.mapMySeq (fun r => { r with shadow := rest })).endRun.2) :
    execRet h j s = jumped (Issue.scalar [j.ag] []) h (s.mapMySeq (fun r => { r with shadow := rest })).endRun.1
      (s.mapMySeq (fun r => { r with shadow := rest })).endRun.2 :=
  issueWord_jumped _ h _ s _ _ g slot0 (by
    dsimp only
    rw [if_neg (not_not_intro slot0), shadow]
    dsimp only
    rw [s.badTarget_of_ok x good, if_neg Bool.false_ne_true, if_neg (not_not_intro same), if_pos ⟨st, owner, depth⟩, filled,
      if_neg Bool.false_ne_true]
    exact transfer_ok s _ _ next)

end

/-- Settles O35: opening and ending a run are taken transfers; closing a round is `closeRound_closes`. -/
theorem roundWords : Obligations.RoundWords := by
  unfold Obligations.RoundWords
  constructor
  · intro h o s slot0 p t mask begins compares a empty
    refine ⟨fun g closed aligned zero few held => ?begins,
      fun j x rest g shadow same good st owner depth filled next => ?runEnds, fun g running => ?compares,
      fun g running idle nothing sound => ?commits, fun g closed => ?ends, fun g running idle => ?closes,
      fun g => (exec_rkstat h o s).trans ?stat⟩
    case begins =>
      obtain ⟨st, w, owner, carried, routine⟩ := State.begun_round o s slot0
      exact ⟨s.begun o, (exec_rkbegin h o s).trans (execRkbegin_jumped h o s slot0 g closed aligned zero few held), st, w, owner, carried,
        routine, State.begun_shadow o s slot0, State.begun_memory o s slot0⟩
    case runEnds =>
      exact (exec_ret h j s).trans (execRet_endsRun h s slot0 j x rest g shadow same good st owner depth filled next)
    case compares =>
      rw [exec_acmp, execAcmp, roundWord]
      exact issueWord_went _ h _ s _ _ g slot0 (by simp only [running, if_true, State.pc16])
    case commits =>
      rw [exec_rkcommit, execRkcommit, roundWord]
      obtain ⟨u, done, st, acc, pc, regs⟩ := issueWord_closes
        (fun s => if s.me.round.st = .running then closeRound s s.me.round.accepted (some o.ga) else .trap (.bare .illegal))
        s.roundIssuers [o.ga] a (some o.ga) slot0 g (if_pos running) idle nothing sound
      exact ⟨u, done, st, acc, pc, fun hd => (regs _).trans (Sequencer.getG_takesOver_dest _ _ _ _ hd),
        fun n h0 hn => (regs n).trans (Sequencer.getG_takesOver_other _ _ _ _ n h0 hn)⟩
    case ends =>
      rw [exec_rkend, execRkend, roundWord]
      exact issueWord_went _ h _ s _ _ g slot0 (by simp only [closed, State.pc16])
    case closes =>
      rw [exec_rkend, execRkend, roundWord]
      exact issueWord_closes _ s.roundIssuers [] 0 none slot0 g (by simp only [running]) idle
        (fun j low high => absurd (low.trans high) (by decide)) (fun h0 => absurd rfl h0)
    case stat => exact issueWord_wrote_slot0 _ h _ s s o.ga _ slot0 g rfl (by rw [slot0])
  · intro s u d n slot0 done
    have idle : s.me.roundBusy (s.mySeq.drain.getD s.nextId) = false := by
      by_contra busy
      rw [Bool.not_eq_false] at busy
      simp only [closeRound, busy, if_true] at done
      cases done
    obtain ⟨t, closed, -, st, acc, seq⟩ := closeRound_closes s 0 (some d) slot0 idle (fun j low high => absurd (low.trans high) (by decide))
      (fun h0 => absurd rfl h0)
    obtain ⟨rfl, rfl⟩ := Eff.done.inj (closed.symm.trans done)
    exact ⟨rfl, st, acc, fun hd => by rw [seq]; exact Sequencer.getG_takesOver_dest _ _ _ _ hd⟩

end Sys2Proof.Machine

/-! SUPPORT. The engines' steps, the fault of a command, and what is delivered at a word boundary (R93, R183, R191, R194, R364, R365). -/

namespace Sys2Proof.Machine
open Sys2Proof Sys2Proof.Safety

/-! ### What raising a cause leaves of the cores -/

theorem SameBesideLines.releaseCaches (s : State) (core : Nat) (scope : Scope) : SameBesideLines s (s.releaseCaches core scope) := by
  unfold State.releaseCaches
  split
  · exact .refl s
  · have back : SameBesideLines s ((s.core core).l1.foldl (fun s l => s.writeBack l) s) :=
      .of_cores (MemoryOnly.foldl _ MemoryOnly.writeBack _ _).cores
    have cleaned := back.trans (.mapCore _ core (fun k => { k with l1 := k.l1.map (fun l => { l with dirty := 0 }) }) (fun _ => rfl))
    dsimp only
    split
    · exact cleaned.trans (.of_cores (MemoryOnly.foldl _ (fun _ _ => .hbmWrite ..) _ _).cores)
    · exact cleaned

theorem State.logFault_cores (s : State) (rec : List Byte) (launch : Option (Nat × Nat)) : (s.logFault rec launch).1.cores = s.cores := by
  unfold State.logFault
  dsimp only
  split
  · rfl
  · exact (MemoryOnly.physWriteBytes false _ _ _).cores

theorem SameBesideLines.raiseCause (s : State) (core : Nat) (seq : SeqId) (unit : Nat) (rep : Bool) (pc : Word) (i : FaultInfo) :
    SameBesideLines s (s.raiseCause core seq unit rep pc i).1 := by
  unfold State.raiseCause
  dsimp only
  have forgot : SameBesideLines s (if i.cause = .dataError ∧ i.loc.info / 2 ^ 27 = 2 then
      { s with poisoned := s.poisoned.filter (fun x => x.2 != i.loc.info % 2 ^ 27) } else s) := by
    split
    · exact .of_cores rfl
    · exact .refl s
  split
  · have released := forgot.trans (.releaseCaches _ core .device)
    split
    · exact released.trans (.of_cores (State.logFault_cores ..))
    · exact released.trans (.of_cores (State.logFault_cores ..))
  · exact forgot

/-! ### What dropping a command leaves of the sequencers -/

@[simp] theorem Core.dropCommand_seq (k : Core) (now port : Nat) (c : Command) (q : SeqId) : (k.dropCommand now port c).seq q = k.seq q := by
  cases q <;> rfl

@[simp] theorem Core.unreserve_seq (k : Core) (c : Command) (q : SeqId) : (k.unreserve c).seq q = k.seq q := by
  unfold Core.unreserve
  split
  · exact Core.foldl_keeps (fun k => k.seq q) _ (fun k _ => by cases q <;> rfl) _ k
  · rfl

/-- A sequencer with one more fault that waits. -/
def Sequencer.withPending (r : Sequencer) (p : PendingFault) : Sequencer := { r with pending := r.pending ++ [p] }

/-- A reported fault adds one to the faults that wait for the sequencer, and does nothing else to it. -/
theorem State.reportTo_seq (s : State) (core : Nat) (q : SeqId) (unit : Nat) (pc : Word) (i : FaultInfo) (stops : Option Nat) :
    ∃ p : PendingFault, p.stops = stops ∧
      ((s.reportTo core q unit pc i stops).1.core core).seq q = ((s.core core).seq q).withPending p := by
  have kept := (SameBesideLines.raiseCause s core q unit true pc i).seq core q
  refine ⟨⟨(s.raiseCause core q unit true pc i).2.1, (s.raiseCause core q unit true pc i).1.tick,
    (s.raiseCause core q unit true pc i).1.clock, stops⟩, rfl, ?_⟩
  simp only [State.reportTo, State.core_mapCore_same, Core.seq_mapSeq_same, kept]
  rfl

theorem State.faultCommand_seq (s : State) (core port : Nat) (c : Command) (i : FaultInfo) (slot0 : c.slot = 0) (own : c.remote = none) :
    ∃ p : PendingFault, p.stops = some port ∧
      ((s.faultCommand core port c i).core core).seq c.seq = ((s.core core).seq c.seq).withPending p := by
  obtain ⟨p, stops, reported⟩ := s.reportTo_seq core c.seq (engineOfPort port) c.pc i (some port)
  refine ⟨p, stops, ?_⟩
  rw [← reported, State.faultCommand, if_neg (not_not.2 slot0)]
  simp only [own, Option.isSome_none, Bool.false_eq_true, if_false, State.core_mapCore_same]
  exact (Core.unreserve_seq ..).trans (Core.dropCommand_seq ..)

theorem State.faultCommand_stopped (s : State) (core port : Nat) (c : Command) (i : FaultInfo) (slot0 : c.slot = 0) :
    (Table.get none ((s.faultCommand core port c i).core core).stopped port).isSome = true := by
  rw [State.faultCommand, if_neg (not_not.2 slot0)]
  simp only [State.core_mapCore_same, Table.get_set_same, Option.isSome_some]

/-! ### The steps of an engine -/

theorem onPort_next {core port : Nat} (hcore : core < 512) (hport : port < 8) (f : Unit → State) : onPort core port f = .next (f ()) :=
  if_neg (by omega)

theorem seqOfNat_num (q : SeqId) : seqOfNat q.num = q := by
  cases q <;> rfl

theorem SeqId.num_lt (q : SeqId) : q.num < 4 := by
  cases q <;> decide

section
variable {core port : Nat} {c : Command} {s : State} (hcore : core < 512) (hport : port < 8)
include hcore hport

/-- What ENGINE_COMMAND_START does for the command at the head of a running tile's port. -/
theorem execEngineCommandStart_of_head (head : (s.core core).nextCommand port = some c) (works : (s.core core).working = true) :
    execEngineCommandStart core port s = .next (
      if c.trigger.isSome && !c.started then
        (if c.due.any (fun d => decide (d < s.cycleOf core)) then s.missCommand core port c else s)
      else if c.total.isSome && c.started then s
      else (s.takeUp core port).startCommand core port c) := by
  rw [execEngineCommandStart, onPort_next hcore hport]
  simp only [head, works, Bool.not_true, Bool.false_eq_true, if_false]

theorem execRecordIssue_of_head (head : (s.core core).nextCommand port = some c) (works : (s.core core).working = true) :
    execRecordIssue core port s = .next (
      if c.total.isSome && c.started then (if s.skipsSlot core c then s else s.takeUp core port).startCommand core port c else s) := by
  rw [execRecordIssue, onPort_next hcore hport]
  simp only [head, works, Bool.not_true, Bool.false_eq_true, if_false]

theorem execTriggeredCommandStart_of_head (head : (s.core core).nextCommand port = some c) {n : Nat} (trigger : c.trigger = some n) :
    execTriggeredCommandStart core port s = .next (
      if (s.core core).working && !c.started && ((s.core core).counter n).flag then s.startCommand core port c else s) := by
  rw [execTriggeredCommandStart, onPort_next hcore hport]
  simp only [head, trigger]

/-- What COMMAND_COMPLETE does for a performed command with room for its result. -/
theorem execCommandComplete_of_head (runs : Table.get none (s.core core).stopped port = none)
    (head : ((s.core core).fifo port).head? = some c) {r : CmdResult} (performed : c.result = some r)
    (may : s.mayComplete core port c = true) (room : (s.core core).resultRoom (engineOfPort port) = true) :
    execCommandComplete core port s = .next (match c.creditBar with
      | none => s.complete core port c r
      | some bar => match s.credit core bar r.value with
        | some t => t.complete core port c r
        | none => s.faultCommand core port c (.bare .barrier)) := by
  rw [execCommandComplete, onPort_next hcore hport]
  simp only [runs, head, performed, may, room, Bool.not_true, Bool.and_false, Bool.false_eq_true, if_false] <;> rfl

end

/-- Settles O36: each step of an engine is its equation for the command at the head, and a fault of a command adds one to the faults that wait. -/
theorem engineSteps : Obligations.EngineSteps := by
  unfold Obligations.EngineSteps
  refine ⟨fun core port c s hcore hport => ⟨fun head works => ⟨?_, ?_, ?_, ?_, ?_⟩, fun r runs head performed may room => ⟨?_, ?_⟩, ?_⟩, ?_⟩
  · intro untriggered fresh
    rw [exec_engineCommandStart, execEngineCommandStart_of_head hcore hport head works]
    simp [untriggered, fresh]
  · intro record begun
    rw [exec_recordIssue, execRecordIssue_of_head hcore hport head works]
    simp [record, begun]
  · intro n trigger fresh flag
    rw [exec_triggeredCommandStart, execTriggeredCommandStart_of_head hcore hport head trigger]
    simp [works, fresh, flag]
  · intro n trigger fresh flag
    rw [exec_triggeredCommandStart, execTriggeredCommandStart_of_head hcore hport head trigger]
    simp [flag]
  · intro n d trigger fresh due
    rw [exec_engineCommandStart, execEngineCommandStart_of_head hcore hport head works]
    simp [trigger, fresh, due]
  · intro uncredited
    rw [exec_commandComplete, execCommandComplete_of_head hcore hport runs head performed may room, uncredited]
  · intro bar credits
    rw [exec_commandComplete, execCommandComplete_of_head hcore hport runs head performed may room, credits]
    exact ⟨fun t credited => by simp [credited], fun refused => by simp [refused]⟩
  · intro h o head notify good low notPort
    rw [exec_notifyRetire, execNotifyRetire, if_neg (by omega)]
    simp [head, notify, good, low, notPort]
  · intro core port c i s slot0 own
    obtain ⟨p, stops, waits⟩ := s.faultCommand_seq core port c i slot0 own
    refine ⟨p, ((s.core core).seq c.seq).pending, ?_, stops, ?_, ?_, ?_, s.faultCommand_stopped core port c i slot0⟩ <;> rw [waits] <;> rfl

/-- Settles O37: a block expires by its condition, and what a sequencer is to take is taken at its boundary. -/
theorem deliveries : Obligations.Deliveries := by
  unfold Obligations.Deliveries
  intro core s hcore
  refine ⟨?_, ?_, ?_, ?_⟩
  · intro slot hslot pinned fresh reached notCompleting
    have expires : s.expires core slot = true := by
      simp only [State.expires, pinned, fresh, decide_eq_true reached, Bool.not_false, Bool.and_self, Bool.true_and, Bool.not_eq_true',
        Bool.and_eq_false_iff, beq_eq_false_iff_ne]
      by_cases now : s.tick = ((s.core core).block slot).deadline
      · exact .inr (notCompleting now)
      · exact .inl now
    rw [exec_blockExpiry, execBlockExpiry, if_neg (by omega), if_pos expires]
    rfl
  · intro slot b due boundary
    rw [exec_reclaimTrapDelivery, execReclaimTrapDelivery, if_neg (by omega)]
    simp only [due, boundary, if_true, State.deliver]
  · intro q p due boundary
    have hq := q.num_lt
    rw [exec_reportedFaultDelivery, execReportedFaultDelivery, if_neg (by omega)]
    simp only [seqOfNat_num, due, boundary, if_true, State.deliver]
  · intro nothing
    rw [exec_reclaimTrapDelivery, execReclaimTrapDelivery, if_neg (by omega)]
    simp only [nothing]

end Sys2Proof.Machine

/-! SUPPORT. Notices, completions, declines and withdrawals on their way (R192, R194, R283, R290, R295). -/

namespace Sys2Proof.Machine
open Sys2Proof Sys2Proof.Safety

/-- What a change of a core, or of the saved state of its tile, leaves: no posts, no memory and no Chronometer change. -/
theorem State.mapCoreWith_keeps (s : State) (core : Nat) (p : Core → Bool) (f : Core → Core) :
    (s.mapCoreWith core p f).posts = s.posts ∧ (s.mapCoreWith core p f).hbm = s.hbm ∧ (s.mapCoreWith core p f).l2 = s.l2 ∧
      (s.mapCoreWith core p f).chron = s.chron := by
  unfold State.mapCoreWith
  split
  · exact ⟨rfl, rfl, rfl, rfl⟩
  · exact ⟨rfl, rfl, rfl, rfl⟩

theorem State.mapCoreWith_core (s : State) (core : Nat) (p : Core → Bool) (f : Core → Core) (has : p (s.core core) = true) :
    (s.mapCoreWith core p f).core core = f (s.core core) := by
  rw [State.mapCoreWith, if_pos has, State.core_mapCore_same]

/-- Settles O38: each step of a message is its definition with the message given. -/
theorem noticeSteps : Obligations.NoticeSteps := by
  unfold Obligations.NoticeSteps
  intro msg s
  refine ⟨?_, ?_, ?_, ?_, ?_, ?_, ?_⟩
  · intro bits con dev asid w posted here first
    have arrives := exec_noticeArrival msg s
    simp only [execNoticeArrival, posted, here, first, ne_eq, not_true_eq_false, Bool.false_eq_true, or_self, if_false] at arrives
    refine ⟨fun fenced => ?_, fun open_ => ⟨fun bad => ?_, fun good enters noHeld => ?_, fun good held => ?_⟩⟩
    · rw [arrives, if_pos fenced]
    · rw [arrives, if_neg (by simp [open_]), if_pos bad]
    · rw [arrives, if_neg (by simp [open_]), if_neg (by simp [good]), if_pos (by simp [enters, noHeld])]
    · rw [arrives, if_neg (by simp [open_]), if_neg (by simp [good]), if_neg]
      rcases held with shut | held
      · simp [shut]
      · simp [Option.isNone_iff_eq_none, Option.isSome_iff_ne_none.1 held]
  · intro core id bits dev asid rest hcore fenced held
    rw [exec_heldNoticeEntry, execHeldNoticeEntry, if_neg (by omega), if_pos fenced, held]
  · intro core id bits dev asid w hcore open_ next
    rw [exec_heldNoticeEntry, execHeldNoticeEntry, if_neg (by omega), if_neg (by simp [open_]), next]
  · intro bits con posted kept
    rw [exec_pullCompletionArrival, execPullCompletionArrival, posted]
    simp [kept]
  · intro bits con posted
    rw [exec_declineArrival, execDeclineArrival, posted]
    simp
  · intro bits dev con posted here overtakes
    rw [exec_withdrawalArrival, execWithdrawalArrival, posted]
    simp [here, overtakes]
  · intro bits dev con posted here found
    have arrives := exec_withdrawalArrival msg s
    simp only [execWithdrawalArrival, posted, here, found, ne_eq, not_true_eq_false, Bool.false_eq_true, or_self, if_false] at arrives
    refine ⟨_, arrives, ?_⟩
    obtain ⟨posts, hbm, l2, chron⟩ := State.mapCoreWith_keeps ((s.unpost msg).withdrawPosts dev (noticeProd bits) (noticeBid bits) con)
      (con % 512) _ _
    refine ⟨posts, hbm, l2, chron, fun n only sameDev sameProd sameBid waiting windowed => ?_⟩
    have same : (((s.unpost msg).withdrawPosts dev (noticeProd bits) (noticeBid bits) con).core (con % 512)) = s.core (con % 512) := rfl
    rw [State.mapCoreWith_core _ _ _ _ (by simp [same, only, sameDev, sameProd, sameBid, waiting]), same]
    simp [only, sameDev, sameProd, sameBid, waiting, windowed, Core.putNotice]

/-- Settles O39: each step of a pull is its definition in the case given. -/
theorem pullSteps : Obligations.PullSteps := by
  unfold Obligations.PullSteps
  intro core s hcore
  have here : ¬512 ≤ core := by omega
  refine ⟨?_, ?_, ?_, ?_, ?_, ?_, ?_, ?_⟩
  · intro n requesting runs may noRead
    rw [exec_segmentRequest, execSegmentRequest, if_neg here]
    simp only [may, noRead, requesting, runs, Bool.not_true, Bool.false_eq_true, if_false, if_true]
  · intro i may read
    rw [exec_segmentRequest, execSegmentRequest, if_neg here]
    simp only [may, read, Bool.not_true, Bool.false_eq_true, if_false]
  · intro n idle runs may choice kind out
    rw [exec_helmPullStart, execHelmPullStart, if_neg here]
    simp [idle, runs, may, choice, kind, out]
  · intro n idle runs may choice inside room
    rw [exec_helmPullStart, execHelmPullStart, if_neg here]
    simp only [idle, runs, may, choice, if_neg inside, room, Bool.not_true, Option.isSome_none, Bool.or_self, Bool.false_eq_true, if_false] <;> rfl
  · intro entry n hentry at_ ripe
    rw [exec_noticeRipe, execNoticeRipe, if_neg (by omega)]
    simp only [State.mapCore, at_, ripe, if_true]
  · intro msg bits con entry seg posted
    have reads := exec_segmentRead msg s
    simp only [execSegmentRead, posted, ne_eq, not_true_eq_false, if_false] at reads
    refine ⟨fun slot named notShared => ?_, fun gone => ?_⟩
    · rw [reads]
      simp only [named, notShared, Bool.false_eq_true, if_false]
    · rw [reads]
      simp only [gone]
  · intro entry seg rest n p bits dev data w queue at_ posts response free
    rw [exec_segmentLand, execSegmentLand, if_neg here]
    simp only [queue, posts, at_, List.findSome?_cons, response, and_self, if_true]
    rw [if_neg]
    simp only [Bool.and_eq_true, Bool.or_eq_true, Bool.not_eq_true', beq_iff_eq, not_and, not_or, and_imp]
    intro answered kept last
    obtain ⟨arrives, closes⟩ := free answered kept last
    exact ⟨fun drain => by simp [arrives drain], fun own => by simp [closes own]⟩
  · rw [exec_collSegmentApply, execCollSegmentApply, if_neg here]

end Sys2Proof.Machine

/-! SUPPORT. Tiles that end, remote blocks, and the states of a queue (R47, R251, R304 to R306, R317, R370). -/

namespace Sys2Proof.Machine
open Sys2Proof Sys2Proof.Safety

theorem Memory.length_readBytes (m : Memory) : ∀ (n a : Nat), (m.readBytes a n).length = n
  | 0, _ => rfl
  | n + 1, a => congrArg (· + 1) (Memory.length_readBytes m n (a + 1))

/-- A core whose tile may end normally has one that is not dead. -/
theorem State.ends_of_finished {s : State} {core : Nat} (finished : (s.core core).finished = true) (open_ : s.coreFenced core = false) :
    s.ends core = true := by
  rw [State.ends, finished, open_]
  rfl

/-- What a turn for the block at an inbox's head comes to while the source holds it (R272, R317). -/
theorem execRemoteBlockServe_of_held {core : Nat} {b : RemoteBlock} {rest : List RemoteBlock} {s : State} (hcore : core < 512)
    (inbox : (s.core core).inbox = b :: rest) (works : (s.core core).working = true) (open_ : s.coreFenced core = false)
    (may : (s.core core).mayRequest s.tick = true) :
    let holds (m : Core) : Bool := m.ranges.any (fun r => r.owner == .remq core b.id)
    let source := s.coreWith b.source holds
    let part := source.spad.readBytes (b.offset + b.bytes.length) (min 512 (b.length source.spad - b.bytes.length))
    let t := s.mapCore core (fun k => { k with
      inbox := { b with bytes := b.bytes ++ part } :: rest, helm := { k.helm with lastRequest := some s.tick } })
    holds source = true →
    execRemoteBlockServe core s = .next (if b.length source.spad ≤ (b.bytes ++ part).length then
      (t.mapCoreWith b.source holds (fun m => m.dropRanges (t.cycleOf b.source) (.remq core b.id))).acquireCaches core (narrowest core b.source)
    else t) := by
  intro holds source part t held
  simp only [holds, source] at held
  simp only [execRemoteBlockServe, if_neg (Nat.not_le.2 hcore), inbox, works, open_, held, may, Bool.not_true, Bool.or_self,
    Bool.false_eq_true, if_false, if_true]
  rfl

/-- Settles O40: each step of a tile is its definition in the case given; of a remote block, the part read is 512 bytes or the rest. -/
theorem tileSteps : Obligations.TileSteps := by
  unfold Obligations.TileSteps
  refine ⟨fun core t s hcore tile => ⟨?_, ?_, ?_⟩, ?_, ?_⟩
  · intro finished open_
    rw [exec_tileEnd, execTileEnd, if_neg (Nat.not_le.2 hcore)]
    simp only [tile, State.ends_of_finished finished open_, Bool.not_true, Bool.false_eq_true, if_false]
  · intro alive ends
    rw [exec_tileEndByFault, execTileEndByFault, if_neg (Nat.not_le.2 hcore)]
    simp only [tile]
    rw [if_neg (by rcases ends with e | e <;> simp [alive, e])]
  · intro alive open_
    rw [exec_tileEndByFault, execTileEndByFault, if_neg (Nat.not_le.2 hcore)]
    simp only [tile, alive, open_, Bool.or_self, Bool.not_false, Bool.or_true, if_true]
  · intro core q s hcore deadlocked first
    rw [exec_tokenDeadlock, execTokenDeadlock, if_neg (Nat.not_le.2 hcore), if_neg (by simp [deadlocked])]
    simp only [first]
  · intro core b rest s hcore inbox works open_ holds source
    refine ⟨fun held may more => ?_, fun held may last fits => ?_, fun released some_ few zero all => ?_⟩
    · rw [exec_remoteBlockServe, execRemoteBlockServe_of_held hcore inbox works open_ may held, if_neg]
      · rw [Nat.min_eq_left (show 512 ≤ b.length source.spad - b.bytes.length by omega)]
      · rw [List.length_append, Memory.length_readBytes]
        show ¬b.length source.spad ≤ b.bytes.length + min 512 (b.length source.spad - b.bytes.length)
        omega
    · intro t
      rw [exec_remoteBlockServe, execRemoteBlockServe_of_held hcore inbox works open_ may held, if_pos]
      · rw [Nat.min_eq_right last]
      · rw [List.length_append, Memory.length_readBytes]
        show b.length source.spad ≤ b.bytes.length + min 512 (b.length source.spad - b.bytes.length)
        omega
    · simp only [holds, source] at released
      rw [exec_remoteBlockServe, execRemoteBlockServe, if_neg (Nat.not_le.2 hcore)]
      simp only [inbox, works, open_, released, some_, zero, all, Nat.not_lt.2 few, Bool.not_true, Bool.or_self, Bool.false_eq_true, if_false, if_true,
        decide_false, decide_true, bne_self_eq_false, Bool.not_false, Bool.and_self]

/-! ### Queues -/

@[simp] theorem State.queue_mapCores (s : State) (f : Nat → Core → Core) (q : Nat) : (s.mapCores f).queue q = s.queue q := rfl

/-- With no killed tile of a queue on any core, no core is chosen by a test that only such a tile passes. -/
theorem State.filter_cores_eq_nil {s : State} {q : Nat}
    (noKilled : s.cores.all (fun x => match x.2.tile with
      | some t => !(t.queue == q && t.killed)
      | none => true) = true)
    {p : Nat × Core → Bool} (killed : ∀ y, p y = true → ∃ t, y.2.tile = some t ∧ (t.queue == q && t.killed) = true) :
    s.cores.filter p = [] := by
  rw [List.filter_eq_nil_iff]
  intro y hy is
  obtain ⟨t, tile, dead⟩ := killed y is
  have kept := List.all_eq_true.1 noKilled y hy
  simp only [tile, dead] at kept
  cases kept

/-- Settles O41: each write of a queue's control is its definition in the queue's state; a queue to which no killed tile is left ends at once. -/
theorem queueControl : Obligations.QueueControl := by
  unfold Obligations.QueueControl
  intro q value s hq x bad
  have here : ¬16384 ≤ q := Nat.not_le.2 hq
  refine ⟨?_, ?_, ?_, ?_, ?_, ?_, ?_⟩
  · intro disabled
    simp only [x] at disabled
    have enables := exec_qctlEnable q s
    simp only [execQctlEnable, if_neg here, disabled] at enables
    by_cases refused : bad = true
    · simp only [bad, x] at refused
      rw [if_pos refused] at enables
      refine ⟨_, enables, fun good => ?_, fun _ => ?_, fun p other => State.queue_mapQueue_other _ _ _ _ other⟩
      · exact absurd (good.symm.trans refused) (by decide)
      · simp [disabled]
    · have accepted := refused
      simp only [bad, x] at refused
      rw [if_neg refused] at enables
      refine ⟨_, enables, fun _ => ?_, fun wrong => absurd wrong accepted, fun p other => ?_⟩
      · simp
      · exact (State.queue_mapCores ..).trans (State.queue_mapQueue_other _ _ _ _ other)
  · intro faulted
    simp only [x] at faulted
    rw [exec_qctlEnable, execQctlEnable, if_neg here]
    simp only [faulted]
  · intro may
    rw [exec_qctlDrain, execQctlDrain, if_neg here]
    rcases may with is | is <;> simp only [x] at is <;> simp only [is]
  · intro may
    rw [exec_qctlAbort, execQctlAbort, if_neg here]
    rcases may with is | is | is <;> simp only [x] at is <;> simp only [is]
  · intro draining empty
    rw [exec_queueDrainDone, execQueueDrainDone, if_neg here, if_pos ⟨draining, empty⟩]
  · intro aborting noKilled empty
    simp only [x] at aborting
    rw [exec_queueAbortDone, execQueueAbortDone, if_neg here, if_neg (by simp [aborting])]
    simp only
    rw [State.filter_cores_eq_nil noKilled]
    · simp only [List.map_nil, List.foldl_nil, empty, if_true]
    · intro y is
      split at is
      · exact ⟨_, ‹_›, is⟩
      · cases is
  · refine ⟨_, by rw [exec_qwrDoorbell, execQwrDoorbell, if_neg here], ?_, ?_, ?_, fun p other => State.queue_mapQueue_other _ _ _ _ other, rfl, rfl⟩
    · rw [State.queue_mapQueue_same, BitVec.toNat_ofNat]
      omega
    · rw [State.queue_mapQueue_same]
    · rw [State.queue_mapQueue_same]

/-! ### Launches -/

/-- A packet of VER 1 for one tile on core 0, with HELMCFG as at reset. -/
def onePacket : List Byte :=
  natBytes 64 (1 + 0xF0 * 2 ^ 16 + 0x0001000100010001 * 2 ^ 192 + 2 ^ 16 * 2 ^ 256 + (3 * 2 ^ 36 + 0x400 * 2 ^ 20 + 0x2000) * 2 ^ 384)

/-- Queue 0 has this packet to be read. The table of cores lists core 0 twice: at its reset value, and with a byte in its scratchpad, which a
read of the table does not see. -/
def listedTwice : State :=
  { State.reset.setQueue 0 { Queue.reset with state := .enabled, qsize := 128, cent := 2, qrd := 64, qcfg := 0x100010000 } with
    hbm := (Memory.writeBytes [] 64 onePacket)
    cores := [(0, Core.reset), (0, { Core.reset with spad := Memory.write [] 0 1 })] }

/-- The scratchpad of core 0 in a next state. -/
def Result.spadOfCore0 : Result → Memory
  | .next t => (t.core 0).spad
  | .fault _ | .refused _ => []

theorem exec_packetRead_listedTwice : Result.spadOfCore0 (exec (.packetRead 0) listedTwice) = Memory.write [] 0 1 := by
  decide +kernel

/-- Refutes O42: where the table of cores lists a core twice, the first time at its reset value (`listedTwice`), reading a packet drops that
entry, and the core's scratchpad is no longer the one that stood before. -/
theorem not_launchSteps : ¬ Obligations.LaunchSteps := by
  unfold Obligations.LaunchSteps
  intro claim
  obtain ⟨t, reads, -, -, -, -, kept⟩ := (claim 0 0 0 listedTwice (by decide) (by decide)).1 (by decide +kernel) (by decide +kernel)
    (by decide +kernel) (by decide +kernel) (by decide +kernel) (by decide +kernel) (by decide +kernel) (by decide +kernel)
    (by decide +kernel) (by decide +kernel) (by decide +kernel) (by decide +kernel)
  have seen := exec_packetRead_listedTwice
  rw [reads] at seen
  exact absurd ((kept 0).1.symm.trans seen) (by decide +kernel)

end Sys2Proof.Machine

/-! SUPPORT. Zeros written and read; what an abort of a queue leaves of the shards; the steps of shards (R336 to R343). -/

namespace Sys2Proof.Machine
open Sys2Proof Sys2Proof.Safety

/-! ### Zeros -/

/-- A write of 0 leaves a byte of HBM that reads 0 so. -/
theorem State.hbm_physWrite_zero {s : State} {a : Nat} (zero : s.hbm.read a = 0) (pa : Nat) : (s.physWrite true pa 0).hbm.read a = 0 := by
  unfold State.physWrite
  split
  · next at_ _ =>
    simp only [if_true, State.hbmWrite]
    split
    · exact zero
    · by_cases same : a = at_
      · show (s.hbm.write at_ 0).read a = 0
        rw [same, Memory.read_write_same]
      · show (s.hbm.write at_ 0).read a = 0
        rw [Memory.read_write_other _ _ _ _ same, zero]
  all_goals exact zero

theorem State.hbm_physWriteBytes_zeros {a : Nat} : ∀ (n : Nat) {s : State} (pa : Nat), s.hbm.read a = 0 →
    (s.physWriteBytes true pa (List.replicate n 0)).hbm.read a = 0
  | 0, _, _, zero => zero
  | n + 1, _, _, zero => State.hbm_physWriteBytes_zeros n _ (State.hbm_physWrite_zero zero _)

theorem Memory.read_clear : ∀ (m : Memory) (lo len a : Nat), lo ≤ a → a < lo + len → (m.clear lo len).read a = 0
  | [], _, _, _, _, _ => rfl
  | (k, v) :: r, lo, len, a, low, high => by
    have rest := Memory.read_clear r lo len a low high
    unfold Memory.clear at rest ⊢
    rw [List.filter_cons]
    split
    · next outside =>
      simp only [Bool.or_eq_true, decide_eq_true_eq] at outside
      exact (if_neg (by omega)).trans rest
    · exact rest

/-! ### What an abort of a queue leaves -/

/-- What keeps a part of the state keeps it over a list. -/
theorem State.foldl_keeps {α β : Type} (part : State → β) (f : State → α → State) (hf : ∀ s a, part (f s a) = part s) :
    ∀ (l : List α) (s : State), part (l.foldl f s) = part s
  | [], _ => rfl
  | a :: l, s => (State.foldl_keeps part f hf l (f s a)).trans (hf s a)

theorem State.mapCoreWith_shards (s : State) (core : Nat) (p : Core → Bool) (f : Core → Core) : (s.mapCoreWith core p f).shards = s.shards := by
  unfold State.mapCoreWith
  split <;> rfl

theorem State.withdraw_shards (s : State) (core bid : Nat) : (s.withdraw core bid).shards = s.shards :=
  (State.foldl_keeps State.shards _ (by intros; rfl) _ _).trans (State.foldl_keeps State.shards _ (by intros; rfl) _ _)

theorem State.declineNotices_shards (s : State) (core : Nat) (l : List Notice) : (s.declineNotices core l).shards = s.shards := by
  refine State.foldl_keeps State.shards _ (fun t n => ?_) l s
  split <;> rfl

theorem State.leaveGroups_shards (s : State) (core : Nat) (launch : Option (Nat × Nat)) : (s.leaveGroups core launch).shards = s.shards := by
  refine State.foldl_keeps State.shards _ (fun t n => ?_) _ s
  dsimp only
  split <;> rfl

theorem State.discardContexts_shards (s : State) (p : SavedContext → Bool) : (s.discardContexts p).shards = s.shards := by
  refine (State.foldl_keeps State.shards _ (fun _ _ => State.leaveGroups_shards ..) _ _).trans
    (State.foldl_keeps State.shards _ (fun t x => ?_) _ s)
  exact (State.foldl_keeps State.shards _ (fun _ _ => State.mapCoreWith_shards ..) _ _).trans
    ((State.declineNotices_shards ..).trans (State.foldl_keeps State.shards _ (fun _ _ => State.withdraw_shards ..) _ _))

theorem State.noteCount_shards (s : State) (cluster : Nat) : (s.noteCount cluster).shards = s.shards := by
  unfold State.noteCount
  split <;> rfl

theorem State.forgetCount_shards (s : State) (cluster : Nat) (launch : Nat × Nat) : (s.forgetCount cluster launch).shards = s.shards := by
  rw [State.forgetCount]

theorem State.lowerPhase_shards (s : State) (core : Nat) : (s.lowerPhase core).shards = s.shards := by
  unfold State.lowerPhase
  split
  · exact (State.noteCount_shards ..).trans (State.forgetCount_shards ..)
  · rfl

theorem State.retractCount_shards (s : State) (core : Nat) : (s.retractCount core).shards = s.shards := by
  unfold State.retractCount
  split
  · exact State.lowerPhase_shards ..
  · rfl

theorem State.settleYields_shards (s : State) : s.settleYields.shards = s.shards := rfl

theorem State.mapQueue_shards (s : State) (q : Nat) (f : Queue → Queue) : (s.mapQueue q f).shards = s.shards := rfl

theorem State.abortQueue_shards (s : State) (q : Nat) : (s.abortQueue q).shards = s.shards := by
  simp only [State.abortQueue, State.settleYields_shards, State.mapQueue_shards]
  refine (State.foldl_keeps State.shards _ (fun t c => ?_) _ _).trans ?_
  · exact State.retractCount_shards t c
  · exact State.discardContexts_shards ..

/-! ### Shards -/

theorem State.writeEntry_shards (s : State) (e lo : Nat) (data : List Byte) : (s.writeEntry e lo data).shards = s.shards :=
  (MemoryOnly.physWriteBytes ..).shards

theorem State.quarantine_patrolAt (s : State) (e cause : Nat) : (s.quarantine e cause).shards.patrolAt = s.shards.patrolAt := by
  refine (State.foldl_keeps (fun t => t.shards.patrolAt) _ (fun t q => ?_) _ _).trans ?_
  · exact congrArg Shards.patrolAt (State.abortQueue_shards t q)
  · show (s.writeEntry e 29 _).shards.patrolAt = _
    rw [State.writeEntry_shards]

/-- The range of a shard zeroed, its tags cleared and its entry overwritten with zeros (R343). -/
def State.wipeShard (s : State) (e : Nat) : State :=
  ((s.zeroHbm (s.entryBase e) (s.entryLength e)).tagFrames (s.entryBase e) (s.entryLength e) none).writeEntry e 0 (List.replicate 128 0)

theorem State.wipeShard_memory (s : State) (e : Nat) : MemoryOnly
    ((s.zeroHbm (s.entryBase e) (s.entryLength e)).tagFrames (s.entryBase e) (s.entryLength e) none) (s.wipeShard e) :=
  MemoryOnly.physWriteBytes ..

theorem State.wipeShard_cores (s : State) (e : Nat) : (s.wipeShard e).cores = s.cores := by
  rw [(s.wipeShard_memory e).cores, State.tagFrames, State.zeroHbm]

theorem State.wipeShard_queues (s : State) (e : Nat) : (s.wipeShard e).queues = s.queues := by
  rw [(s.wipeShard_memory e).queues, State.tagFrames, State.zeroHbm]

theorem State.wipeShard_read (s : State) (e a : Nat) (low : s.entryBase e ≤ a) (high : a < s.entryBase e + s.entryLength e) :
    (s.wipeShard e).hbm.read a = 0 := by
  refine State.hbm_physWriteBytes_zeros _ _ ?_
  rw [State.tagFrames, State.zeroHbm]
  exact Memory.read_clear _ _ _ _ low high

/-- Bits of a number shifted to a 64-bit register's place. -/
theorem testBit_register (value index i : Nat) :
    (value % 2 ^ 64 * 2 ^ (64 * index)).testBit i = (decide (i / 64 = index) && value.testBit (i % 64)) := by
  rw [Nat.testBit_mul_two_pow, Nat.testBit_mod_two_pow]
  by_cases here : i / 64 = index
  · have place : i - 64 * index = i % 64 := by omega
    rw [place, decide_eq_true (show i ≥ 64 * index by omega), decide_eq_true (show i % 64 < 64 by omega), decide_eq_true here]
    simp
  · rw [decide_eq_false here, Bool.false_and]
    by_cases above : i ≥ 64 * index
    · rw [decide_eq_false (show ¬i - 64 * index < 64 by omega)]
      simp
    · rw [decide_eq_false above, Bool.false_and]

/-- Settles O43: each command and each check is its definition in the case given; a release writes zeros over zeros. -/
theorem shardSteps : Obligations.ShardSteps := by
  unfold Obligations.ShardSteps
  intro e index value addr data s he
  have here : ¬4096 ≤ e := Nat.not_le.2 he
  have ingress : exec (.wcmdIngress e) s = .next (s.registerShard e true) := by rw [exec_wcmdIngress, execWcmdIngress, if_neg here]
  have local_ : exec (.wcmdLocal e) s = .next (s.registerShard e false) := by rw [exec_wcmdLocal, execWcmdLocal, if_neg here]
  refine ⟨?_, ?_, fun _ => ingress, fun _ => local_, ?_, ?_, ?_, ?_, ?_, ?_, ?_, ?_, ?_, ?_⟩
  · intro runs bad
    rw [ingress, State.registerShard]
    simp [runs, bad]
  · intro runs bad
    rw [local_, State.registerShard]
    simp [runs, bad]
  · intro other
    rw [ingress, State.registerShard]
    simp [other]
  · intro other
    rw [local_, State.registerShard]
    simp [other]
  · intro other
    rw [exec_wcmdRelease, execWcmdRelease, if_neg here, if_pos (by simp [other])]
  · intro runs listed used idle
    have releases : exec (.wcmdRelease e) s = .next ({ s.wipeShard e with shards := { (s.wipeShard e).shards with
        landed := Table.set [] (s.wipeShard e).shards.landed e [] } }.wcmdResult 0) := by
      rw [exec_wcmdRelease, execWcmdRelease, if_neg here, if_neg (by simp [runs]), if_neg (by omega), if_neg (by simp [idle])]
      rfl
    refine ⟨_, releases, ?_⟩
    simp only [State.wcmdResult, Table.get_set_same]
    exact ⟨trivial, trivial, trivial, s.wipeShard_cores e, s.wipeShard_queues e, s.wipeShard_read e⟩
  · intro runs listed used active
    rw [exec_wcmdRelease, execWcmdRelease, if_neg here, if_neg (by simp [runs]), if_neg (by omega), if_pos active]
  · intro loading
    rw [exec_shardBlockWrite, execShardBlockWrite, loading]
  · intro listed checking
    have checks := exec_shardLocalCheckDone e s
    rw [execShardLocalCheckDone, if_neg here, if_neg (by simp [checking]; omega)] at checks
    refine ⟨fun bad => ?_, fun good => ⟨fun matches_ => ?_, fun differs => ?_⟩⟩
    · rw [checks, if_pos bad]
    · rw [checks, if_neg (by simp [good]), if_pos matches_]
    · rw [checks, if_neg (by simp [good]), if_neg (by simp [differs])]
  · intro listed loading landed key iv tagged
    have checks := exec_shardIngressCheckDone e s
    rw [execShardIngressCheckDone, if_neg here, if_neg (by simp [loading, landed]; omega)] at checks
    refine ⟨fun wrong => ?_, fun right differs => ?_, fun right matches_ => ?_⟩
    · rw [checks]
      exact if_pos wrong
    · rw [checks]
      exact (if_neg (not_not.2 right)).trans (if_neg (by simp [differs]))
    · rw [checks]
      exact (if_neg (not_not.2 right)).trans (if_pos matches_)
  · intro set due
    refine ⟨_, by rw [exec_shardPatrolPass, execShardPatrolPass, if_neg (by omega)], ?_⟩
    refine State.foldl_keeps (fun t => t.shards.patrolAt) _ (fun t e => ?_) _ _
    split
    · rfl
    · split
      · exact State.quarantine_patrolAt ..
      · split
        · exact congrArg Shards.patrolAt (State.writeEntry_shards ..)
        · exact State.quarantine_patrolAt ..
  · intro low
    refine ⟨_, (exec_wfenceClear index value s).trans (if_neg (by omega)), fun i hi => ?_, rfl, rfl⟩
    simp only [BitVec.getLsbD_and, BitVec.getLsbD_not, BitVec.getLsbD_ofNat, hi, decide_true, Bool.true_and, testBit_register]

end Sys2Proof.Machine

/-! SUPPORT. The steps of a port: its configuration, its training, offers and their pulls, replays and the fence (R351, R358, R359, R374, R393). -/

namespace Sys2Proof.Machine
open Sys2Proof Sys2Proof.Safety

theorem onNumberedPort_next {port : Nat} (hport : port < 24) (f : Unit → State) : onNumberedPort port f = .next (f ()) :=
  if_neg (Nat.not_le.2 hport)

theorem State.post_ports (s : State) (m : Message) : (s.post m).ports = s.ports := rfl

theorem State.port_post (s : State) (m : Message) (p : Nat) : (s.post m).port p = s.port p := rfl

/-- Settles O44: each step of a port is its definition in the case given. -/
theorem portSteps : Obligations.PortSteps := by
  unfold Obligations.PortSteps
  intro p s hp
  have here : ¬24 ≤ p := Nat.not_le.2 hp
  refine ⟨?_, ?_, ?_, ?_, ?_, ?_, ?_, ?_, ?_, ?_⟩
  · intro value
    rw [exec_pcfgWrite, execPcfgWrite, if_neg here]
  · intro value up
    rw [exec_pcfgWrite, execPcfgWrite, if_neg here, State.writePcfg, if_pos (.inl up)]
  · intro peer hpeer training early
    have trains := exec_portTrained p peer s
    rw [execPortTrained, if_neg (by omega)] at trains
    simp only [if_neg (show ¬((s.port p).state ≠ .training ∨ (s.port p).trainStart + trainingLimit ≤ s.tick) by
      simp only [training, trainingLimit, ne_eq, not_true_eq_false, false_or]; omega)] at trains
    refine ⟨fun mode self => ?_, fun other => ?_⟩
    · rw [if_pos ⟨mode, self⟩] at trains
      exact ⟨_, trains, by rw [State.port_mapPort_same]⟩
    · rw [if_neg other] at trains
      refine ⟨_, trains, ?_, ?_, ?_, fun q different => State.port_mapPort_other _ _ _ _ different⟩ <;> rw [State.port_mapPort_same]
  · intro training late
    refine ⟨_, by rw [exec_portTrainingTimeout, execPortTrainingTimeout, if_neg here, if_pos ⟨training, late⟩], ?_,
      fun q different => State.port_mapPort_other _ _ _ _ different⟩
    rw [State.port_mapPort_same]
  · intro o up
    have arrives : exec (.writeOfferArrival p o) s = .next ((s.credited p).fresh.2.mapPort p (fun x =>
        { x with offers := x.offers ++ [⟨o, s.nextId⟩] })) := by
      rw [exec_writeOfferArrival, execWriteOfferArrival, onNumberedPort_next hp, if_pos up]
      rfl
    have credited : ((s.credited p).fresh.2).port p = { s.port p with credit := s.tick } :=
      State.port_mapPort_same s p (fun x => { x with credit := s.tick })
    refine ⟨_, arrives, ?_, ?_, State.mapPort_hbm .., State.mapPort_cores ..⟩ <;> rw [State.port_mapPort_same, credited]
  · intro y rest offers up paced fresh short room
    have whole : min 512 y.offer.data.length = y.offer.data.length := by omega
    have pulls := exec_writeOfferPull p s
    rw [execWriteOfferPull, onNumberedPort_next hp] at pulls
    simp only [offers, fresh, Nat.sub_zero, whole, Nat.zero_add, Nat.le_refl, if_true] at pulls
    rw [if_neg (by
      simp only [up, Nat.not_lt.2 room, bne_self_eq_false, decide_false, Bool.or_false]
      split
      · simp [paced _ ‹_›]
      · simp)] at pulls
    refine ⟨_, pulls, ?_⟩
    simp only [State.port_post, State.port_setPort_same]
    exact ⟨trivial, trivial, trivial, rfl, trivial, rfl⟩
  · intro y rest offers full
    rw [exec_writeOfferPull, execWriteOfferPull, onNumberedPort_next hp]
    simp only [offers]
    rw [if_pos]
    simp [full]
  · intro up
    refine ⟨_, by rw [exec_flitReplay, execFlitReplay, onNumberedPort_next hp, if_pos up], ?_, ?_⟩ <;> rw [State.port_mapPort_same]
  · intro up limit
    refine ⟨_, ?_, rfl⟩
    rw [exec_portFence, execPortFence, onNumberedPort_next hp]
    exact congrArg _ (if_pos ⟨up, limit⟩)
  · intro addr n up few
    have answers : exec (.remoteReadRequest p addr n) s = .next ((s.credited p).mapPort p (fun x => x.answer (s.servedRead addr n))) := by
      rw [exec_remoteReadRequest, execRemoteReadRequest, onNumberedPort_next hp, if_neg (by simp [up]; omega)]
    refine ⟨_, answers, (State.mapPort_hbm ..).trans (State.mapPort_hbm ..), (State.mapPort_cores ..).trans (State.mapPort_cores ..), ?_⟩
    rw [State.port_mapPort_same, State.credited, State.port_mapPort_same]
    rfl

/-! ### Posted writes -/

/-- A posted write of core 0 to an offset of device 1 at which no home backs memory; its bytes have gone there. -/
def unbackedWrite : RemoteWrite :=
  { id := 3, entry := 31, addr := 2 ^ 51 + 2 ^ 41 + 1536 * 2 ^ 30, data := [7], port := 8, seq := .c, pc := 0, command := none, record := none,
    iter := 0, slot := 0, sent := true, given := 1, holes := [] }

def withUnbackedWrite : State := State.reset.mapCore 0 (fun k => { k with posted := [unbackedWrite] })

/-- What the outside's memory holds, in a next state, where the write goes. -/
def Result.outsideByte : Result → Byte
  | .next t => t.outside.read unbackedWrite.addr
  | .fault _ | .refused _ => 0

/-- The write is a fault, and its byte stands nowhere. -/
theorem exec_remoteWriteAck_unbacked : Result.outsideByte (exec (.remoteWriteAck 0 31 .ok) withUnbackedWrite) = 0 := by
  decide +kernel

/-- Refutes O45: an acknowledged write to an offset that its home does not back (`withUnbackedWrite`) is a fault of its sequencer, and its bytes
do not stand at the home. -/
theorem not_remoteSteps : ¬ Obligations.RemoteSteps := by
  unfold Obligations.RemoteSteps
  intro claim
  have outcome := ((claim withUnbackedWrite).1 0 31 unbackedWrite (by decide) (by decide +kernel) (by decide +kernel)).1
  have byte := congrArg Result.outsideByte outcome
  rw [exec_remoteWriteAck_unbacked] at byte
  exact absurd byte (by decide +kernel)

end Sys2Proof.Machine

/-! SUPPORT. ECC errors, and what lifting a fence leaves: a wiped core is no longer listed, and no later wipe lists it (R366, R371 to R375). -/

namespace Sys2Proof.Machine
open Sys2Proof Sys2Proof.Safety

/-! ### Bits -/

theorem getLsbD_setBit {n : Nat} (m : BitVec n) (i j : Nat) (b : Bool) (hi : i < n) :
    (setBit m i b).getLsbD j = if j = i then b else m.getLsbD j := by
  unfold setBit
  by_cases same : j = i
  · subst same
    cases b <;> simp [hi]
  · have other : ¬i = j := fun e => same e.symm
    cases b <;> simp [same, other]
    intro set
    exact BitVec.lt_of_getLsbD set

/-- A written value with one 1 clears the bit that it stands over, where that is set. -/
theorem clearedBits_single {n : Nat} (reg : BitVec n) (mask i : Nat) (hi : i < n) (only : ∀ j, mask.testBit j = decide (j = i)) :
    clearedBits reg mask = if reg.getLsbD i then [i] else [] := by
  unfold clearedBits
  have one : ∀ j, (reg.getLsbD j && mask.testBit j) = (decide (j = i) && reg.getLsbD i) := by
    intro j
    rw [only]
    by_cases same : j = i
    · subst same
      simp
    · simp [same]
  rw [List.filter_congr (fun j _ => one j)]
  by_cases set : reg.getLsbD i = true
  · simp only [set, Bool.and_true, if_true]
    rw [List.filter_eq, List.count_eq_one_of_mem List.nodup_range (List.mem_range.2 hi)]
    rfl
  · simp [set]

theorem testBit_two_pow' (i j : Nat) : (2 ^ i).testBit j = decide (j = i) := by
  rw [Nat.testBit_two_pow]
  exact decide_eq_decide.2 eq_comm

/-- The value written to a 64-bit register's place, of a bit of the whole. -/
theorem two_pow_register (c : Nat) : 2 ^ (c % 64) % 2 ^ 64 * 2 ^ (64 * (c / 64)) = 2 ^ c := by
  rw [Nat.mod_eq_of_lt (Nat.pow_lt_pow_right (by omega) (by omega)), ← Nat.pow_add, Nat.mod_add_div]

/-! ### Cores that the table does not list -/

theorem Table.fst_of_mem_put {α : Type} {n : Nat} {v : α} : ∀ {t : Table α} {x : Nat × α}, x ∈ Table.put t n v → x.1 = n ∨ x ∈ t
  | [], x, h => .inl (by rw [List.mem_singleton.1 h])
  | (k, w) :: r, x, h => by
    unfold Table.put at h
    split at h
    · rcases List.mem_cons.1 h with rfl | rest
      · exact .inl rfl
      · exact .inr (List.mem_cons_of_mem _ rest)
    · split at h
      · rcases List.mem_cons.1 h with rfl | rest
        · exact .inl rfl
        · exact .inr rest
      · rcases List.mem_cons.1 h with rfl | rest
        · exact .inr List.mem_cons_self
        · exact (Table.fst_of_mem_put rest).imp_right (List.mem_cons_of_mem _)

theorem Table.mem_of_mem_erase {α : Type} {n : Nat} : ∀ {t : Table α} {x : Nat × α}, x ∈ Table.erase t n → x ∈ t ∧ x.1 ≠ n
  | [], _, h => absurd h List.not_mem_nil
  | (k, w) :: r, x, h => by
    unfold Table.erase at h
    split at h
    · exact (Table.mem_of_mem_erase h).imp_left (List.mem_cons_of_mem _)
    · next other =>
      rcases List.mem_cons.1 h with rfl | rest
      · exact ⟨List.mem_cons_self, fun e => other e.symm⟩
      · exact (Table.mem_of_mem_erase rest).imp_left (List.mem_cons_of_mem _)

theorem Table.get_of_not_listed {α : Type} (d : α) {n : Nat} : ∀ {t : Table α}, (∀ x ∈ t, x.1 ≠ n) → Table.get d t n = d
  | [], _ => rfl
  | (k, v) :: _, h => (if_neg (fun e => h (k, v) List.mem_cons_self e.symm)).trans
      (Table.get_of_not_listed d (fun x hx => h x (List.mem_cons_of_mem _ hx)))

/-- The table of cores does not list a core. -/
def State.Unlisted (s : State) (c : Nat) : Prop := ∀ x ∈ s.cores, x.1 ≠ c

theorem State.core_of_unlisted {s : State} {c : Nat} (h : s.Unlisted c) : s.core c = Core.reset := Table.get_of_not_listed _ h

theorem State.unlisted_setCore_other {s : State} {c j : Nat} (k : Core) (other : c ≠ j) (h : s.Unlisted c) : (s.setCore j k).Unlisted c := by
  intro x hx e
  unfold State.setCore at hx
  dsimp only [Table.set] at hx
  split at hx
  · exact h x (Table.mem_of_mem_erase hx).1 e
  · rcases Table.fst_of_mem_put hx with new | old
    · exact other (e.symm.trans new)
    · exact h x old e

theorem State.unlisted_setCore_reset (s : State) (c : Nat) : (s.setCore c Core.reset).Unlisted c := by
  intro x hx
  unfold State.setCore at hx
  dsimp only [Table.set] at hx
  rw [if_pos rfl] at hx
  exact (Table.mem_of_mem_erase hx).2

theorem State.unlisted_settleYields {s : State} {c : Nat} (h : s.Unlisted c) : s.settleYields.Unlisted c := by
  intro x hx
  obtain ⟨y, hy, rfl⟩ := List.mem_map.1 (List.mem_filter.1 hx).1
  exact h y hy

/-! ### What the end of a core's tile leaves -/

/-- The registers of faults stand, and a core that was not listed is not listed now. -/
def LeavesCore (c : Nat) (s t : State) : Prop := t.faults = s.faults ∧ (s.Unlisted c → t.Unlisted c)

section
variable {c : Nat}

theorem LeavesCore.refl (s : State) : LeavesCore c s s := ⟨rfl, id⟩

theorem LeavesCore.trans {s t u : State} (a : LeavesCore c s t) (b : LeavesCore c t u) : LeavesCore c s u :=
  ⟨b.1.trans a.1, fun h => b.2 (a.2 h)⟩

theorem LeavesCore.of_eq {s t : State} (faults : t.faults = s.faults) (cores : t.cores = s.cores) : LeavesCore c s t :=
  ⟨faults, fun h => by rwa [State.Unlisted, cores]⟩

theorem LeavesCore.of_memory {s t : State} (h : MemoryOnly s t) : LeavesCore c s t :=
  .of_eq h.faults h.cores

theorem LeavesCore.foldl {α : Type} (f : State → α → State) (hf : ∀ s a, LeavesCore c s (f s a)) :
    ∀ (l : List α) (s : State), LeavesCore c s (l.foldl f s)
  | [], s => .refl s
  | a :: l, s => (hf s a).trans (LeavesCore.foldl f hf l (f s a))

theorem LeavesCore.mapCore (s : State) {j : Nat} (f : Core → Core) (other : c ≠ j) : LeavesCore c s (s.mapCore j f) :=
  ⟨rfl, State.unlisted_setCore_other _ other⟩

/-- A core at its reset value passes no test that a listed one is meant by. -/
theorem LeavesCore.mapCoreWith (s : State) (j : Nat) (p : Core → Bool) (f : Core → Core) (fresh : p Core.reset = false) :
    LeavesCore c s (s.mapCoreWith j p f) := by
  unfold State.mapCoreWith
  split
  · next has =>
    refine ⟨rfl, fun h => State.unlisted_setCore_other _ ?_ h⟩
    rintro rfl
    rw [State.core_of_unlisted h, fresh] at has
    cases has
  · exact .of_eq rfl rfl

theorem LeavesCore.settleYields (s : State) : LeavesCore c s s.settleYields := ⟨rfl, State.unlisted_settleYields⟩

theorem LeavesCore.withdraw (s : State) (core bid : Nat) : LeavesCore c s (s.withdraw core bid) := by
  refine .trans (.trans ?_ (.foldl _ (fun t n => ?_) _ _)) (.foldl _ (fun t n => ?_) _ _)
  all_goals exact .of_eq rfl rfl

theorem LeavesCore.declineNotices (s : State) (core : Nat) (l : List Notice) : LeavesCore c s (s.declineNotices core l) := by
  refine .foldl _ (fun t n => ?_) l s
  split
  all_goals exact .of_eq rfl rfl

theorem LeavesCore.dropPulls (s : State) (core : Nat) : LeavesCore c s (s.dropPulls core) := .of_eq rfl rfl

theorem LeavesCore.leaveGroups (s : State) (core : Nat) (launch : Option (Nat × Nat)) : LeavesCore c s (s.leaveGroups core launch) := by
  refine .foldl _ (fun t n => ?_) _ s
  dsimp only
  split
  all_goals exact .of_eq rfl rfl

theorem LeavesCore.noteCount (s : State) (cluster : Nat) : LeavesCore c s (s.noteCount cluster) := by
  unfold State.noteCount
  split
  all_goals exact .of_eq rfl rfl

theorem LeavesCore.dropClean (s : State) (j : Nat) (pas : List Nat) (other : c ≠ j) : LeavesCore c s (s.dropClean j pas) := by
  refine .foldl _ (fun t pa => ?_) pas s
  split
  · split
    · exact .mapCore _ _ other
    · exact .refl _
  · exact .refl _

/-! Removed appends write over the structures with the cursor at the core. -/

theorem State.dropClean_cur (s : State) (core : Nat) (pas : List Nat) : (s.dropClean core pas).cur = s.cur := by
  refine State.foldl_keeps State.cur _ (fun t pa => ?_) pas s
  split
  · split <;> rfl
  · rfl

/-- With the cursor at core j, it stays there and nothing else is listed. -/
def LeavesFrom (j c : Nat) (s t : State) : Prop := s.cur.core = j → t.cur.core = j ∧ LeavesCore c s t

theorem LeavesFrom.frame {j : Nat} (other : c ≠ j) : Frame (LeavesFrom j c) where
  refl s := fun here => ⟨here, .refl s⟩
  trans a b := fun here => ⟨(b (a here).1).1, (a here).2.trans (b (a here).1).2⟩
  write s bytes := fun here => by
    have memory : MemoryOnly s (bytes.foldl (fun (s : State) w => s.physWrite false w.1 w.2) s) := .foldl _ (fun _ _ => .physWrite ..) _ _
    refine ⟨?_, ?_⟩
    · show ((bytes.foldl (fun (s : State) w => s.physWrite false w.1 w.2) s).dropClean _ _).cur.core = j
      rw [State.dropClean_cur, memory.cur, here]
    · exact (LeavesCore.of_memory memory).trans (.trans (.dropClean _ _ _ (by rwa [here])) (.of_eq rfl rfl))
  setRos s ppn b := fun here => ⟨by rw [(MemoryOnly.setRos s ppn b).cur, here], .of_memory (.setRos ..)⟩

theorem LeavesCore.removeAppends (s : State) {j : Nat} (a : Nat) (other : c ≠ j) : LeavesCore c s (s.removeAppends j a true) := by
  obtain ⟨u, kept, removed⟩ := s.removeAppends_eq j a
  have undone : LeavesCore c s (s.withoutAppends j a) :=
    .of_memory (.withoutAppends s j a)
  have moved : LeavesCore c (s.withoutAppends j a) { s.withoutAppends j a with cur := ⟨j, s.cur.seq, 0⟩ } := .of_eq rfl rfl
  have written := (kept _ (LeavesFrom.frame other) rfl).2
  rw [removed]
  exact ((undone.trans moved).trans written).trans (.trans (.mapCore _ _ other) (.of_eq rfl rfl))

theorem LeavesCore.discardRound (s : State) {j : Nat} (other : c ≠ j) : LeavesCore c s (s.discardRound j) := by
  unfold State.discardRound
  split
  · exact .refl s
  · exact (LeavesCore.removeAppends s 0 other).trans (.mapCore _ _ other)

theorem LeavesCore.dropTile (s : State) {j : Nat} (other : c ≠ j) : LeavesCore c s (s.dropTile j) := by
  unfold State.dropTile
  refine .trans (.trans (.trans (.trans (.declineNotices ..) (.trans (.dropPulls ..) (.discardRound _ other))) (.foldl _ (fun t b => ?_) _ _))
    (.foldl _ (fun t i => ?_) _ _)) (.mapCore _ _ other)
  · exact .mapCoreWith _ _ _ _ rfl
  · exact (LeavesCore.withdraw ..).trans (.mapCore _ _ other)

theorem LeavesCore.leaveTile (s : State) {j : Nat} (other : c ≠ j) : LeavesCore c s (s.leaveTile j) :=
  .trans (.trans (.trans (.noteCount ..) (.trans (.declineNotices ..) (.trans (.dropPulls ..) (.discardRound _ other)))) (.leaveGroups ..))
    (.mapCore _ _ other)

theorem LeavesCore.wipeCore (s : State) {j : Nat} (other : c ≠ j) : LeavesCore c s (s.wipeCore j) := by
  unfold State.wipeCore
  refine .trans (t := _) ?_ (.trans (LeavesCore.mapCore _ (fun _ => Core.reset) other) (.settleYields _))
  split
  · exact .refl s
  · exact .trans (.trans (.dropTile s other) (.leaveTile _ other)) (.of_eq rfl rfl)

end

theorem State.unlisted_wipeCore (s : State) (c : Nat) : (s.wipeCore c).Unlisted c :=
  State.unlisted_settleYields (State.unlisted_setCore_reset _ c)

theorem LeavesCore.wipe (c : Nat) (s : State) (j : Nat) : LeavesCore c s (s.wipeCore j) := by
  by_cases same : c = j
  · subst same
    exact ⟨(LeavesCore.wipeCore (c := c + 1) s (by omega)).1, fun _ => s.unlisted_wipeCore c⟩
  · exact .wipeCore s same

/-- Cores wiped one after the other. -/
def State.wipeCores (s : State) (cores : List Nat) : State := cores.foldl State.wipeCore s

theorem LeavesCore.wipeCores (c : Nat) (s : State) (cores : List Nat) : LeavesCore c s (s.wipeCores cores) :=
  .foldl State.wipeCore (LeavesCore.wipe c) cores s

theorem State.unlisted_wipeCores {c : Nat} {cores : List Nat} (s : State) (h : c ∈ cores) : (s.wipeCores cores).Unlisted c := by
  induction cores generalizing s with
  | nil => exact absurd h List.not_mem_nil
  | cons j l ih =>
    show ((s.wipeCore j).wipeCores l).Unlisted c
    rcases List.mem_cons.1 h with rfl | later
    · exact (LeavesCore.wipeCores c _ l).2 (s.unlisted_wipeCore c)
    · exact ih _ later

/-! ### Fences -/

theorem State.settleYields_faults (s : State) : s.settleYields.faults = s.faults := rfl

theorem State.setGroup_faults (s : State) (n : Nat) (g : Group) : (s.setGroup n g).faults = s.faults := rfl

theorem State.settleDie_faults (s : State) (die : Nat) : (s.settleDie die).faults = s.faults := by
  refine State.foldl_keeps State.faults _ (fun t i => ?_) _ s
  exact State.setGroup_faults ..

theorem State.fenceCore_faults (s : State) (c : Nat) : (s.fenceCore c).faults = { s.faults with fcore := setBit s.faults.fcore c true } := by
  rw [State.fenceCore, State.settleYields_faults, State.settleDie_faults]

theorem State.fenceCluster_faults (s : State) (c : Nat) : (s.fenceCluster c).faults = { s.faults with fclu := setBit s.faults.fclu c true } := by
  rw [State.fenceCluster, State.settleYields_faults, State.settleDie_faults]

theorem execEccCorrected_of_ok {site : EccSite} (ok : siteOk site = true) (s : State) : execEccCorrected site s = .next (match site with
    | .coreArray c => s.countCluster (clusterOf c) 1 0
    | .clusterTlb c => s.countCluster c 1 0
    | .l2Way sl _ _ => s.free.2.countCluster (8 * sl + s.free.1 % 8) 1 0
    | .hbmFrame f => s.countStack (f / 2 ^ 20) 1 0 0
    | .baseUnit u => s.countStack (u / 10) 1 0 0
    | .barrierNet _ | .port _ | .bridge _ => s) := by
  unfold execEccCorrected
  rw [if_neg (by simp [ok])]
  cases site <;> rfl

/-- Settles O46: each error is its site's line of the definition; a fence sets its bit last. -/
theorem eccSteps : Obligations.EccSteps := by
  unfold Obligations.EccSteps
  intro s
  have corrected (site : EccSite) (ok : siteOk site = true) := (exec_eccCorrected site s).trans (execEccCorrected_of_ok ok s)
  have uncorrectable (site : EccSite) (ok : siteOk site = true) :=
    (exec_eccUncorrectable site s).trans (show execEccUncorrectable site s = _ from if_neg (by simp [ok]))
  refine ⟨fun c hc => corrected (.coreArray c) (decide_eq_true hc), fun f ok => corrected _ ok, fun f ok => uncorrectable _ ok,
    fun c hc => ?_, fun c hc => ?_, fun u hu => ?_, fun sl st w hsl hst hw => ?_, fun d hd => ?_, fun p hp => ?_, fun st hst => ?_, exec_patrolScrub s⟩
  · refine ⟨_, uncorrectable (.coreArray c) (decide_eq_true hc), ?_⟩
    simp only [State.fenceCore_faults, getLsbD_setBit _ _ _ _ hc, if_true]
  · have ok : decide (c < 32) = true := decide_eq_true hc
    refine ⟨corrected (.clusterTlb c) ok, corrected (.barrierNet c) ok, uncorrectable (.barrierNet c) ok, _, uncorrectable (.clusterTlb c) ok, ?_⟩
    simp only [State.fenceCluster_faults, getLsbD_setBit _ _ _ _ hc, if_true]
  · have ok : decide (u < 240) = true := decide_eq_true hu
    refine ⟨corrected (.baseUnit u) ok, _, uncorrectable (.baseUnit u) ok, ?_, rfl, rfl⟩
    simp only [State.countStack, getLsbD_setBit _ _ _ _ (show u < 256 by omega), if_true]
  · have ok : siteOk (.l2Way sl st w) = true := by simp [siteOk, hsl, hst, hw]
    refine ⟨⟨_, corrected _ ok, rfl, rfl, rfl⟩, fun retired => ?_, fun fresh => ?_⟩
    · rw [uncorrectable _ ok]
      simp only [retired, if_true]
    · have loses := uncorrectable _ ok
      simp only [fresh, Bool.false_eq_true, if_false] at loses
      exact ⟨_, loses, rfl, rfl, rfl⟩
  · have ok : decide (d < 4) = true := decide_eq_true hd
    exact ⟨corrected (.bridge d) ok, uncorrectable (.bridge d) ok⟩
  · have ok : decide (p < 24) = true := decide_eq_true hp
    exact ⟨corrected (.port p) ok, uncorrectable (.port p) ok⟩
  · exact ⟨(exec_stackLosesTraining ..).trans (if_neg (by omega)), (exec_baseDieError ..).trans (if_neg (by omega))⟩

/-! ### Ends of fences -/

/-- Settles O47: the bits that the value names are cleared, and what they cover is wiped. -/
theorem recoveryWrites : Obligations.RecoveryWrites := by
  unfold Obligations.RecoveryWrites
  intro s
  refine ⟨?_, ?_, ?_, ?_, ?_, ?_, ?_, ?_, ?_⟩
  · intro c hc fenced free
    have gone : clearedBits s.faults.fcore (2 ^ (c % 64) % 2 ^ 64 * 2 ^ (64 * (c / 64))) = [c] := by
      rw [two_pow_register, clearedBits_single _ _ c hc (testBit_two_pow' c), if_pos fenced]
    refine ⟨_, (exec_unfenceCore ..).trans (if_neg (by omega)), ?_⟩
    simp only [gone, List.foldl_cons, List.foldl_nil]
    refine ⟨?_, State.core_of_unlisted (State.unlisted_wipeCore _ c)⟩
    rw [(LeavesCore.wipe c _ c).1]
    simp [getLsbD_setBit _ _ _ _ hc]
  · intro c hc open_
    rw [exec_unfenceCluster, execUnfenceCluster, clearedBits_single _ _ c hc (testBit_two_pow' c), if_neg (by simp [open_])]
    rfl
  · intro c hc fenced free
    refine ⟨_, exec_unfenceCluster .., ?_⟩
    rw [clearedBits_single _ _ c hc (testBit_two_pow' c), if_pos fenced]
    simp only [List.foldl_cons, List.foldl_nil]
    rw [← List.foldl_map (f := fun i => 16 * c + i) (g := State.wipeCore)]
    refine ⟨?_, fun i hi => State.core_of_unlisted (State.unlisted_wipeCores _ (List.mem_map.2 ⟨i, List.mem_range.2 hi, rfl⟩))⟩
    rw [(LeavesCore.foldl State.wipeCore (LeavesCore.wipe c) _ _).1]
    simp [getLsbD_setBit _ _ _ _ hc]
  · intro st hst fenced noShard
    refine ⟨_, exec_unfenceStack .., ?_⟩
    rw [clearedBits_single _ _ st hst (testBit_two_pow' st), if_pos fenced]
    simp only [List.foldl_cons, List.foldl_nil, noShard, List.isEmpty_nil, Bool.not_true, Bool.false_eq_true, if_false]
    refine ⟨?_, fun a low high => Memory.read_clear _ _ _ _ low high⟩
    simp [State.zeroHbm, getLsbD_setBit _ _ _ _ hst]
  · intro i v hi
    refine ⟨_, (exec_unfenceUnit ..).trans (if_neg (by omega)), fun u hu => ?_, rfl, rfl⟩
    simp only [BitVec.getLsbD_and, BitVec.getLsbD_not, BitVec.getLsbD_ofNat, hu, decide_true, Bool.true_and, testBit_register]
  · intro v set
    rw [exec_fllostClear, execFllostClear, if_neg set]
  · intro v clear
    rw [exec_fllostClear, execFllostClear, if_pos clear]
  · intro i v hi
    refine ⟨_, by rw [exec_errorCountClear, execErrorCountClear, if_neg (by decide), if_neg (by omega)], Table.get_set_same ..,
      fun j other => Table.get_set_other _ _ _ _ _ other⟩
  · intro i v hi
    exact ⟨_, by rw [exec_errorCountClear, execErrorCountClear, if_pos rfl, if_neg (by omega)], Table.get_set_same ..⟩

end Sys2Proof.Machine

/-! SUPPORT. Checkpoints, trust commands, power and time (R22, R377 to R379, R382 to R396). -/

namespace Sys2Proof.Machine
open Sys2Proof Sys2Proof.Safety

/-! ### Checkpoints -/

theorem State.withCheckpoint_checkpoint (s : State) (c : Checkpoint) : (s.withCheckpoint c).checkpoint = c := rfl

/-- Settles O48: each step of a checkpoint is its definition, and ends by writing the unit's state. -/
theorem checkpointSteps : Obligations.CheckpointSteps := by
  unfold Obligations.CheckpointSteps
  intro s c
  refine ⟨fun away idle fresh => ?_, fun quiescing noRecord quiet => ?_, fun copying open_ => ?_, fun copying => ?_, fun idle fresh disabled => ?_,
    fun restoring => ?_⟩
  · have saves : execCkctlSave s = .next ((s.withCheckpoint { s.checkpoint with state := .quiescing, frames := 0, bad := 0 }).stopAll) := by
      refine if_neg ?_
      simp only [c] at away idle fresh
      rcases away with host | ⟨d, remote⟩
      · simp [host, idle, fresh]
      · simp [remote, idle, fresh]
    exact (exec_ckctlSave s).trans saves
  · simp only [c] at quiescing
    have copies := exec_checkpointQuiesced s
    rw [execCheckpointQuiesced, if_neg (by simp [quiescing, noRecord, quiet])] at copies
    exact ⟨_, copies, rfl, rfl, rfl, rfl, rfl⟩
  · simp only [c] at copying open_
    refine ⟨_, by rw [exec_checkpointCopyDone, execCheckpointCopyDone, if_neg (by simp [copying, open_])], ?_⟩
    simp only [State.withCheckpoint_checkpoint, and_self]
  · simp only [c] at copying
    refine ⟨_, by rw [exec_checkpointError, execCheckpointError, if_neg (by simp [copying])], ?_⟩
    simp only [State.withCheckpoint_checkpoint, and_self]
  · simp only [c] at idle fresh
    rw [exec_ckctlRestore, execCkctlRestore, if_neg (by simp [idle, fresh, disabled])]
  · simp only [c] at restoring
    refine ⟨_, by rw [exec_checkpointRestoreDone, execCheckpointRestoreDone, if_neg (by simp [restoring])], ?_⟩
    simp only [State.withCheckpoint_checkpoint, true_and]
    rfl

/-! ### Trust commands -/

/-- A key stands in its slot. -/
def State.withKey (s : State) (asid : Nat) (key : List Byte) : State :=
  { s with trust := { s.trust with
      keys := Table.set zeroKey s.trust.keys asid key, installed := (s.trust.installed.erase asid) ++ [asid] } }.tcmdResult 0

theorem State.withKey_keys_same (s : State) (asid : Nat) (key : List Byte) :
    Table.get zeroKey (s.withKey asid key).trust.keys asid = key := Table.get_set_same zeroKey s.trust.keys asid key

theorem State.withKey_keys_other (s : State) (asid a : Nat) (key : List Byte) (other : a ≠ asid) :
    Table.get zeroKey (s.withKey asid key).trust.keys a = Table.get zeroKey s.trust.keys a :=
  Table.get_set_other zeroKey s.trust.keys asid a key other

theorem State.withKey_done (s : State) (asid : Nat) (key : List Byte) :
    (s.withKey asid key).trust.tcmd = 0 ∧ (s.withKey asid key).trust.busy = none ∧ (s.withKey asid key).hbm = s.hbm := ⟨rfl, rfl, rfl⟩

/-- A quote of these bytes stands at TOKADDR, and has used one signature index. -/
def State.quoted (s : State) (quote : List Byte) : State :=
  ({ s with trust := { s.trust with aidx := s.trust.aidx + 1 } }.physWriteBytes true s.trust.tokaddr.toNat quote).tcmdResult 0

theorem State.quoted_trust (s : State) (quote : List Byte) :
    (s.quoted quote).trust = { s.trust with aidx := s.trust.aidx + 1, tcmd := 0, busy := none } := by
  rw [State.quoted, State.tcmdResult, (MemoryOnly.physWriteBytes ..).trust]

/-- Settles O49: each trust command is its definition in the case given. -/
theorem trustSteps : Obligations.TrustSteps := by
  unfold Obligations.TrustSteps
  intro asid s hasid
  have here : ¬256 ≤ asid := Nat.not_le.2 hasid
  have installs (runs : s.tcmdRuns 3 asid = true) := (exec_tcmdKeyinstall asid s).trans ((if_neg here).trans (if_neg (by simp [runs])))
  have clears (runs : s.tcmdRuns 4 asid = true) := (exec_tcmdKeyclear asid s).trans ((if_neg here).trans (if_neg (by simp [runs])))
  have changes (runs : s.tcmdRuns 1 0 = true) := (exec_tcmdLcchange s).trans (if_neg (by simp [runs]))
  have quotes (runs : s.tcmdRuns 2 0 = true) := (exec_tcmdQuote s).trans (if_neg (by simp [runs]))
  refine ⟨?_, ?_, ?_, ?_, ?_, ?_, ?_, ?_, ?_, ?_⟩
  · intro runs bad
    exact (installs runs).trans (if_pos bad)
  · intro runs bad
    exact (clears runs).trans (if_pos bad)
  · intro runs good
    refine ⟨_, (clears runs).trans (if_neg (not_not.2 good)), ?_⟩
    simp only [State.tcmdResult, Table.get_set_same, true_and]
    exact fun a other => Table.get_set_other _ _ _ _ _ other
  · intro runs good
    have installed : exec (.tcmdKeyinstall asid) s = .next (s.withKey asid (shake256 (kemShared s.trust.mlkem
        (s.physReadBytes false s.trust.tokaddr.toNat 1568) ++ natBytes 1 asid) 32)) := (installs runs).trans (if_neg (not_not.2 good))
    obtain ⟨tcmd, busy, hbm⟩ := s.withKey_done asid (shake256 (kemShared s.trust.mlkem
        (s.physReadBytes false s.trust.tokaddr.toNat 1568) ++ natBytes 1 asid) 32)
    exact ⟨_, installed, tcmd, busy, s.withKey_keys_same asid _, fun a other => s.withKey_keys_other asid a _ other, hbm⟩
  · intro other
    exact (exec_tcmdLcchange s).trans (if_pos (by simp [other]))
  · intro other
    exact (exec_tcmdQuote s).trans (if_pos (by simp [other]))
  · intro runs notProvisioned notDeployed
    refine (quotes runs).trans ?_
    split
    · next is => exact absurd is notProvisioned
    · next is => exact absurd is notDeployed
    · rfl
  · intro runs may left
    have signs : exec .tcmdQuote s = .next (s.quoted (s.quoteBody ++ xmssmtSign s.trust.seeds s.trust.aidx s.quoteBody ++
        List.replicate 19 0 ++ kemPublic s.trust.mlkem)) := by
      refine (quotes runs).trans ?_
      split
      · exact if_neg (Nat.not_le.2 left)
      · exact if_neg (Nat.not_le.2 left)
      · next notProvisioned notDeployed => exact absurd may (not_or.2 ⟨notProvisioned, notDeployed⟩)
    refine ⟨_, signs, ?_⟩
    simp only [State.quoted_trust, and_self]
  · intro runs bad
    exact ⟨_, (changes runs).trans (if_pos (by simp only [bad, Bool.false_and, Bool.not_false])), rfl, rfl, rfl⟩
  · intro target body sig t runs good next disabled
    refine (changes runs).trans ?_
    by_cases verifies : s.trust.verifies body sig = true
    · refine (if_neg (by simp only [body, sig] at good verifies; simp only [good, verifies]; decide)).trans ?_
      rw [if_pos verifies]
      simp only [body] at next
      simp only [next]
      exact if_neg (by simp only [disabled, Bool.false_eq_true, not_false_eq_true])
    · refine (if_pos (by simp only [body, sig] at good verifies; simp only [verifies, Bool.and_false, Bool.not_false])).trans ?_
      rw [if_neg verifies]

/-! ### Power -/

theorem Memory.read_filter (p : Nat → Bool) (a : Nat) : ∀ m : Memory, Memory.read (m.filter (fun c => p c.1)) a = if p a then m.read a else 0
  | [] => by simp [Memory.read, Table.get]
  | (k, v) :: r => by
    have rest := Memory.read_filter p a r
    simp only [Memory.read] at rest ⊢
    rw [List.filter_cons]
    by_cases same : a = k
    · subst same
      by_cases keep : p a = true
      · simp [keep, Table.get]
      · rw [if_neg keep, rest, if_neg keep, if_neg keep]
    · by_cases keep : p k = true
      · rw [if_pos keep, Table.get, if_neg same, rest, Table.get, if_neg same]
      · rw [if_neg keep, rest, Table.get, if_neg same]

/-- The word of SFCTL has its three bits. -/
theorem sfctl_bits (startup bist recov : Bool) :
    (BitVec.ofNat 64 ((if startup then 1 else 0) + (if bist then 2 else 0) + (if recov then 4 else 0))).getLsbD 0 = startup ∧
      (BitVec.ofNat 64 ((if startup then 1 else 0) + (if bist then 2 else 0) + (if recov then 4 else 0))).getLsbD 1 = bist := by
  revert startup bist recov
  decide

theorem State.writeSfctl_startup (s : State) (v : Word) :
    (s.writeSfctl v).mgmt.sfctl.getLsbD 0 = (s.mgmt.sfctl.getLsbD 0 && (v.getLsbD 0 || s.mgmt.bringUp != 5)) := (sfctl_bits ..).1

theorem State.writeSfctl_bist (s : State) (v : Word) :
    (s.writeSfctl v).mgmt.sfctl.getLsbD 1 = (s.mgmt.sfctl.getLsbD 1 || (v.getLsbD 1 && !s.anyEnabled)) := (sfctl_bits ..).2

/-- Settles O50: each step is its definition; a wipe keeps the bytes of retired frames and no others. -/
theorem powerSteps : Obligations.PowerSteps := by
  unfold Obligations.PowerSteps
  intro s
  refine ⟨fun cool => ?_, ⟨_, exec_powerLoss s, rfl, rfl, rfl, rfl, rfl, rfl⟩, fun hot running => ?_, ?_, ?_, fun none_ => ?_, ?_⟩
  · rw [exec_powerOnReset, execPowerOnReset, if_neg (by simp [cool])]
  · have stops := exec_thermalStop s
    rw [execThermalStop, if_neg (by simp [running]; omega)] at stops
    refine ⟨_, stops, rfl, rfl, rfl, fun a => ?_⟩
    exact Memory.read_filter (fun a => s.retiredFrames.contains (frameOf a)) a s.hbm
  · intro held m
    rw [exec_thermalRestart, execThermalRestart, if_neg (by simp [held])]
  · refine ⟨_, exec_sfctlStartupEnd s, ?_, ?_, rfl⟩
    · rw [State.writeSfctl_startup]
      simp [bne]
      rfl
    · rw [State.writeSfctl_bist]
      rw [BitVec.getLsbD_and, Bool.and_assoc]
      exact sup_inf_self
  · refine ⟨_, exec_sfctlBist s, ?_⟩
    rw [State.writeSfctl_bist]
    simp [none_]
  · refine ⟨_, exec_bistDone s, ?_, ?_⟩
    · simp
    · simp

/-! ### Clocks, the power manager and the Chronometer -/

/-- Settles O51: each step is its definition in the case given. -/
theorem powerManagement : Obligations.PowerManagement := by
  unfold Obligations.PowerManagement
  refine ⟨fun s => ⟨?_, ?_, ?_, ?_, ?_⟩, fun s => ⟨?_, ?_⟩⟩
  · intro die v hdie big
    rw [exec_clkcfgWrite, execClkcfgWrite, if_neg (by omega), State.writeClkcfg, if_pos (.inl big)]
  · intro die v hdie
    rw [exec_clkcfgWrite, execClkcfgWrite, if_neg (by omega)]
  · intro die d k hdie pending free
    rw [exec_clkcfgPendingApply, execClkcfgPendingApply, if_neg (by omega)]
    simp only [pending]
    rw [if_neg]
    simp only [List.any_eq_true, List.mem_range, Bool.and_eq_true, not_exists, not_and, Bool.not_eq_true, Option.isSome_eq_false_iff]
    intro i hi _
    simp [free i hi]
  · intro due
    have checks := exec_powerManagerCheck s
    rw [execPowerManagerCheck, if_neg (by omega)] at checks
    exact ⟨_, checks, rfl, rfl, rfl, rfl, rfl, rfl⟩
  · intro n hn
    have reads := exec_pldmSensorRead n s
    rw [execPldmSensorRead, if_neg (by omega)] at reads
    refine ⟨_, reads, congrArg (fun x => s.mgmt.sensors ++ [x]) ?_⟩
    split
    · rfl
    · rfl
    · rfl
    · next no0 no5 no6 => rw [if_neg no0, if_neg no5, if_neg no6]
  · intro calm onTime
    rw [exec_chronometerTick, execChronometerTick, if_neg (by simp only [calm, onTime, Bool.or_self, Bool.false_eq_true, not_false_eq_true])]
    rfl
  · intro held
    rw [exec_chronometerTick, execChronometerTick, if_pos]
    rcases held with h | h <;> simp only [h, Bool.true_or, Bool.or_true]

end Sys2Proof.Machine
